-- ==== Sys2Proof/Word.lean ====
section
/-!
DEFINITION. Word types, the small enumerations of the unit's chapters, and the plain data that a command can carry.
-/

namespace Sys2Proof

/-- A setup register word (17_setup_registers R388). -/
abbrev Word := BitVec 32

/-- A byte. -/
abbrev Byte := BitVec 8

/-- Sparse data by key: keys strictly rise (see `SMap.wf` in Machine/Ops.lean). -/
abbrev SMap (α : Type) := List (Nat × α)

/-- The two master ports and the debug port (11_management R256, 18_integration R404). -/
inductive Port where
  | a | b | dbg
  deriving DecidableEq, Repr

/-- The two hub instances (00_scope R1). -/
inductive HubId where
  | a | b
  deriving DecidableEq, Repr

/-- State of a closed curd in a station record buffer (06_admission R131). -/
inductive CurdSt where
  | unsent | sent | acked
  deriving DecidableEq, Repr

/-- Whether a queued tensor burst can be read (08_tensor R192, R193, R188). -/
inductive BurstBad where
  | no | missed | overwritten | excluded
  deriving DecidableEq, Repr

/-- Flow state (07_sequence_ledger Table 7.4). -/
inductive FlowSt where
  | free | opened | decode | preempted | closed
  deriving DecidableEq, Repr

/-- Phase of the plan transaction (11_management R265, Table 11.5). -/
inductive Phase where
  | idle | opened | preparing | armed | recover
  deriving DecidableEq, Repr

/-- An operation of the Seal engine (12_isolation Table 12.7). -/
inductive SealKind where
  | keygen | register | sign | seal | verify
  deriving DecidableEq, Repr

/-- TDISP state of the unit's function (12_isolation R292). -/
inductive TdiSt where
  | unlocked | locked | run | error
  deriving DecidableEq, Repr

/-- What a Caravan sequence number carries (15_egress R366, R369). -/
inductive CsnKind where
  | data (jidx : Nat) | probe | lapped (fst lst cfirst clast : Nat) | endMark
  deriving DecidableEq, Repr

/-- Supplies and `PORST_N` (18_integration R400, 14_startup R333). -/
inductive Power where
  | off | porst | on
  deriving DecidableEq, Repr

/-- A destination of accepted records (00_scope Table 0.6, 06_admission R145). -/
inductive Sink where
  | ring (ctx : Nat) (n : Nat)
  | stream (n : Nat)
  | node | gray | ledger | churn
  deriving DecidableEq, Repr

/-- Record types (05_records Table 5.4). -/
inductive RecTy where
  | mark | rpt | cnt | snap | stall | pcs | bw | sketch | tstat | tcap | flow | gap | epoch | tsync | skim | trig
  | fault | seal | anchor
  deriving DecidableEq, Repr

/-- A record (05_records Table 5.3): its type, TFLAGS, sequence number, timestamp and the words after the header.
`src` is the source a loss of the record is counted under (Table 5.10). `filled` is false while its contents have not
been written into its place (01_unit_anatomy R405). `own` is the context, permission and partition of the watch that a TSTAT or TCAP
record is for; none for an operator's (08_tensor R198). -/
structure Record where
  ty     : RecTy := .mark
  tf     : BitVec 8 := 0
  src    : BitVec 16 := 0
  seq    : Nat := 0
  ft     : Nat := 0
  body   : List (BitVec 64) := []
  filled : Bool := true
  own    : Option (Nat × BitVec 2 × BitVec 8) := none
  deriving DecidableEq, Repr

/-- A curd (05_records R115, Table 5.1): header fields and the records of its body. -/
structure Curd where
  unit     : Nat := 0
  dev      : Option Nat := none
  close    : BitVec 2 := 0
  filtered : Bool := false
  hubB     : Bool := false
  sealed   : Bool := false
  rsv      : Bool := false
  tq       : BitVec 2 := 0
  firstSeq : Nat := 0
  ftBase   : Nat := 0
  epoch    : BitVec 32 := 0
  recs     : List Record := []
  hash     : BitVec 256 := 0
  deriving DecidableEq, Repr

/-- What a member's node-head sink brings to the head: a curd with its JIDX, or a LAPPED notice of the indexes skipped
(13_node R319-R321). -/
inductive NodeItem where
  | curd (jidx : Nat) (c : Curd)
  | lapped (first last : Nat)
  deriving DecidableEq, Repr

/-- Who asked for a descriptor command: context, SEQ and the descriptor's IRQ bit (10_contexts R236). -/
structure CmdRef where
  ctx : Nat := 0
  seq : Nat := 0
  irq : Bool := false
  deriving DecidableEq, Repr

/-- Subscription arguments (06_admission Table 6.3). -/
structure SubArgs where
  units : BitVec 48 := 0
  types : BitVec 32 := 0
  start : BitVec 2 := 0
  startIdx : Nat := 0
  deriving DecidableEq, Repr

/-- Tensor-watch arguments (08_tensor Table 8.3). -/
structure WatchArgs where
  capture  : Bool := false
  tid      : BitVec 24 := 0
  stid     : BitVec 24 := 0
  fmt      : BitVec 4 := 0
  sfmt     : BitVec 4 := 0xF
  stepMode : BitVec 2 := 0
  step0    : BitVec 32 := 0
  step1    : BitVec 32 := 0
  count    : BitVec 16 := 0
  dieMask  : BitVec 40 := 0
  master   : BitVec 32 := 0
  explo    : BitVec 8 := 0x80
  sblo     : BitVec 8 := 0
  values   : Bool := false
  capScale : Bool := false
  keyId    : BitVec 32 := 0
  capMax   : BitVec 7 := 0
  deriving DecidableEq, Repr

/-- Context arguments (10_contexts Table 10.2). -/
structure CtxArgs where
  ctx     : BitVec 12 := 0
  perm    : BitVec 2 := 0
  stallp  : Bool := false
  ringloc : Bool := false
  pasiden : Bool := false
  pasid   : BitVec 20 := 0
  part    : BitVec 8 := 0
  share   : BitVec 8 := 0
  deriving DecidableEq, Repr

/-- Query arguments (09_churn Table 9.11). -/
structure QueryArgs where
  metric : BitVec 16 := 0
  kind   : BitVec 3 := 0
  scope  : BitVec 24 := 0
  param  : BitVec 32 := 0
  wstart : BitVec 64 := 0
  wend   : BitVec 64 := 0
  qs     : List (BitVec 14) := []
  wait   : BitVec 20 := 0
  addr   : BitVec 64 := 0
  alen   : BitVec 32 := 0
  deriving DecidableEq, Repr

/-- What one device answers to a query, in a form that a node head can merge (09_churn Table 9.12, 13_node R330): the header's
values, counts that add, the words of an answer that does not merge, a quantile sketch and a heavy-hitter sketch. -/
structure Answer where
  result : Nat := 0
  flags  : BitVec 8 := 0
  asof   : Nat := 0
  start  : Nat := 0
  stop   : Nat := 0
  count  : Nat := 0
  nums   : List Nat := []
  words  : List (BitVec 64) := []
  quant  : Bool := false
  lvls   : List (List Nat) := []
  min    : Nat := 0
  max    : Nat := 0
  hot    : Bool := false
  ents   : List (Nat × Nat × Nat) := []
  total  : Nat := 0
  deriving DecidableEq, Repr

/-- An edge of the PPS_IN pin: its capture instant, whether it falls, and for how many reference periods the level then held
(02_fabric_time R57). -/
structure PpsPulse where
  at_  : Nat := 0
  fall : Bool := false
  held : Nat := 0
  deriving DecidableEq, Repr

/-- One probe of a node exchange (13_node R310): the child's send instant, the parent's receive and send instants, the child's receive
instant, and OFFH of the parent as its reply carries it. -/
structure NodeProbe where
  t1 : Nat := 0
  t2 : Nat := 0
  t3 : Nat := 0
  t4 : Nat := 0
  offh : Int := 0
  deriving DecidableEq, Repr

/-- A node beacon (13_node R315): the origin's values, the hops it has made, and whether it is this device's own, come
back. -/
structure Beacon where
  dev      : Nat := 0
  nvmaj    : BitVec 8 := 1
  nvmin    : BitVec 8 := 0
  feat     : BitVec 32 := 0
  healthy  : Bool := false
  headOk   : Bool := false
  claim    : Nat := 0
  claimDev : Nat := 0
  head     : Option Nat := none
  depth    : Nat := 0
  ecc      : Nat := 0
  epoch    : BitVec 32 := 0
  plandiff : Bool := false
  tq       : BitVec 2 := 0
  hops     : Nat := 0
  echo     : Bool := false
  deriving DecidableEq, Repr

/-- A completion (10_contexts Table 10.11): CMDHEAD and PHASE join it as it is posted. -/
structure Completion where
  seq    : Nat := 0
  op     : Nat := 0
  result : Nat := 0
  final  : Bool := false
  more   : Bool := false
  dup    : Bool := false
  v0     : Nat := 0
  v1     : Nat := 0
  v2     : Nat := 0
  irq    : Bool := false
  deriving DecidableEq, Repr

/-- A record ring entry (10_contexts R248). -/
structure RingEnt where
  words : List (BitVec 64) := []
  deriving DecidableEq, Repr

/-- An Ethernet frame that carries a Caravan packet (15_egress R359, R360, R365): the sub-port that sends it, MAC addresses, the 802.1Q
tag's PCP and VID, DSCP, IPv6 addresses, UDP ports, and the 48 B header with its body. -/
structure CvFrame where
  sub   : Nat := 0
  dmac  : BitVec 48 := 0
  smac  : BitVec 48 := 0
  vlan  : Option (Nat × Nat) := none
  dscp  : Nat := 0
  sip   : BitVec 128 := 0
  dip   : BitVec 128 := 0
  sport : Nat := 0
  dport : Nat := 0
  hdr   : List Byte := []
  body  : List Byte := []
  deriving DecidableEq, Repr

/-- A frame at the egress MAC (15_egress R371): its destination addresses, what it carries, and for UDP the ports, the source address
and the SESSION. -/
structure RxFrame where
  dmac    : BitVec 48 := 0
  dip     : BitVec 128 := 0
  pause   : Bool := false
  fits    : Bool := true
  ns      : Bool := false
  udp     : Bool := false
  sport   : BitVec 16 := 0
  dport   : BitVec 16 := 0
  sip     : BitVec 128 := 0
  session : BitVec 32 := 0
  sumOk   : Bool := false
  ackLen  : Bool := false
  /-- VID of its 802.1Q tag (15_egress Table 15.1). -/
  vlan    : Option (BitVec 12) := none
  /-- The IPv6 packet has extension headers (15_egress Table 15.1). -/
  ext     : Bool := false
  deriving DecidableEq, Repr

/-- A firmware image (12_isolation R296). -/
structure FwImage where
  version : BitVec 32 := 0
  svn : Nat := 0
  meas : BitVec 384 := 0
  deriving DecidableEq, Repr

/-- A change of the hub SRAM that a command makes: all bytes to zero, or bytes from an address. -/
inductive SramOp where
  | clear
  | write (addr : Nat) (bytes : List Byte)
  deriving DecidableEq, Repr

/-- What the unit sends to its surroundings. -/
inductive Out where
  /-- A write to host memory for a context (10_contexts R244, R248, R223), with the T bit and the PASID it carries
  (12_isolation R292, 10_contexts Table 10.2). -/
  | host (ctx addr : Nat) (tee : Bool) (pasid : Option (BitVec 20)) (words : List (BitVec 64))
  /-- An MSI-X message (10_contexts R252). -/
  | msix (vec : Nat)
  /-- A Port B response: RESULT and payload (11_management R279). -/
  | response (result : Nat) (payload : List Byte)
  /-- The value a register read returns to a port (17_setup_registers R381). -/
  | read (port : Port) (value : Word)
  /-- A new level of PPS_OUT (02_fabric_time R59). -/
  | ppsOut (high : Bool)
  /-- A TRIG block sent on a sync port: origin, line, serial (13_node R313). -/
  | trigBlock (port : Nat) (origin : Nat) (line : Nat) (serial : BitVec 8)
  /-- A new level of a TRIG pin, active or idle (04_markers R110). -/
  | pin (p : Nat) (active : Bool)
  /-- A curd in a REC frame to the node head, with its JIDX (13_node R319). -/
  | recFrame (jidx : Nat) (words : List (BitVec 64))
  /-- A LAPPED notice to the node head: first and last index skipped (13_node R319). -/
  | recLapped (first last : Nat)
  /-- The head's acknowledgement of a member's curd: device, JIDX (13_node R319). -/
  | recAck (dev jidx : Nat)
  /-- The answer of SEAL_PUBKEY in a context's buffer: KEYID, P-256, X and Y; the layout of the 128 B is not stated
  (12_isolation R297). -/
  | pubkey (ctx addr : Nat) (tee : Bool) (pasid : Option (BitVec 20)) (keyId : BitVec 32) (p256 : Bool) (x y : BitVec 384)
  /-- A beacon flooded on a sync port (13_node R315). -/
  | beacon (port : Nat) (b : Beacon)
  /-- A frame of a node function to a device, 64 for all: what it is, and its two values (13_node R310-R328). -/
  | nodeMsg (to_ kind a b : Nat)
  /-- A NODE-scope query passed on, and an answer to one (13_node R330). -/
  | nodeQuery (to_ : Nat) (a : QueryArgs)
  | nodeAns (to_ : Nat) (ans : Answer)
  /-- A Completer Abort to a Deferrable Memory Write of Port A (11_management R282). -/
  | completerAbort
  /-- A NACK of the packet that carries a post on Port B (11_management R282). -/
  | nack
  /-- Words that the service firmware writes to a mailbox's buffer in host memory (11_management Table 11.10). -/
  | mbxBuf (mbx addr : Nat) (words : List (BitVec 64))
  /-- An Oasis dump to a mailbox's buffer, slot by slot; none is a slot of zeros (14_startup R356). -/
  | oasisDump (mbx addr : Nat) (slots : List (Option Curd))
  /-- A Caravan packet (15_egress R365). -/
  | caravan (f : CvFrame)
  /-- A Neighbor Advertisement for the unit's address (15_egress Table 15.1). -/
  | neighborAdv (addr : BitVec 128)
  /-- A write of the raw stream to host memory (16_grayth R374). -/
  | raw (addr : Nat) (words : List (BitVec 64))
  /-- Zeros, and words, written to device memory: the expert-load ring (09_churn R222). -/
  | devZero (addr len : Nat)
  | devWrite (addr : Nat) (words : List (BitVec 64))
  /-- Text to the debug UART (04_markers R111). -/
  | uart (start bit : Nat) (text : List Byte)
  /-- The debug UART's pin leaves its function: what has not left by this instant of the characters sent before is discarded
  (04_markers R112). -/
  | uartCut (at_ : Nat)
  /-- The answer to an MCTP control message: completion code and data (11_management R278). -/
  | mctp (code : Nat) (data : List Byte)
  /-- A NOTICE to DEST (11_management R280). -/
  | notice (dest : BitVec 8) (src kind : Nat)
  deriving DecidableEq, Repr

end Sys2Proof
end

