-- ==== Sys2Proof/Syntax.lean ====
section
/-!
DEFINITION. The commands of the unit: one constructor per row of the operations table, in the table's order.
The first operand of every command is `t`, the master FT instant at which it happens.
-/

namespace Sys2Proof

/-- The operations and events of the part. -/
inductive Instr where
  /-- EVENT_LINE_SAMPLE (R62): A tap presents its engine's 64 event lines and privilege indication to its slice on a die cycle. -/
  | eventLineSample (t : Nat) (die : Fin 40) (tap : Fin 32) (lines : BitVec 64) (p1 : Bool) (cyc : Nat)
  /-- COMMAND_ISSUE (R80): An issue indication writes the engine's issue-table entry with the command index and issue FT. -/
  | commandIssue (t : Nat) (die : Fin 40) (tap : Fin 32) (idx : BitVec 32)
  /-- COMMAND_RETIRE (R80): A retired command is presented on the command-retire port, its latency is looked up and it feeds counters, comparators and the sampler. -/
  | commandRetire (t : Nat) (die : Fin 40) (tap : Fin 32) (idx : BitVec 32) (addr : BitVec 48) (stall : BitVec 16) (p1 : Bool) (cyc : Nat)
  /-- MARKER_BEAT (R88): A tap presents a marker beat with a source ID, starting or continuing a marker. -/
  | markerBeat (t : Nat) (die : Fin 40) (tap : Fin 32) (src : BitVec 16) (data : BitVec 128) (p1 : Bool) (cyc : Nat)
  /-- RPT_AGE_TIMEOUT (R92): A repeat run reaches FIRST + RPTMAX with no further repeat and closes under AGE. -/
  | rptAgeTimeout (t : Nat) (die : Fin 40) (entry : Fin 64)
  /-- MARKER_TIMEOUT (R406): A marker still short of beats 16 die cycles after beat 0 is ended with TRUNC set. -/
  | markerTimeout (t : Nat) (die : Fin 40) (tap : Fin 32)
  /-- MARKER_QUEUE_DRAIN (R91): The slice marker queue drains beats into the curd places their markers received at admission. -/
  | markerQueueDrain (t : Nat) (die : Fin 40) (slice : Fin 8)
  /-- STALL_HOLD_RELEASE (R97): Queue space frees during a hold; the tap takes beat 0 and the marker is admitted with a STALL record. -/
  | stallHoldRelease (t : Nat) (die : Fin 40) (tap : Fin 32) (flow : Bool)
  /-- STALL_HOLD_TIMEOUT (R97): A hold reaches 10 us; the marker is admitted and counted into a GAP, STALLTO increments and the entry disarms. -/
  | stallHoldTimeout (t : Nat) (die : Fin 40) (tap : Fin 32) (flow : Bool)
  /-- STALL_REARM (R97): A disarmed entry re-arms at the first die cycle in which its slice queue has 4 free beats. -/
  | stallRearm (t : Nat) (die : Fin 40) (key : Fin 96)
  /-- FLOW_EVENT (R161): A tap presents a flow event, which the station admits as a FLOW record or counts under PORTBUSY. -/
  | flowEvent (t : Nat) (die : Fin 40) (tap : Fin 32) (handle : BitVec 21) (code : BitVec 4) (arg : BitVec 32) (p1 : Bool) (cyc : Nat)
  /-- TENSOR_TAG (R191): A tap presents a write-burst tag that may open or feed an accumulation and is checked for overwrites. -/
  | tensorTag (t : Nat) (die : Fin 40) (tap : Fin 32) (tid : BitVec 24) (step : BitVec 32) (addr : BitVec 48) (len : BitVec 16) (p1 : Bool) (cyc : Nat)
  /-- END_TAG (R195): A zero-length end tag for a tensor and step may close an accumulation under END. -/
  | endTag (t : Nat) (die : Fin 40) (tap : Fin 32) (tid : BitVec 24) (step : BitVec 32) (addr : BitVec 48) (p1 : Bool) (cyc : Nat)
  /-- TENSOR_READ_COMPLETE (R192): A tensor reader read returns and its burst is folded into statistics and encrypted for a capture. -/
  | tensorReadComplete (t : Nat) (die : Fin 40) (burst : Nat) (data : List Byte)
  /-- TENSOR_READ_DEADLINE (R192): A queued burst whose read was not issued within 1 us becomes unreadable and counts as MISSED. -/
  | tensorReadDeadline (t : Nat) (die : Fin 40) (burst : Nat)
  /-- ACCUM_IDLE_TIMEOUT (R195): IDLE us pass with no burst or end tag and the accumulation closes under IDLE. -/
  | accumIdleTimeout (t : Nat) (die : Fin 40) (wid : Fin 64)
  /-- DIE_FREQ_CHANGE (R33): The die clock changes frequency; crossings keep data and AO59 counts the change. -/
  | dieFreqChange (t : Nat) (die : Fin 40)
  /-- CURD_FLUSH_TIMEOUT (R22): The flush interval passes since the curd's first record and the curd closes with CLOSE FLUSH. -/
  | curdFlushTimeout (t : Nat) (u : Fin 48)
  /-- GAP_FLUSH_TIMEOUT (R128): The flush interval passes since a triple's first loss and its pending GAP record is admitted. -/
  | gapFlushTimeout (t : Nat) (u : Fin 48) (src : BitVec 16) (lkind : BitVec 4) (cause : BitVec 4)
  /-- CURD_SEND (R131): The station sends its oldest closed, fully written curd over the link under a pool grant and credits. -/
  | curdSend (t : Nat) (die : Fin 40)
  /-- POOL_REQUEST (R135): The allocator serves the wait list and new pool-buffer requests in round robin, granting or answering NO_BUFFER. -/
  | poolRequest (t : Nat) (reqs : List (Fin 48))
  /-- POOL_BUFFER_FREE (R134): A pool buffer frees after acceptance and sink reads or 4 us and is granted to a waiting requester. -/
  | poolBufferFree (t : Nat) (jidx : Nat)
  /-- CURD_RECEIVED (R124): A curd arrives at the hub, its CRC is checked and it enters the ingest pool or is recognised as a duplicate. -/
  | curdReceived (t : Nat) (die : Fin 40) (crcOk : Bool)
  /-- RESEND_REQUEST (R124): A station asked to resend sends its unacknowledged closed curds from the oldest. -/
  | resendRequest (t : Nat) (die : Fin 40)
  /-- JOURNAL_TAKE (R142): The journal writer takes a curd from the pool once the token bucket holds 4096, assigns a JIDX and issues both writes. -/
  | journalTake (t : Nat) (u : Fin 48)
  /-- JOURNAL_WRITE_COMPLETE (R141): Both journal writes complete; the curd is accepted, acknowledged and copied into Oasis. -/
  | journalWriteComplete (t : Nat) (jidx : Nat)
  /-- CURD_DELIVERY (R30): The hub places an accepted curd in the subscribed sinks' queues and sends a retire notice. -/
  | curdDelivery (t : Nat) (jidx : Nat)
  /-- ACK_RECEIVED (R131): An acknowledgement arrives at the station and the curd is marked ACKED. -/
  | ackReceived (t : Nat) (die : Fin 40) (rsv : Bool) (first : Nat)
  /-- RETIRE_NOTICE (R133): A retire notice arrives and the station frees the curd's slot, writing pending GAP records into the reserve. -/
  | retireNotice (t : Nat) (die : Fin 40) (rsv : Bool) (first : Nat)
  /-- RESEND_TIMEOUT (R131): No acknowledgement arrives within 20 us of a curd's last beat and the station resends it. -/
  | resendTimeout (t : Nat) (die : Fin 40) (rsv : Bool) (first : Nat)
  /-- PEER_CONFIRM (R138): The standby confirms it holds a hub internal-source record, which is then admitted with its sequence number. -/
  | peerConfirm (t : Nat) (src : Fin 8)
  /-- MIRROR_UPDATE (R25): The standby receives a mirrored state change from the active hub over the peer link. -/
  | mirrorUpdate (t : Nat)
  /-- JOURNAL_CHECKPOINT (R140): Every 100 us the journal writer, ledger and Churn write their checkpoints. -/
  | journalCheckpoint (t : Nat)
  /-- REBUILD_COMPLETE (R143): The fallback rebuild ends and the fallback region becomes the journal copy. -/
  | rebuildComplete (t : Nat)
  /-- JOURNAL_ENABLE (R144): Writing EN to KX_HUB_JRN_CFG starts the journal if its checks pass, else sets BADCFG. -/
  | journalEnable (t : Nat) (port : Port) (value : Word)
  /-- SINK_PLACE (R146): The hub considers the next journal index for a subscription and places the curd, a derived curd, or passes over it. -/
  | sinkPlace (t : Nat) (sink : Sink)
  /-- PLACEMENT_READBACK (R250): A read-back of a ring's last entry returns and the subscription cursor advances. -/
  | placementReadback (t : Nat) (ctx : Fin 4096) (ring : Fin 8)
  /-- SKIM_WINDOW_END (R152): A 10 us Skim window ends and every unit sends its offered-bytes report. -/
  | skimWindowEnd (t : Nat)
  /-- SKIM_REPORT (R152): A unit's Skim report arrives at the hub. -/
  | skimReport (t : Nat) (u : Fin 48)
  /-- SKIM_DECISION (R153): One us after a window, Skim predicts the offer, steps or lowers a lever, sets pacing and allowances and the stall lever. -/
  | skimDecision (t : Nat)
  /-- FAST_ARM (R154): A curd waits 1 us for journal tokens and the hub arms pacing at once with equal shares. -/
  | fastArm (t : Nat)
  /-- LEVER_APPLY (R86): A Skim lever change takes effect at its EFFECT instant at a station or source. -/
  | leverApply (t : Nat) (u : Fin 48) (lever : BitVec 8) (idx : BitVec 8)
  /-- LEVER_CHANGE_DELIVERY (R155): A pending allowance or lever change reaches a unit that was out of reach and is applied at the next permitted instant. -/
  | leverChangeDelivery (t : Nat) (u : Fin 48)
  /-- TIME_EXCHANGE_REQUEST (R43): At each 8,000-tick slot the station sends a time-exchange request, taking t1. -/
  | timeExchangeRequest (t : Nat) (die : Fin 40)
  /-- TIME_EXCHANGE_REPLY (R43): The hub receives a time-exchange request and sends its reply with t2 and t3. `turn` is t3 - t2 in ticks. -/
  | timeExchangeReply (t : Nat) (die : Fin 40) (turn : Nat)
  /-- TIME_REPLY_RECEIVED (R43): The station receives the reply, takes t4 and computes offset and delay. -/
  | timeReplyReceived (t : Nat) (die : Fin 40)
  /-- SERVO_GROUP_END (R44): A group of 8 exchange slots ends; the servo selects the smallest round trip, corrects, and changes state. -/
  | servoGroupEnd (t : Nat) (die : Fin 40)
  /-- HOLDOVER_TIMEOUT (R45): HOLDOVER has lasted 1 ms and the station enters DRIFT. -/
  | holdoverTimeout (t : Nat) (die : Fin 40)
  /-- TSYNC_PERIODIC (R51): Every 1 ms a station that offers records emits a TSYNC PERIODIC record. -/
  | tsyncPeriodic (t : Nat) (die : Fin 40)
  /-- REFCLK_LOSS (R40): The active hub sees no reference edges for 100 ns, writes a FAULT and counts the outage. -/
  | refclkLoss (t : Nat)
  /-- REFCLK_RETURN (R40): The reference returns and the hub applies a device-wide forward step of the counted duration. -/
  | refclkReturn (t : Nat) (cycles : Nat)
  /-- FT_STEP_APPLY (R40): A scheduled device-wide forward FT step is applied by every station and both hubs at its instant. -/
  | ftStepApply (t : Nat)
  /-- FT_READ (R390): A read of KX_TIM_FT_LO latches the high half for the reading port. -/
  | ftRead (t : Nat) (port : Port)
  /-- RTC_SEC_READ (R55): A read of KX_RTC_SEC_LO latches SEC_HI and SUB for the reading port. -/
  | rtcSecRead (t : Nat) (port : Port)
  /-- RTC_LOAD (R55): Writing KX_RTC_CTL.LOAD requests a load of the KX_RTC_SET values. -/
  | rtcLoad (t : Nat) (port : Port) (value : Word)
  /-- RTC_LOAD_APPLY (R55): At the next RTC period the RTC takes the set seconds, sets VALID, clears LOAD and emits an ANCHOR. -/
  | rtcLoadApply (t : Nat)
  /-- VBAT_LOW (R55): VBAT falls below 1.6 V; VBATLOW is set and VALID cleared. -/
  | vbatLow (t : Nat)
  /-- AUTOTRIM_MEASURE (R56): Every 32 s with AUTOTRIM and PPS lock the hub sets TRIM or reloads the RTC. `drift`: ticks that 32 RTC seconds took beyond 32 PPS seconds; `strobe`: ticks from the PPS edge to the strobe. -/
  | autotrimMeasure (t : Nat) (drift : Int) (strobe : Int)
  /-- RTC_SECOND_STROBE (R60): The RTC seconds strobe is captured and an ANCHOR is emitted every INTERVAL seconds. -/
  | rtcSecondStrobe (t : Nat)
  /-- PPS_EDGE (R57): A filtered PPS_IN edge is captured, validated, counted toward lock and may emit an ANCHOR. `e`: the edge of the pin. -/
  | ppsEdge (t : Nat) (e : PpsPulse)
  /-- PPS_WINDOW_MISS (R57): A validation window passes with no valid edge; three consecutive misses clear PPSLOCK. -/
  | ppsWindowMiss (t : Nat)
  /-- TIME_SET (R58): An operator TIME_SET descriptor names the TAI second of the next accepted PPS edge. -/
  | timeSet (t : Nat) (q : CmdRef) (sec : BitVec 48)
  /-- TIME_OF_DAY (R58): A Port B TIME_OF_DAY message names the TAI second of the next accepted PPS edge. -/
  | timeOfDay (t : Nat) (sec : BitVec 48)
  /-- PPS_OUT_START (R59): At the reference edge nearest each second's FT, PPS_OUT is driven high. -/
  | ppsOutStart (t : Nat)
  /-- PPS_OUT_END (R59): After PPSOUT_WIDTH ms, PPS_OUT returns low. -/
  | ppsOutEnd (t : Nat)
  /-- HOST_ANCHOR (R60): A HOST_ANCHOR descriptor submits an (FT, TAI, bound) triple recorded as a HOST anchor. -/
  | hostAnchor (t : Nat) (q : CmdRef) (ft : BitVec 64) (sec : BitVec 48) (ns : BitVec 30) (bound : BitVec 32)
  /-- HOST_ANCHOR_MSG (R60): A Port B HOST_ANCHOR message submits an (FT, TAI, bound) triple recorded as a HOST anchor. -/
  | hostAnchorMsg (t : Nat) (ft : BitVec 64) (sec : BitVec 48) (ns : BitVec 30) (bound : BitVec 32)
  /-- COUNTER_LO_READ (R70): A read of a counter LO register loads the port's high-half latch. -/
  | counterLoRead (t : Nat) (port : Port) (die : Fin 40) (ctr : Fin 320)
  /-- COUNTER_HI_READ (R70): A read of a counter HI register returns the latch and empties it, or the live bits. -/
  | counterHiRead (t : Nat) (port : Port) (die : Fin 40) (ctr : Fin 320)
  /-- COUNTER_HI_WRITE (R71): A write to KX_STN_CNT_HI stages bits 47:32 for the counter and port. -/
  | counterHiWrite (t : Nat) (port : Port) (die : Fin 40) (ctr : Fin 256) (value : Word)
  /-- COUNTER_LO_WRITE (R71): A write to KX_STN_CNT_LO loads the counter with the port's staging and the written low bits. `hi`: the upper half of an access of 8 bytes, which stages bits 47:32 first. -/
  | counterLoWrite (t : Nat) (port : Port) (die : Fin 40) (ctr : Fin 256) (value : Word) (hi : Option Word)
  /-- PERIODIC_CAPTURE (R72): A periodic capture instant copies counters into a free bank and CNT records are admitted. -/
  | periodicCapture (t : Nat) (die : Fin 40)
  /-- AO_CAPTURE (R72): A 1 ms instant with no capture in the previous 1 ms captures the always-on counters. -/
  | aoCapture (t : Nat) (die : Fin 40)
  /-- SNAP_CAPTURE (R72): At a snapshot's T the station captures counters into a free bank tagged with the snapshot ID. -/
  | snapCapture (t : Nat) (die : Fin 40) (id : BitVec 32)
  /-- CAPTURE_WRITE_DONE (R74): A capture's CNT record contents are written into the curd and the bank frees. -/
  | captureWriteDone (t : Nat) (die : Fin 40) (at_ : Nat)
  /-- SNAPSHOT (R77): A SNAPSHOT descriptor requests a device snapshot at T, which is scheduled or refused. -/
  | snapshot (t : Nat) (q : CmdRef) (tq : BitVec 64)
  /-- SNAPSHOT_MSG (R77): A Port B SNAPSHOT message requests a device snapshot at T. -/
  | snapshotMsg (t : Nat) (tq : BitVec 64)
  /-- SNAP_RECORD_ADMIT (R78): Once every station is accepted or missing, or at T + 20 us, the hub admits the SNAP record. -/
  | snapRecordAdmit (t : Nat) (id : BitVec 32)
  /-- BW_WINDOW_CLOSE (R79): An analysis slice window boundary closes the window and admits one BW record. -/
  | bwWindowClose (t : Nat) (die : Fin 40) (sl : Fin 4)
  /-- SEQUENCER_TRANSITION (R101): A true condition moves the sequencer to its target state and runs the entry actions. -/
  | sequencerTransition (t : Nat) (die : Fin 40)
  /-- SEQ_TIMER_EXPIRY (R102): The sequencer timer reaches restart + LOAD ns and its done input becomes true. -/
  | seqTimerExpiry (t : Nat) (die : Fin 40)
  /-- MESH_EVENT (R106): A mesh event raised in a slot is delivered to every endpoint 24 reference periods later. -/
  | meshEvent (t : Nat) (slot : Nat)
  /-- MESH_PARITY_ERROR (R108): A mesh leg parity error is counted as a channel error of the leg. -/
  | meshParityError (t : Nat) (leg : Nat)
  /-- TRIGGER (R109): A TRIGGER descriptor raises mesh lines at the next slot. -/
  | trigger (t : Nat) (q : CmdRef) (lines : BitVec 8)
  /-- TRIGGER_MSG (R109): A Port B TRIGGER message raises mesh lines at the next slot. -/
  | triggerMsg (t : Nat) (lines : BitVec 8)
  /-- TRIG_IN_EDGE (R110): An active edge on a TRIG_IN pin held for 2 samples raises its mesh line. -/
  | trigInEdge (t : Nat) (pin : Fin 8) (level : Bool)
  /-- TRIG_OUT_PULSE_END (R110): A TRIG_OUT pulse width expires and the pin returns inactive. -/
  | trigOutPulseEnd (t : Nat) (pin : Fin 8)
  /-- PIN_FUNCTION_SWITCH (R112): At the first pin-clock edge after a commit a pin runs the park sequence into its new function. `level` is what an input samples in cycle 3. -/
  | pinFunctionSwitch (t : Nat) (pin : Fin 8) (level : Bool)
  /-- HOLD_CHANGE (R114): A HOLD channel change held for 2 samples opens a window, agrees or withdraws. -/
  | holdChange (t : Nat) (chanB : Bool) (level : Bool)
  /-- HOLD_WINDOW_EXPIRY (R114): No agreement by f + W; a HOLD_DISCREPANCY FAULT is written and the input locks. -/
  | holdWindowExpiry (t : Nat)
  /-- HOLD_UNLOCK (R114): Both channels inactive for W cycles clear LOCKED and end any hold in force. -/
  | holdUnlock (t : Nat)
  /-- PROGRESS_SEND (R165): Once per flush interval a station sends a progress message carrying P. -/
  | progressSend (t : Nat) (die : Fin 40)
  /-- PROGRESS_RECEIVE (R165): A progress message arrives and the device watermark may advance. -/
  | progressReceive (t : Nat) (die : Fin 40)
  /-- SILENT_TIMEOUT (R170): A station without a progress message for SILENT us drops out of the watermark set. -/
  | silentTimeout (t : Nat) (die : Fin 40)
  /-- LEDGER_INGEST (R178): The ledger subscription reads a curd's FLOW, GAP and EPOCH records into the reorder buffer. -/
  | ledgerIngest (t : Nat)
  /-- EVENT_RELEASE (R165): The watermark passes the least record's timestamp and it is released and applied to its flow. -/
  | eventRelease (t : Nat)
  /-- FLOW_EVICT (R172): The watermark passes close + EVICTDELAY and the head flow's summary records are admitted. -/
  | flowEvict (t : Nat)
  /-- LEDGER_CATCHUP_DONE (R180): The ledger finishes its replay after a takeover or warm reset and CATCHUP clears. -/
  | ledgerCatchupDone (t : Nat)
  /-- LEDGER_ENABLE (R182): Writing EN = 1 to KX_LED_CFG starts the ledger if its checks pass and zeroes the tables. -/
  | ledgerEnable (t : Nat) (port : Port) (value : Word)
  /-- LEDGER_DISABLE (R174): Writing EN = 0 closes every live flow with REASON 0xFD, flushes the queue and stops. -/
  | ledgerDisable (t : Nat) (port : Port) (value : Word)
  /-- WATCH_ARM (R190): A WATCH ARM descriptor is checked and accepted with a WID and arming instant. -/
  | watchArm (t : Nat) (q : CmdRef) (a : WatchArgs)
  /-- WATCH_REMOVE (R190): A WATCH REMOVE descriptor schedules removal of a watch. -/
  | watchRemove (t : Nat) (q : CmdRef) (wid : Fin 64)
  /-- WATCH_EFFECT (R190): An arm or removal takes effect at its instant at every station in DIEMASK. -/
  | watchEffect (t : Nat) (wid : Fin 64)
  /-- WATCH_RETIRE (R190): A watch retires and the hub posts its FINAL completion. -/
  | watchRetire (t : Nat) (wid : Fin 64)
  /-- EXCL_LOCK (R188): Writing KX_HUB_TW_EXCL_CTL.LOCK fixes the exclusion ranges until PORST_N. -/
  | exclLock (t : Nat) (port : Port) (value : Word)
  /-- TENSOR_WATCH_ENABLE (R204): Writing KX_HUB_TW_CFG.EN enables tensor watch, refused with NOLOCK while LOCK is clear. -/
  | tensorWatchEnable (t : Nat) (port : Port) (value : Word)
  /-- CHURN_ENABLE (R335): Writing KX_CHN_CFG.EN starts Churn if the journal is ENABLED, else sets BADCFG. -/
  | churnEnable (t : Nat) (port : Port) (value : Word)
  /-- CHURN_INGEST (R205): The Churn subscription consumes a curd's selected records into windows, sketches and detectors. -/
  | churnIngest (t : Nat)
  /-- CHURN_WINDOW_CLOSE (R205): The watermark passes WEND + 1 us and Churn closes the window. -/
  | churnWindowClose (t : Nat)
  /-- SKETCH_PARTIAL (R212): A station analysis slice partial arrives and merges into the hub sketch. -/
  | sketchPartial (t : Nat) (die : Fin 40) (sl : Fin 4)
  /-- PARTIAL_TIMEOUT (R212): No boundary partial 20 us after WEND and the station is listed MISSING. -/
  | partialTimeout (t : Nat) (dfn : Fin 64)
  /-- DETECTOR_WINDOW_CLOSE (R219): A detector window closes; members are tested and FAULT and TRIG records admitted on entry or clear. -/
  | detectorWindowClose (t : Nat) (det : Fin 32)
  /-- EXPLOAD_WINDOW_BEGIN (R222): An expert-load window begins and the next slot is zeroed with BUSY set. -/
  | exploadWindowBegin (t : Nat)
  /-- EXPLOAD_WINDOW_CLOSE (R222): An expert-load window closes and its slot header, tail and LASTSEQ are written. -/
  | exploadWindowClose (t : Nat)
  /-- QUERY (R223): A QUERY descriptor is checked and registered to be answered from stored windows. -/
  | query (t : Nat) (q : CmdRef) (a : QueryArgs)
  /-- QUERY_ANSWER (R225): The watermark passes WEND and the answer is written and the completion posted. -/
  | queryAnswer (t : Nat) (id : Nat)
  /-- QUERY_WAIT_TIMEOUT (R224): WAIT us pass and the query is answered as of the watermark with PARTIAL set. -/
  | queryWaitTimeout (t : Nat) (id : Nat)
  /-- NOP (R237): A NOP command completes at LOG with the hub FT. -/
  | nop (t : Nat) (q : CmdRef)
  /-- ABORT (R247): An ABORT is serialised with its target at the target's decision point. -/
  | abort (t : Nat) (q : CmdRef) (target : BitVec 64)
  /-- SUBSCRIBE (R249): A SUBSCRIBE ties a record ring to journal curds, ending any previous subscription. -/
  | subscribe (t : Nat) (q : CmdRef) (ring : Fin 8) (a : SubArgs)
  /-- UNSUBSCRIBE (R249): An UNSUBSCRIBE ends a ring's subscription with an END entry. -/
  | unsubscribe (t : Nat) (q : CmdRef) (ring : Fin 8)
  /-- CTX_OPEN (R231): CTX_OPEN moves a CLOSED context to STOPPED with the given permission and settings. -/
  | ctxOpen (t : Nat) (q : CmdRef) (a : CtxArgs)
  /-- CTX_MODIFY (R231): CTX_MODIFY changes SHARE and STALLP, and ring location for stopped OC 0-15. -/
  | ctxModify (t : Nat) (q : CmdRef) (a : CtxArgs)
  /-- CTX_CLOSE (R231): CTX_CLOSE aborts waiting commands, retires watches, ends subscriptions and closes the context. -/
  | ctxClose (t : Nat) (q : CmdRef) (ctx : Fin 4096)
  /-- DB_CMD (R235): A write to KX_CTX_DB_CMD moves the command producer index or sets DBERR. -/
  | dbCmd (t : Nat) (port : Port) (tee : Bool) (ctx : Fin 4096) (value : Word)
  /-- DB_CPL (R235): A write to KX_CTX_DB_CPL returns completion entries, releasing held completions. -/
  | dbCpl (t : Nat) (port : Port) (tee : Bool) (ctx : Fin 4096) (value : Word)
  /-- DB_REC (R235): A write to KX_CTX_DB_REC returns record ring positions and may re-arm the watermark. -/
  | dbRec (t : Nat) (port : Port) (tee : Bool) (ctx : Fin 4096) (ring : Fin 8) (value : Word)
  /-- DESCRIPTOR_FETCH (R239): The ring engine fetches a descriptor covered by PI and checks SEQ, framing, opcode and permission. -/
  | descriptorFetch (t : Nat) (ctx : Fin 4096) (words : List (BitVec 64))
  /-- LOG_WRITE_COMPLETE (R241): Both command-log writes complete; NEXTSEQ advances and the command takes effect. `mem`: what the memory that the command names holds; none where it cannot be reached. -/
  | logWriteComplete (t : Nat) (ctx : Fin 4096) (seq : Nat) (mem : Option (List (BitVec 64)))
  /-- COMPLETION_SIGNAL_TIMEOUT (R253): COALUS us pass since the earliest unsignalled completion and the vector is signalled. -/
  | completionSignalTimeout (t : Nat) (ctx : Fin 4096)
  /-- HOST_READ_ERROR (R229): A descriptor fetch or read-back returns an error and the context enters FAULTED. -/
  | hostReadError (t : Nat) (ctx : Fin 4096) (fetch : Bool)
  /-- CONTEXT_RUN (R234): Writing RUN = 1 starts a STOPPED context if its log and ring checks pass. -/
  | contextRun (t : Nat) (port : Port) (tee : Bool) (ctx : Fin 4096)
  /-- CONTEXT_STOP (R229): Writing RUN = 0 moves a context to STOPPING and then STOPPED. -/
  | contextStop (t : Nat) (port : Port) (tee : Bool) (ctx : Fin 4096)
  /-- COMMAND_LOG_ENABLE (R242): Writing KX_CTX_LOG_CFG.EN starts the command log if its checks pass. -/
  | commandLogEnable (t : Nat) (port : Port) (value : Word)
  /-- MSIX_UNMASK (R252): Unmasking a vector with its pending bit set sends one message. -/
  | msixUnmask (t : Nat) (vec : Fin 4112)
  /-- SEM_REQUEST (R258): A write to KX_SEM_REQ acquires a free lease or renews the holder's lease. -/
  | semRequest (t : Nat) (port : Port) (value : Word)
  /-- SEM_RELEASE (R260): A write to KX_SEM_REL with the holder's TAG releases the lease. -/
  | semRelease (t : Nat) (port : Port) (value : Word)
  /-- LEASE_EXPIRY (R262): The lease reaches its end; staged writes are discarded, the lease freed and a FAULT written. -/
  | leaseExpiry (t : Nat)
  /-- RWP_WRITE (R267): A register-path RWP write is staged into the open transaction or dropped with NOTXN, DENIED or COMMITTING. -/
  | rwpWrite (t : Nat) (port : Port) (off : BitVec 26) (width : Nat) (be : BitVec 8) (value : BitVec 64)
  /-- AUTOCOMMIT_WRITE (R377): With AUTOCOMMIT an RWP write with no transaction acquires the lease, stages and commits at once. -/
  | autocommitWrite (t : Nat) (port : Port) (off : BitVec 26) (value : Word)
  /-- REGISTER_WRITE (R261): A write to a register with no row of its own applies under its access types and the lease rule. -/
  | registerWrite (t : Nat) (port : Port) (tee : Bool) (off : BitVec 26) (width : Nat) (be : BitVec 8) (value : BitVec 64)
  /-- PLAN_BEGIN (R266): PLAN_BEGIN acquires the lease for its context and opens a transaction. -/
  | planBegin (t : Nat) (q : CmdRef) (ms : BitVec 10)
  /-- PLAN_STAGE (R268): PLAN_STAGE stages its inline and list writes all or nothing and restarts the lease. `list` is none where it could not be read. -/
  | planStage (t : Nat) (q : CmdRef) (inline_ : List (Word × Word)) (list : Option (List (Word × Word)))
  /-- PLAN_COMMIT (R270): PLAN_COMMIT checks T, pins the lease and sends PREPARE to every participant. -/
  | planCommit (t : Nat) (q : CmdRef) (at_ : BitVec 64)
  /-- PLAN_ROLLBACK (R269): PLAN_ROLLBACK discards the staged image, ends the transaction and releases the lease, or forces another's. -/
  | planRollback (t : Nat) (q : CmdRef) (force : Bool)
  /-- OP_BEGIN (R266): KX_OP_CTL.OP = BEGIN from a lease holder opens a transaction. -/
  | opBegin (t : Nat) (port : Port)
  /-- OP_COMMIT (R270): KX_OP_CTL.OP = COMMIT commits the register path's transaction at KX_OP_T. -/
  | opCommit (t : Nat) (port : Port)
  /-- OP_ROLLBACK (R269): KX_OP_CTL.OP = ROLLBACK rolls back the open transaction, with FORCE ending another holder's. -/
  | opRollback (t : Nat) (port : Port) (force : Bool)
  /-- PREPARE_RECEIVED (R271): A station receives PREPARE and answers READY with the CRC of its shadow. -/
  | prepareReceived (t : Nat) (die : Fin 40)
  /-- READY_RECEIVED (R271): The hub receives a participant's READY and checks its CRC against the plan store. -/
  | readyReceived (t : Nat) (die : Fin 40) (crc : BitVec 32)
  /-- COMMIT_GO (R271): At T - 1 us the hub sends GO if all are ready, else completes NOTREADY. -/
  | commitGo (t : Nat)
  /-- GO_RECEIVED (R272): A station receives GO, holding it for its copy edge or discarding it if late. -/
  | goReceived (t : Nat) (die : Fin 40)
  /-- STATION_SWAP (R272): At its copy edge a station holding GO closes curds, takes EPOCHEND, activates its shadow and admits COMMIT. -/
  | stationSwap (t : Nat) (die : Fin 40)
  /-- COMMIT_CHECK (R273): At T + 1 us the commit completes OK or the hub sends ROLLBACK for T + 2 us. -/
  | commitCheck (t : Nat)
  /-- ROLLBACK_BOUNDARY (R273): At the rollback instant swapped units restore epoch E and all enter E + 2 with FAILED EPOCH records. -/
  | rollbackBoundary (t : Nat)
  /-- REG_READ (R279): A Port B REG_READ message returns register words with read side effects. -/
  | regRead (t : Nat) (off : BitVec 26) (count : Nat)
  /-- REG_WRITE (R279): A Port B REG_WRITE message applies register writes in order and reports drops. -/
  | regWrite (t : Nat) (writes : List (BitVec 26 × Word))
  /-- SRAM_READ (R279): A Port B SRAM_READ message returns bytes of hub SRAM. -/
  | sramRead (t : Nat) (addr : Nat) (len : Nat)
  /-- SRAM_WRITE (R279): A Port B SRAM_WRITE message writes bytes of hub SRAM. -/
  | sramWrite (t : Nat) (addr : Nat) (data : List Byte)
  /-- DOORBELL (R280): A Port B DOORBELL message applies a doorbell to a RINGLOC context. -/
  | doorbell (t : Nat) (ctx : Fin 4096) (sel : BitVec 8) (value : Word)
  /-- SET_NOTIFY (R280): A Port B SET_NOTIFY message sets the NOTICE destination and enables. -/
  | setNotify (t : Nat) (dest : BitVec 8) (enable : BitVec 2)
  /-- NOTICE_RESEND (R280): An unanswered NOTICE is sent again every 100 ms. -/
  | noticeResend (t : Nat) (src : Nat)
  /-- MCTP_CONTROL (R278): An MCTP control message such as Set Endpoint ID is answered as an endpoint. -/
  | mctpControl (t : Nat) (cmd : BitVec 8) (data : List Byte)
  /-- MBX_POST (R282): A write to KX_MBX_POST moves staged words into the mailbox queue as one message or rejects it. -/
  | mbxPost (t : Nat) (port : Port) (mbx : Fin 16) (value : Word) (dmwr : Bool)
  /-- MBX_ACK (R283): A write to KX_MBX_ACK acknowledges the waiting message and queues an acknowledge entry. -/
  | mbxAck (t : Nat) (port : Port) (mbx : Fin 16) (value : Word)
  /-- MBX_ACKQ_READ (R283): A read of KX_MBX_ACKQ pops one acknowledge entry. -/
  | mbxAckqRead (t : Nat) (port : Port) (mbx : Fin 16)
  /-- PING (R283): A PING mailbox message is answered OK by the firmware. -/
  | ping (t : Nat) (mbx : Fin 16)
  /-- FW_INFO (R283): A FW_INFO mailbox message writes firmware version and measurement to the buffer. -/
  | fwInfo (t : Nat) (mbx : Fin 16) (ok : Bool)
  /-- FW_STAGE (R296): A FW_STAGE mailbox message stages an image chunk, verified when the last arrives. -/
  | fwStage (t : Nat) (mbx : Fin 16) (mem : Option (List Byte)) (last : Bool)
  /-- FW_ACTIVATE (R296): A FW_ACTIVATE mailbox message marks the staged image active at the next warm reset. -/
  | fwActivate (t : Nat) (mbx : Fin 16)
  /-- DIAG_RUN (R283): A DIAG_RUN mailbox message runs a self-test on idle parts. -/
  | diagRun (t : Nat) (mbx : Fin 16)
  /-- OASIS_DUMP (R356): An OASIS_DUMP mailbox message copies the selected Oasis to a 4 MiB buffer. -/
  | oasisDump (t : Nat) (mbx : Fin 16) (ok : Bool)
  /-- CONSOLE (R283): The firmware posts a CONSOLE F2H message and signals the host. -/
  | console (t : Nat) (mbx : Fin 16) (arg : BitVec 16) (rest : List Word) (text : List Byte)
  /-- KEY_REGISTER (R298): KEY_REGISTER queues an ECDH and signature with the Seal engine for a tenant key. `point` is what the buffer held; none where it could not be read. -/
  | keyRegister (t : Nat) (q : CmdRef) (addr : BitVec 64) (point : Option (BitVec 384 × BitVec 384))
  /-- KEY_REVOKE (R299): KEY_REVOKE destroys a registration the context owns unless a capture uses it. -/
  | keyRevoke (t : Nat) (q : CmdRef) (keyId : BitVec 32)
  /-- SEAL_PUBKEY (R297): SEAL_PUBKEY writes KEYID, curve and the seal public key to the buffer. `ok`: the buffer could be written. -/
  | sealPubkey (t : Nat) (q : CmdRef) (buf : BitVec 64) (ok : Bool)
  /-- DISCLOSE (R295): DISCLOSE writes the current disclosure document to the buffer. `ok`: the buffer could be written. -/
  | disclose (t : Nat) (q : CmdRef) (buf : BitVec 64) (len : BitVec 32) (ok : Bool)
  /-- TENANT_ATTACH (R285): TENANT_ATTACH records the tenant ID and moves the unit to ATTACHED. -/
  | tenantAttach (t : Nat) (q : CmdRef) (tenant : BitVec 64)
  /-- TENANT_DETACH (R303): TENANT_DETACH starts a tenant-change scrub. -/
  | tenantDetach (t : Nat) (q : CmdRef)
  /-- TENANT_CHANGE_SIGNAL (R293): A rising edge on kx_tenant_change starts a scrub in ATTACHED. -/
  | tenantChangeSignal (t : Nat)
  /-- SCRUB_STEP (R303): The scrub runs its next step, waiting where a step must. -/
  | scrubStep (t : Nat)
  /-- SEAL_OP_COMPLETE (R301): A Seal engine operation reaches its fixed time and reports its result. `ok`: the buffer of a KEY_REGISTER could be written. -/
  | sealOpComplete (t : Nat) (ok : Bool)
  /-- SEAL_PERIOD (R300): Every PERIOD ms a SEAL record is requested for each chain that gained curds. -/
  | sealPeriod (t : Nat)
  /-- SYNC_PORT_TRAINED (R307): A sync port finishes training, learns its peer and goes UP. -/
  | syncPortTrained (t : Nat) (port : Fin 3) (peer : BitVec 6) (delay : BitVec 8)
  /-- NODE_TIME_EXCHANGE (R310): Each us a member sends 8 probes to its parent and computes OFFH from the best. `port`, `parent`: the sync port and the device that answered there; `probes`: those of the 8 whose reply came, in order. -/
  | nodeTimeExchange (t : Nat) (port : Fin 3) (parent : BitVec 6) (probes : List NodeProbe)
  /-- NODE_PROBE (R310): A parent receives a time probe and replies with its timestamps and OFFH. -/
  | nodeProbe (t : Nat) (port : Fin 3)
  /-- NODE_STEP_ORDER (R312): The head orders a forward step or slew for a member from its OFFH. `offh`: the OFFH the member reports; `join`: at a join or rejoin. -/
  | nodeStepOrder (t : Nat) (dev : BitVec 6) (offh : Int) (join : Bool)
  /-- TRIG_BLOCK_RECEIVED (R313): A TRIG block arrives, is forwarded, de-duplicated and raises the line locally. `ctrl`: every lane copy failed its CRC-8, and this is the CTRL copy. -/
  | trigBlockReceived (t : Nat) (port : Fin 3) (origin : BitVec 6) (line : Fin 8) (serial : BitVec 8) (ctrl : Bool)
  /-- SYNC_REPLAY_REQUEST (R309): A CTRL or REC frame fails its CRC and the sender replays from it. -/
  | syncReplayRequest (t : Nat) (port : Fin 3) (seq : Nat)
  /-- BEACON_SEND (R315): A device floods its beacon every 100 us or on a change and computes the head. -/
  | beaconSend (t : Nat)
  /-- BEACON_RECEIVED (R315): A beacon arrives, is flooded on and updates reachability and routes. -/
  | beaconReceived (t : Nat) (port : Fin 3) (b : Beacon)
  /-- BEACON_TIMEOUT (R315): No beacon from a device for 300 us makes it unreachable. -/
  | beaconTimeout (t : Nat) (dev : BitVec 6)
  /-- HEAD_CLAIM (R317): Writing KX_SYN_CLAIM.CLAIM claims or withdraws the head role. -/
  | headClaim (t : Nat) (port : Port) (value : Word)
  /-- NODE_PROGRESS (R320): Every 10 us a member sends its device watermark to the head. -/
  | nodeProgress (t : Nat)
  /-- REC_FRAME_RECEIVED (R320): The head receives a member curd and queues it in the node buffer. -/
  | recFrameReceived (t : Nat) (dev : BitVec 6) (x : NodeItem)
  /-- NODE_PLACE (R320): The node watermark passes a queue head's FTBASE and the head places it in the node ring. -/
  | nodePlace (t : Nat)
  /-- NODE_ACK_RECEIVED (R319): A member receives the head's acknowledgement and advances its node-head cursor. -/
  | nodeAckReceived (t : Nat) (jidx : Nat)
  /-- BOUNDARY_REPORT (R328): A member's boundary report updates the expected epoch or sets PLANDIFF. `kind`: 0 COMMIT, 1 ROLLBACK, 2 RESTART, 3 the outcome of a node commit. -/
  | boundaryReport (t : Nat) (dev : BitVec 6) (kind : BitVec 2) (epoch : BitVec 32)
  /-- NODE_SNAPSHOT (R323): KX_SYN_NCMD SNAPSHOT on the head schedules a node snapshot on every member. -/
  | nodeSnapshot (t : Nat) (port : Port)
  /-- NODE_COMMIT (R324): KX_SYN_NCMD COMMIT on the head starts a node commit over register-path transactions. `parts`: the other members whose transaction belongs to a register path; `busy`: those that answer BUSY. -/
  | nodeCommit (t : Nat) (port : Port) (parts : BitVec 64) (busy : BitVec 64)
  /-- NODE_GO_DECISION (R325): At T - 10 us the head floods GO if all are ready, else ABORT with NOTREADY. -/
  | nodeGoDecision (t : Nat)
  /-- NODE_REPORT_DEADLINE (R325): At T + 10 us the head completes OK or orders a rollback at T + 20 us. `ok`: the outcome the head reports, at a participant that is not the head. -/
  | nodeReportDeadline (t : Nat) (ok : Bool)
  /-- NODE_ROLLBACK (R325): At T + 20 us every participant that swapped takes a rollback boundary. -/
  | nodeRollback (t : Nat)
  /-- NODE_QUERY_TIMEOUT (R330): A member that has not answered a node query within 1 ms is left out with MISSING. -/
  | nodeQueryTimeout (t : Nat) (id : Nat)
  /-- COLD_RESET (R334): PORST_N rises and the unit runs the cold start sequence to READY. -/
  | coldReset (t : Nat) (verA : Bool) (verB : Bool) (prevOk : Bool)
  /-- RST_N (R333): RST_N low for 20 samples starts a warm reset of the hub pair. -/
  | rstN (t : Nat)
  /-- WARMRST (R333): Writing KX_GLB_CTL.WARMRST starts a warm reset of the hub pair. -/
  | warmrst (t : Nat) (port : Port)
  /-- HUB_PAIR_RESUME (R337): A warm reset ends and the hub pair verifies firmware and restores its state in order. -/
  | hubPairResume (t : Nat) (verA : Bool) (verB : Bool) (prevOk : Bool)
  /-- STATION_RESET_ENTRY (R338): A station enters reset, closes its repeat run and curds and forfeits its grants. -/
  | stationResetEntry (t : Nat) (die : Fin 40)
  /-- STATION_RESET_EXIT (R338): A station leaves reset, restarts counters and acquires its servo. -/
  | stationResetExit (t : Nat) (die : Fin 40)
  /-- STATION_RELOAD (R338): The hub reloads a station's shadow, plan image, watches and levers before it offers records. -/
  | stationReload (t : Nat) (die : Fin 40)
  /-- PORT_A_RESET (R339): A Port A function reset stops DMA, stops contexts and releases the Port A lease. -/
  | portAReset (t : Nat)
  /-- PORT_B_RESET (R339): A Port B reset releases the Port B lease and resets its mailboxes. -/
  | portBReset (t : Nat)
  /-- JOB_RESTART_SIGNAL (R340): A rising edge on kx_job_restart sets a RESTART boundary 4 us ahead. -/
  | jobRestartSignal (t : Nat)
  /-- JOB_RESTART_BOUNDARY (R340): At the boundary curds close RESTART, EPOCH records and EPOCHEND captures follow and flows close. -/
  | jobRestartBoundary (t : Nat)
  /-- HEARTBEAT_TIMEOUT (R342): No peer-link traffic for 8 us and the standby declares the active hub failed. -/
  | heartbeatTimeout (t : Nat)
  /-- HUB_SELF_FAULT (R342): A fault indication from the active hub makes the standby declare a takeover. -/
  | hubSelfFault (t : Nat) (cause : BitVec 8)
  /-- SWITCH (R342): Writing KX_GLB_CTL.SWITCH by a lease holder starts a planned takeover. -/
  | switch (t : Nat) (port : Port)
  /-- FENCE_CONFIRM (R344): The fence is confirmed and the new active hub takes the roles and resumes. -/
  | fenceConfirm (t : Nat)
  /-- FENCE_TIMEOUT (R343): No fence confirmation in 20 us and the standby requests a reset of the failed hub's domain. -/
  | fenceTimeout (t : Nat)
  /-- HUB_REJOIN (R345): The failed hub instance boots and rejoins as standby once mirrored. -/
  | hubRejoin (t : Nat)
  /-- SERVICE_CORE_FAULT (R26): A service core faults and its duty moves to its backup. -/
  | serviceCoreFault (t : Nat) (core : Fin 8) (cause : BitVec 2) (mcause : BitVec 64) (mepc : BitVec 64)
  /-- CORE_HALT (R391): A debug write to KX_DBG_CTL.HALT halts or resumes service cores. -/
  | coreHalt (t : Nat) (port : Port) (value : Word)
  /-- CHANNEL_ERROR (R347): A channel error event is counted in its window and a retry starts. -/
  | channelError (t : Nat) (chan : BitVec 16)
  /-- CHANNEL_RETRY_RESULT (R348): A channel retry ends; a third failure retires the channel. -/
  | channelRetryResult (t : Nat) (chan : BitVec 16) (ok : Bool)
  /-- CHANNEL_WINDOW_CLOSE (R348): A 1 s channel window closes; the third consecutive hot window retires the channel. -/
  | channelWindowClose (t : Nat) (chan : BitVec 16)
  /-- CHANNEL_RESTORE (R351): Writing KX_GLB_CHCTL.RESTORE runs the channel's retry 16 times. -/
  | channelRestore (t : Nat) (port : Port)
  /-- CHANNEL_RESTORE_DONE (R351): The 16 restore retries end and the channel returns to ACTIVE or stays RETIRED. -/
  | channelRestoreDone (t : Nat) (chan : BitVec 16) (ok : Bool)
  /-- CHANNEL_RETIRE (R351): Writing KX_GLB_CHCTL.RETIRE retires the selected channel at once. -/
  | channelRetire (t : Nat) (port : Port)
  /-- SRAM_UNCORR (R353): An uncorrectable SRAM error writes a FAULT and takes the action of its SRAM. -/
  | sramUncorr (t : Nat) (sram : BitVec 8) (idx : Nat) (addr : BitVec 24)
  /-- OASIS_CLEAR (R356): Writing KX_OAS_CTL.CLEAR zeroes and unpins the selected Oasis. -/
  | oasisClear (t : Nat) (port : Port) (value : Word)
  /-- POWER_LOSS (R400): Core rails leave their range; the unit drives no pin and only retention content holds. -/
  | powerLoss (t : Nat)
  /-- STREAM_START (R364): Writing EN = 1 to KX_EGR_SCFG starts a Caravan stream with a new SESSION. -/
  | streamStart (t : Nat) (port : Port) (str : Fin 16) (value : Word)
  /-- STREAM_END (R369): Clearing a stream's EN sends END and drains until END is acknowledged or DEAD passes. -/
  | streamEnd (t : Nat) (port : Port) (str : Fin 16) (value : Word)
  /-- CARAVAN_SEND (R368): A stream sends its next CSN when the window and rate allow. -/
  | caravanSend (t : Nat) (str : Fin 16)
  /-- CARAVAN_ACK (R367): An ACK updates CUMCSN and WINDOW, advances the cursor and prompts resends. -/
  | caravanAck (t : Nat) (str : Fin 16) (session : BitVec 32) (cum : BitVec 64) (cumJ : BitVec 64) (window : BitVec 64) (bitmap : BitVec 256)
  /-- RETRANSMIT_TIMEOUT (R369): RTO us pass without an ACK covering a CSN and it is resent or a PROBE sent. -/
  | retransmitTimeout (t : Nat) (str : Fin 16) (csn : Nat)
  /-- STREAM_STALL (R369): No ACK for DEAD ms and the stream reads STALLED. -/
  | streamStall (t : Nat) (str : Fin 16)
  /-- EGRESS_FRAME_RX (R371): A received Ethernet frame is kept if it is a valid ACK or Neighbor Solicitation, else dropped. -/
  | egressFrameRx (t : Nat) (f : RxFrame)
  /-- NEIGHBOR_SOLICITATION (R359): A Neighbor Solicitation for the unit's address is answered with a Neighbor Advertisement. -/
  | neighborSolicitation (t : Nat) (target : BitVec 128)
  /-- SUBPORT_UP (R363): An egress sub-port comes up and each of its streams sends a PROBE and resumes. -/
  | subportUp (t : Nat) (sub : Fin 4)
  /-- PORT_RESTART (R362): A lane retirement or restore re-forms the egress port mode. -/
  | portRestart (t : Nat)
  /-- GRAY_ENABLE (R379): Writing GRAY_CFG.EN = 1 starts the raw stream at NOW with pointers at 0. -/
  | grayEnable (t : Nat) (port : Port) (value : Word)
  /-- GRAY_DISABLE (R379): Writing GRAY_CFG.EN = 0 stops placement after the curd in progress. -/
  | grayDisable (t : Nat) (port : Port) (value : Word)
  /-- GRAY_PLACE (R374): A raw-buffer curd write is confirmed by read-back and WPTR advances and is written back. -/
  | grayPlace (t : Nat)
  /-- GRAY_RPTR_WRITE (R375): A write to KX_GLB_GRAY_RPTR frees raw slots or sets PTRERR. -/
  | grayRptrWrite (t : Nat) (port : Port) (value : Word)
  /-- KXACC_ACCESS (R404): A KXACC Update-DR starts a debug-port register access with PK-read rights. -/
  | kxaccAccess (t : Nat) (op : BitVec 2) (off : BitVec 26) (data : Word)
  /-- TRIG_PPS_EDGE (R58): An edge on a TRIG pin set to PPS_IN2 is captured through the pin clock and validated as a second PPS source, possibly emitting an ANCHOR. -/
  | trigPpsEdge (t : Nat) (raw : Nat)
  /-- PORT_A_FATAL_ERROR (R262): A fatal uncorrectable error reported for the unit's function is an owner fault of the Port A lease, which is released automatically. -/
  | portAFatalError (t : Nat)
  /-- ROLLBACK_RECEIVED (R273): A station receives the ROLLBACK message and, if it arrives after T + 2 us, applies the boundary at the first die edge after its arrival. -/
  | rollbackReceived (t : Nat) (die : Fin 40)
  /-- SNAPSHOT_COMMAND_RECEIVED (R78): A station receives a snapshot ID and T and schedules its capture, or is listed missing if the command arrived after T. -/
  | snapshotCommandReceived (t : Nat) (die : Fin 40) (id : BitVec 32)
  /-- SYNC_LINK_LOSS (R315): A sync port loses its link because its peer or cable goes away, leaves UP and floods a beacon within 1 us. -/
  | syncLinkLoss (t : Nat) (port : Fin 3)
  /-- EGRESS_LINK_DOWN (R363): An egress sub-port's link goes down because of the peer or module, and its streams read DOWN or move to ALTPORT. -/
  | egressLinkDown (t : Nat) (sub : Fin 4)
  /-- STANDBY_HUB_LOSS (R138): The standby hub fails or leaves; STBYOK clears and internal sources admit without confirmation. -/
  | standbyHubLoss (t : Nat)
  /-- PORST_N_ASSERT (R333): PORST_N is driven low asynchronously; the unit stops, drives no pin, and ignores RST_N, WARMRST and integration inputs. -/
  | porstNAssert (t : Nat)
  /-- VBAT_POWER_ON (R55): VBAT comes up, the RTC registers reset with VBATLOW set, and the crystal oscillator starts within 1 s. -/
  | vbatPowerOn (t : Nat)
  /-- RETENTION_SUPPLY_LOSS (R400): VRET falls below 0.55 V and the retention-domain content, Oasis included, is lost. -/
  | retentionSupplyLoss (t : Nat)
  /-- TDI_STATE_CHANGE (R292): kx_tdi_state changes; TDIRUN follows and the T-bit rules for tenant doorbell pages and DMA are applied or dropped. -/
  | tdiStateChange (t : Nat) (st : TdiSt)
  /-- NOTICE_RESPONSE (R280): The Port B destination answers a NOTICE, which ends its resends and lets the next coalesced NOTICE for that source be sent. -/
  | noticeResponse (t : Nat) (src : Nat)
  /-- SKETCH_STREAM_BOUNDARY (R212): At a window boundary of its definition, an analysis slice sends its remaining level 0-2 items as a boundary partial and empties them. -/
  | sketchStreamBoundary (t : Nat) (die : Fin 40) (sl : Fin 4)
  /-- NODE_PREPARE_RECEIVED (R325): A node-commit participant receives the head's prepare, pins its lease and sends PREPARE for T to its stations. -/
  | nodePrepareReceived (t : Nat) (at_ : BitVec 64)
  /-- NODE_READY_RECEIVED (R325): The head receives a participant's READY for a node commit. -/
  | nodeReadyReceived (t : Nat) (dev : BitVec 6)
  /-- NODE_GO_RECEIVED (R325): A participant receives the flooded node GO or ABORT; GO lets it send station GO at T - 1 us, and ABORT leaves its transaction open. -/
  | nodeGoReceived (t : Nat) (go : Bool)
  /-- NODE_SWAP_REPORT_RECEIVED (R325): The head receives a participant's SWAPPED, SWAPMISS or NOGO report. `kind`: 0 SWAPPED, 1 SWAPMISS, 2 NOGO, 3 BUSY or the refusal of a node snapshot. -/
  | nodeSwapReportReceived (t : Nat) (dev : BitVec 6) (kind : BitVec 2)
  /-- NODE_SNAPSHOT_RECEIVED (R323): A member receives a node snapshot's T and ID and applies R77 locally, refusing or scheduling it. -/
  | nodeSnapshotReceived (t : Nat) (at_ : BitVec 64) (id : BitVec 32)
  /-- NODE_QUERY_RECEIVED (R330): The head, or a member, receives a forwarded NODE-scope query and answers it locally. -/
  | nodeQueryReceived (t : Nat) (dev : BitVec 6) (a : QueryArgs)
  /-- NODE_QUERY_ANSWER_RECEIVED (R330): The head receives a member's answer to a node query and merges it. -/
  | nodeQueryAnswerReceived (t : Nat) (id : Nat) (dev : BitVec 6) (ans : Answer)
  /-- NODE_PROGRESS_RECEIVED (R320): The head receives a member's progress frame and the node watermark may advance. -/
  | nodeProgressReceived (t : Nat) (dev : BitVec 6) (wm : BitVec 64)
  /-- NODE_STEP_RECEIVED (R312): A member receives the head's order of a forward step and schedules it for the named instant. -/
  | nodeStepReceived (t : Nat) (at_ : BitVec 64) (ticks : BitVec 64)
  deriving DecidableEq, Repr

end Sys2Proof
end

