-- ==== Sys2Proof/Decode.lean ====
section
/-!
DEFINITION. The decoder. The operations table of the specification gives no row any bits: the unit is not a processor, it
fetches nothing, and its operations come as register accesses, messages and events. So no word spells a command.
-/

namespace Sys2Proof

/-- The command that a word spells by the table's bits: no row has bits, so none. -/
def decodeTableWord (_nbits _w : Nat) : Option Instr := none

end Sys2Proof
end

