-- ==== Sys2Proof/Config.lean ====
section
/-!
DEFINITION. What the specification leaves to no value: the free values the model draws, and the cryptographic functions
that it names and does not spell out. None has a body, so no proof can rest on what one of them is.
-/

namespace Sys2Proof.Config

/-- FREE VALUE. The n-th 64-bit value that the specification leaves open; `State.free` counts those drawn
(log entry 6). -/
opaque freeValue : Nat → BitVec 64

/-- FREE VALUE. A private key drawn from `kx_entropy` (12_isolation R297), by the same count. -/
opaque freeKey : Nat → BitVec 384

/-- SHA-384 of a byte string (05_records R125, 12_isolation R295). Not spelled out by the specification. -/
opaque sha384 : List Byte → BitVec 384

/-- The public point of a private key, X then Y (12_isolation R297). The Bool chooses P-256 over P-384. -/
opaque pubKey : Bool → BitVec 384 → BitVec 384 × BitVec 384

/-- ECDH shared secret of a private key with a point; none when the point is not on the curve (12_isolation R298). -/
opaque ecdh : Bool → BitVec 384 → BitVec 384 × BitVec 384 → Option (BitVec 384)

/-- ECDSA signature r, s of a digest under a private key, with the count of free values used for its nonce
(12_isolation R300). -/
opaque ecdsa : Bool → BitVec 384 → BitVec 384 → Nat → BitVec 384 × BitVec 384

/-- AES-256-GCM ciphertext of a byte string that begins at a byte offset of the plaintext, under a key and an IV
(08_tensor R199, R201). -/
opaque aesGcm : BitVec 256 → BitVec 96 → Nat → List Byte → List Byte

/-- The AES-256-GCM tag over additional data and a plaintext, under a key and an IV (08_tensor R199). -/
opaque aesTag : BitVec 256 → BitVec 96 → List Byte → List Byte → BitVec 128

/-- The measurement of a firmware image (12_isolation R296). -/
opaque measure : List Byte → BitVec 384

/-- Whether a staged image has a well-formed header and a signature that verifies (12_isolation R296); the header's layout is not
spelled out by the specification. -/
opaque fwSigOk : List Byte → Bool

/-- The SVN in a staged image's header (12_isolation R296). -/
opaque fwSvn : List Byte → Nat

/-- The version in a staged image (11_management Table 11.10). -/
opaque fwVersion : List Byte → BitVec 32

/-- FREE VALUE. The error of the RTC's crystal in ns, a number of ticks after the last load or trim (02_fabric_time Table 2.9). -/
opaque crystalError : Nat → BitVec 32

/-- FREE VALUE. The stored windows that a Churn region of so many GiB has room for (09_churn R224). -/
opaque histRoom : Nat → Nat

/-- The endpoint's UUID (11_management Table 11.7), which the specification gives no value. -/
opaque uuid : BitVec 128

end Sys2Proof.Config
end

