-- ==== Sys2Proof/Machine/State.lean ====
section
/-!
DEFINITION. The state of the unit as plain data, the reasons a command can stop, and the state after reset.
Every field's default is its value at reset.
-/

namespace Sys2Proof.Machine

/-- A marker whose extra beats are still arriving at a tap (R88, R406). -/
structure MkIn where
  /-- Tap index (01_unit_anatomy R16). -/
  tap : Nat := 0
  /-- Port field of beat 0 (04_markers R87). -/
  port : BitVec 5 := 0
  /-- Sequence number of the admitted MARK record; none when it was not admitted (04_markers R406). -/
  seq : Option Nat := none
  /-- Slice of the tap (01_unit_anatomy R16). -/
  slice : Nat := 0
  /-- Privilege presented with beat 0 (03_counters R62). -/
  p1 : Bool := false
  /-- Beats so far (04_markers R88). -/
  beats : List (BitVec 128) := []
  /-- Extra beats still expected (04_markers R88). -/
  need : Nat := 0
  /-- Funnel entry of a marker that may still prove a repeat (04_markers R92). -/
  entry : Option Nat := none
  /-- Presentation of beat 0 (04_markers R406). -/
  t0 : Nat := 0
  deriving DecidableEq, Repr

/-- An entry of a slice marker queue (R91). -/
structure QEnt where
  /-- Slice (04_markers R91). -/
  slice : Nat := 0
  /-- Record whose place it fills (04_markers R91). -/
  seq : Nat := 0
  /-- Next beat number to drain (04_markers R405). -/
  idx : Nat := 0
  /-- Beats waiting (04_markers R91). -/
  beats : List (BitVec 128) := []
  /-- Beats that have not arrived (queue space is held for them) (04_markers R406). -/
  left : Nat := 0
  deriving DecidableEq, Repr

/-- An open repeat run (R92). -/
structure RptRun where
  /-- Repeats covered (04_markers R92). -/
  count : Nat := 0
  /-- FT of the first repeat (04_markers R92). -/
  first : Nat := 0
  /-- FT of the last repeat (04_markers R92). -/
  last : Nat := 0
  deriving DecidableEq, Repr

/-- The reference marker of a funnel entry (R92, R94). -/
structure MkRef where
  /-- Source ID (04_markers R92). -/
  src : BitVec 16 := 0
  /-- Privilege (04_markers R92). -/
  p1 : Bool := false
  /-- Beats compared (CODE, XB and payload) (04_markers R92). -/
  beats : List (BitVec 128) := []
  /-- Open run (04_markers R92). -/
  run : Option RptRun := none
  deriving DecidableEq, Repr

/-- A stall-on-full hold of a marker or flow-event port (R97, R98). -/
structure Hold where
  /-- Tap (04_markers R97). -/
  tap : Nat := 0
  /-- True: flow-event port (04_markers R98). -/
  flow : Bool := false
  /-- FT at which the hold began (04_markers R97). -/
  since : Nat := 0
  /-- Source ID (04_markers R98). -/
  src : BitVec 16 := 0
  /-- Funnel entry (04_markers R97). -/
  entry : Nat := 0
  /-- Privilege of the held observation (03_counters R62). -/
  p1 : Bool := false
  /-- Beat 0 of the marker, or handle, code and argument of the flow event (04_markers R97). -/
  data : BitVec 128 := 0
  /-- Ticks of the die cycle it was first presented in (03_counters R67). -/
  cyc : Nat := 0
  deriving DecidableEq, Repr

/-- A TIME increment whose die cycle has not ended (R67, R73). -/
structure TimePend where
  /-- Counter: k, or 256 + j for AOj (03_counters R67). -/
  key : Nat := 0
  /-- EVENT increment multiplied by the ticks (03_counters R67). -/
  mult : Nat := 0
  /-- Edge the cycle began at (03_counters R67). -/
  edge : Nat := 0
  /-- Ticks of the cycle not yet assigned (03_counters R67). -/
  cyc : Nat := 0
  deriving DecidableEq, Repr

/-- A capture bank (R72-R74). -/
structure Bank where
  /-- PERIODIC, AO, SNAP, EPOCHEND, as TFLAGS [7:4] (03_counters Table 3.11). -/
  kinds : BitVec 4 := 0
  /-- Snapshot ID (03_counters R77). -/
  snapId : BitVec 32 := 0
  /-- Copy edge (03_counters R73). -/
  at_ : Nat := 0
  /-- Its CNT records (03_counters R74). -/
  seqs : List Nat := []
  /-- Its CNT records formed at the copy edge, until they are admitted (03_counters R74). -/
  recs : List Record := []
  deriving DecidableEq, Repr

/-- A pending GAP count of one (SRC, LKIND, CAUSE) triple (R128). -/
structure GapAcc where
  /-- Source (05_records Table 5.10). -/
  src : BitVec 16 := 0
  /-- Kind of record lost (05_records Table 5.10). -/
  lkind : BitVec 4 := 0
  /-- Cause (05_records Table 5.10). -/
  cause : BitVec 4 := 0
  /-- Records lost (05_records R128). -/
  count : Nat := 0
  /-- First lost sequence number (05_records R128). -/
  first : Nat := 0
  /-- Last lost sequence number (05_records R128). -/
  last : Nat := 0
  /-- FT of the first loss counted (05_records R128). -/
  since : Nat := 0
  /-- Losses of the epoch before (05_records R128). -/
  prior : Bool := false
  /-- Due and not yet stored (05_records R128). -/
  due : Bool := false
  deriving DecidableEq, Repr

/-- A closed curd in a station record buffer (R131). -/
structure Held where
  /-- The curd (01_unit_anatomy R21). -/
  curd : Curd := {}
  /-- UNSENT, SENT or ACKED (06_admission R131). -/
  st : CurdSt := .unsent
  /-- FT at which its last beat left (06_admission R131). -/
  sentAt : Nat := 0
  /-- Resends made (06_admission R131). -/
  resends : Nat := 0
  /-- Sent at least once: a further send is a resend, which AO47 counts (06_admission R131). -/
  again : Bool := false
  /-- The eighth resend went unanswered and was reported (06_admission R131). -/
  told : Bool := false
  deriving DecidableEq, Repr

/-- The trigger sequencer of a station (R101, R102). -/
structure SeqState where
  /-- Present state (04_markers R101). -/
  cur : BitVec 3 := 0
  /-- Occurrence counter 0 (04_markers R102). -/
  oc0 : Nat := 0
  /-- Occurrence counter 1 (04_markers R102). -/
  oc1 : Nat := 0
  /-- Occurrence counter 0 done input (04_markers R102). -/
  done0 : Bool := false
  /-- Occurrence counter 1 done input (04_markers R102). -/
  done1 : Bool := false
  /-- Timer done input (04_markers R102). -/
  tmrDone : Bool := false
  /-- FT at which the timer completes; none: stopped (04_markers R102). -/
  tmr : Option Nat := none
  deriving DecidableEq, Repr

/-- One port's share of an open BW window (R79). -/
structure BwPort where
  /-- Station port index (03_counters R79). -/
  port : Nat := 0
  /-- Start of the window the bytes and ticks belong to (03_counters R79). -/
  start : Nat := 0
  /-- RX bytes (03_counters R79). -/
  rx : Nat := 0
  /-- TX bytes (03_counters R79). -/
  tx : Nat := 0
  /-- Active ticks (03_counters R79). -/
  act : Nat := 0
  /-- Largest 1 us RX + TX (03_counters R79). -/
  peak : Nat := 0
  /-- RX + TX of the present 1 us sub-window (03_counters R79). -/
  sub : Nat := 0
  /-- Start of the present sub-window (03_counters R79). -/
  subAt : Nat := 0
  deriving DecidableEq, Repr

/-- A quantile sketch (R210). -/
structure Sketch where
  /-- Levels (09_churn R210). -/
  lvls : List (List Nat) := []
  /-- Parity bits (09_churn R210). -/
  pars : List Bool := []
  /-- OVER (09_churn R210). -/
  over_ : Bool := false
  /-- Inputs offered (09_churn R210). -/
  count : Nat := 0
  /-- Least input taken (09_churn Table 9.3). -/
  min : Nat := 0
  /-- Greatest input taken (09_churn Table 9.3). -/
  max : Nat := 0
  deriving DecidableEq, Repr

/-- A station sketch stream: levels 0-2 of an analysis slice, and the retirement taken in the present die cycle (R212). -/
structure SkStream where
  /-- Items of levels 0 to 2, inputs since the last message (09_churn R212). -/
  sk : Sketch := {}
  /-- Engine after the one last taken (rotating order) (09_churn R212). -/
  rot : Nat := 0
  /-- Die edge, engine and LAT of the retirement taken in the present die cycle (09_churn R212). -/
  cand : Option (Nat × Nat × Nat) := none
  /-- Open window: the definition fed, and its start (09_churn R212). -/
  win : Option (Nat × Nat) := none
  /-- End of the last window whose boundary partial was sent (09_churn R212). -/
  sent : Nat := 0
  /-- A retirement was skipped since the last message (09_churn Table 9.3). -/
  skip : Bool := false
  deriving DecidableEq, Repr

/-- A partial message of a station sketch stream (R212). -/
structure Partial where
  /-- Analysis slice (09_churn R212). -/
  sl : Nat := 0
  /-- Definition fed (09_churn R212). -/
  dfn : Nat := 0
  /-- Sent at a window boundary (09_churn R212). -/
  boundary : Bool := false
  /-- Window start (09_churn R212). -/
  start : Nat := 0
  /-- Window end (09_churn R212). -/
  stop : Nat := 0
  /-- Items by level (09_churn R212). -/
  lvls : List (List Nat) := []
  /-- Inputs since the last message (09_churn R212). -/
  count : Nat := 0
  /-- Least of them (09_churn Table 9.3). -/
  min : Nat := 0
  /-- Greatest of them (09_churn Table 9.3). -/
  max : Nat := 0
  /-- A retirement was skipped (09_churn Table 9.3). -/
  skip : Bool := false
  /-- Curds closed before it, which go ahead of it on the link: reserve, FIRSTSEQ (09_churn R212). -/
  behind : List (Bool × Nat) := []
  deriving DecidableEq, Repr

/-- A captured burst's segment in one stream (R200). -/
structure Seg where
  /-- Stream (08_tensor R200). -/
  acc : Nat := 0
  /-- Burst index in the stream (08_tensor Table 8.6). -/
  idx : Nat := 0
  /-- Byte offset of the segment (08_tensor R201). -/
  off : Nat := 0
  /-- Its TCAP records (08_tensor R201). -/
  seqs : List Nat := []
  deriving DecidableEq, Repr

/-- A burst queued for the tensor reader (R192). -/
structure Burst where
  /-- Number of the burst at its station (08_tensor R192). -/
  id : Nat := 0
  /-- Tap (08_tensor R200). -/
  engine : Nat := 0
  /-- Write address (08_tensor R187). -/
  addr : Nat := 0
  /-- Burst bytes (08_tensor R187). -/
  len : Nat := 0
  /-- Presentation (08_tensor R192). -/
  at_ : Nat := 0
  /-- Accumulations and streams that wait for its data, and whether the burst is one of their scale tensor (08_tensor R192, R196). -/
  accs : List (Nat × Bool) := []
  /-- FT at which the last of its read requests leaves the read leg, under RDB (08_tensor R192, R202). -/
  issueAt : Nat := 0
  /-- Its segments (08_tensor R200). -/
  segs : List Seg := []
  deriving DecidableEq, Repr

/-- The statistics of an accumulation (R196). -/
structure Stats where
  /-- NELEM (08_tensor R196). -/
  nelem : Nat := 0
  /-- ZERO (08_tensor R196). -/
  zero : Nat := 0
  /-- SUBN (08_tensor R196). -/
  subn : Nat := 0
  /-- NAN (08_tensor R196). -/
  nan : Nat := 0
  /-- INF (08_tensor R196). -/
  inf : Nat := 0
  /-- SAT (08_tensor R196). -/
  sat : Nat := 0
  /-- FLUSH (08_tensor R196). -/
  flush : Nat := 0
  /-- EXPH, by bin (08_tensor R196). -/
  exph : List (Nat × Nat) := []
  /-- BSH, by bin (08_tensor R196). -/
  bsh : List (Nat × Nat) := []
  deriving DecidableEq, Repr

/-- An accumulation or capture stream, open or waiting for its last reads (R191). -/
structure Accum where
  /-- Its number at the station (08_tensor R191). -/
  id : Nat := 0
  /-- Watch (08_tensor R191). -/
  wid : Nat := 0
  /-- Step (08_tensor R191). -/
  step : BitVec 32 := 0
  /-- Presentation of the opening burst (08_tensor R197). -/
  first : Nat := 0
  /-- Last burst or end tag, for IDLE (08_tensor R195). -/
  last : Nat := 0
  /-- Contributors: engine, and whether of the scale tensor (08_tensor R191). -/
  contrib : List (Nat × Bool) := []
  /-- Contributors whose end tag has been presented (08_tensor R195). -/
  ended : List (Nat × Bool) := []
  /-- Statistics (08_tensor R196). -/
  stats : Stats := {}
  /-- Element bytes of the bursts read, by burst, for MIN, MAX and L2 (08_tensor R196). -/
  vals : List (Nat × List Byte) := []
  /-- Next CHUNK (08_tensor R201). -/
  chunk : Nat := 0
  /-- Next OFFSET (08_tensor R201). -/
  offset : Nat := 0
  /-- Burst index of the stream (08_tensor R200). -/
  nburst : Nat := 0
  /-- Bursts presented after the CAPMAX limit (08_tensor R200). -/
  past : Nat := 0
  /-- Plaintext by offset (08_tensor R200). -/
  plain : List (Nat × List Byte) := []
  /-- Cause of the close; none while open (08_tensor R195). -/
  cause : Option Nat := none
  /-- TSTAT records to be written (08_tensor R197). -/
  recs : List Nat := []
  /-- LASTC record to be written (08_tensor R201). -/
  lastc : Option Nat := none
  /-- Closed at this edge, its LASTC record still to be admitted after the TSTAT records of the edge (08_tensor R201). -/
  lastDue : Bool := false
  /-- Key and IV, which the station zeroes at the close once the last segment and the tag are formed (08_tensor R199). -/
  okm : BitVec 352 := 0
  deriving DecidableEq, Repr

/-- An ordered lever change not yet in force (R86, R155). -/
structure LevPend where
  /-- Lever code (06_admission Table 6.5). -/
  lever : Nat := 0
  /-- Analysis slice for BW (05_records Table 5.9). -/
  idx : Nat := 0
  /-- New setting (05_records Table 5.9). -/
  new : Nat := 0
  /-- EFFECT (05_records Table 5.9). -/
  eff : Nat := 0
  /-- Its SKIM record is admitted when it is applied (06_admission R155). -/
  late : Bool := false
  /-- OFFERED of its record, MB/s (06_admission R156). -/
  offered : Nat := 0
  /-- BUDGET of its record, MB/s (06_admission R156). -/
  budget : Nat := 0
  deriving DecidableEq, Repr

/-- Pacing at a unit (R154). -/
structure Pacer where
  /-- Pacing in force at the unit (06_admission R154). -/
  on : Bool := false
  /-- Allowance, bytes per window (06_admission R154). -/
  allow : Nat := 0
  /-- Allowance before the backlog is subtracted (06_admission R154). -/
  base : Nat := 0
  /-- Tokens, in 1/80,000 byte (06_admission R154). -/
  tok : Nat := 0
  /-- Instant the tokens were last counted (06_admission R154). -/
  at_ : Nat := 0
  /-- Pacing from the next window: an allowance, or off (06_admission R152). -/
  next : Option (Option Nat) := none
  /-- Last allowance the hub computed for the unit (06_admission R155). -/
  level : Nat := 0
  deriving DecidableEq, Repr

/-- Bytes offered in a window, by kind (R152). -/
structure Offer where
  /-- PCS (06_admission R152). -/
  pcs : Nat := 0
  /-- Periodic CNT (06_admission R152). -/
  cnt : Nat := 0
  /-- Station BW (06_admission R152). -/
  bw : Nat := 0
  /-- Hub-level BW and SKETCH (06_admission R152). -/
  hub : Nat := 0
  /-- TSTAT and TCAP (06_admission R152). -/
  tw : Nat := 0
  /-- Other (06_admission R152). -/
  other : Nat := 0
  /-- Bytes refused under pacing (06_admission R152). -/
  refused : Nat := 0
  /-- Stall-on-full hold time, ticks (06_admission R152). -/
  stall : Nat := 0
  /-- Tensor-read bytes (08_tensor R202). -/
  reads : Nat := 0
  deriving DecidableEq, Repr

/-- The FT servo of a station or of a device master (R43, R44). -/
structure Servo where
  /-- OFF, ACQUIRE, LOCKED, HOLDOVER, DRIFT (02_fabric_time Table 2.1). -/
  st : BitVec 3 := 0
  /-- Master minus copy, ticks (02_fabric_time R40). -/
  off : Int := 0
  /-- Request out (02_fabric_time R43). -/
  t1 : Option Nat := none
  /-- Reply under way: t2, t3 (02_fabric_time R43). -/
  t23 : Option (Nat × Nat) := none
  /-- Exchanges completed in the group: round trip, offset in half ticks, delay (02_fabric_time R43). -/
  group : List (Nat × Int × Nat) := []
  /-- The initial step of ACQUIRE is done (02_fabric_time R40). -/
  stepped : Bool := false
  /-- Gain 1/2 (02_fabric_time R44). -/
  high : Bool := true
  /-- Consecutive selected offsets within 1 tick (02_fabric_time R44). -/
  near : Nat := 0
  /-- Consecutive selected offsets beyond 2 ticks (02_fabric_time R44). -/
  far : Nat := 0
  /-- Consecutive selections within 2 ticks in HOLDOVER or DRIFT (02_fabric_time R44). -/
  back : Nat := 0
  /-- Correction accumulator, 1/128 tick (02_fabric_time R44). -/
  acc : Int := 0
  /-- Whole ticks still to be slewed (02_fabric_time R40). -/
  slew : Int := 0
  /-- Master FT at which the present slew began (02_fabric_time R40). -/
  slewAt : Nat := 0
  /-- Last selected offset, half ticks (02_fabric_time R43). -/
  resid : Int := 0
  /-- Last selected delay, ticks (02_fabric_time R43). -/
  delay : Nat := 0
  /-- Traffic on the alternate route (02_fabric_time Table 2.4). -/
  alt : Bool := false
  /-- Entry into HOLDOVER (02_fabric_time R45). -/
  since : Nat := 0
  /-- The slot after that of the last exchange: its number of the copy's FT / 8,000, plus one (02_fabric_time R43). -/
  slot : Nat := 0
  /-- The group that runs: its number of the copy's FT / 64,000 (02_fabric_time R43). -/
  grp : Nat := 0
  deriving DecidableEq, Repr

/-- One station (R1, Table 1.2). -/
structure Stn where
  /-- Station in reset (powered up in reset; leaves it at cold start) (14_startup R338). -/
  inReset : Bool := true
  /-- Its own reset sequence runs: a HOLD bit cleared meanwhile does not release it (17_setup Table 17.4). -/
  own : Bool := false
  /-- FT servo (02_fabric_time R43). -/
  servo : Servo := {}
  /-- Device time state last forwarded (02_fabric_time R54). -/
  devTq : BitVec 2 := 0
  /-- EPOCH START admitted since reset (05_records R129). -/
  offering : Bool := false
  /-- The hub has reloaded the station since its reset (14_startup R338). -/
  reload : Bool := false
  /-- FT at which its servo last left ACQUIRE for LOCKED (08_tensor R203). -/
  lockAt : Nat := 0
  /-- Last PERIODIC TSYNC (02_fabric_time R51). -/
  tsyncAt : Nat := 0
  /-- Next record sequence number (retention) (05_records R120). -/
  seq : Nat := 0
  /-- Plan epoch in force (05_records R129). -/
  epoch : BitVec 32 := 0
  /-- Open curd (retention) (01_unit_anatomy R21). -/
  cur : Option Curd := none
  /-- Open reserve curd (retention) (05_records R119). -/
  rsv : Option Curd := none
  /-- A slot is designated as the reserve (05_records R119). -/
  rsvOk : Bool := true
  /-- Closed curds (retention) (01_unit_anatomy R21). -/
  closed : List Held := []
  /-- Pending GAP counts (05_records R128). -/
  gaps : List GapAcc := []
  /-- A NO_BUFFER answer is outstanding (06_admission R136). -/
  noBuf : Bool := false
  /-- Markers arriving (04_markers R88). -/
  mkIn : List MkIn := []
  /-- Slice marker queues (04_markers R91). -/
  queue : List QEnt := []
  /-- Reference markers by funnel entry (04_markers R92). -/
  refs : List (Nat × MkRef) := []
  /-- Holds in progress (04_markers R97). -/
  holds : List Hold := []
  /-- Disarmed funnel entries, and 64 + tap for flow ports, each with the slice of the tap whose hold timed out (04_markers R97). -/
  disarm : List (Nat × Nat) := []
  /-- Per slice: die edge and flow events taken at it (07_sequence_ledger R161). -/
  flowAt : List (Nat × Nat × Nat) := []
  /-- Issue table: 16 x tap + index, command index, issue FT (03_counters R80). -/
  issue : List (Nat × BitVec 32 × Nat) := []
  /-- Event lines at the last sample, by tap (03_counters R67). -/
  prev : SMap (BitVec 64) := []
  /-- RX + TX of the present cycle, by port (04_markers R99). -/
  pbytes : SMap Nat := []
  /-- Programmable counters (03_counters R67). -/
  cnt : SMap Nat := []
  /-- Always-on counters (03_counters R69). -/
  ao : SMap Nat := []
  /-- Counters that wrapped since their previous capture (03_counters R74). -/
  wrap : List Nat := []
  /-- Counters captured since they last started from zero; the others carry RESET (03_counters R74). -/
  seen : List Nat := []
  /-- TIME increments of unfinished cycles (03_counters R67). -/
  pend : List TimePend := []
  /-- Restore registers of the counters that changed at the swap (03_counters R76). -/
  saved : Option (SMap Nat) := none
  /-- Port A high-half latch: counter, bits [47:32] (03_counters R70). -/
  latchA : Option (Nat × BitVec 16) := none
  /-- Port B high-half latch (03_counters R70). -/
  latchB : Option (Nat × BitVec 16) := none
  /-- Port A staging (03_counters R71). -/
  stageA : SMap (BitVec 16) := []
  /-- Port B staging (03_counters R71). -/
  stageB : SMap (BitVec 16) := []
  /-- Capture banks in use (03_counters R72). -/
  banks : List Bank := []
  /-- Next CNT records carry SKIP (03_counters R75). -/
  skip : Bool := false
  /-- Last capture instant (03_counters R72). -/
  lastCap : Nat := 0
  /-- Snapshots scheduled at the station: ID, T (03_counters R77). -/
  snaps : List (BitVec 32 × Nat) := []
  /-- Sampler countdown (03_counters R81). -/
  pcs : Nat := 0
  /-- Exponent the present interval was loaded under (03_counters R82). -/
  pcsN : Nat := 8
  /-- Sampler LFSR (03_counters R81). -/
  lfsr : BitVec 32 := 1
  /-- Slice and die edge of the last stored sample (03_counters R83). -/
  pcsAt : Option (Nat × Nat) := none
  /-- Comparators true in the present die cycle (04_markers R99). -/
  cmpIn : BitVec 16 := 0
  /-- Comparators of counters that a TIME increment or a write took past VAL, for the next die cycle (04_markers Table 4.7). -/
  late : BitVec 16 := 0
  /-- Mesh lines that arrived in the present die cycle (04_markers R101). -/
  meshIn : BitVec 8 := 0
  /-- The present die cycle (04_markers R103). -/
  inAt : Nat := 0
  /-- Trigger sequencer (04_markers R101). -/
  seqr : SeqState := {}
  /-- Sequencer at the swap, for a rollback (04_markers R105). -/
  seqrSaved : Option SeqState := none
  /-- Open BW windows (03_counters R79). -/
  bw : List BwPort := []
  /-- Start of each analysis slice's open window (03_counters R79). -/
  bwAt : SMap Nat := []
  /-- Sketch streams (09_churn R212). -/
  sk : SMap SkStream := []
  /-- Partial messages on their way to the hub (09_churn R212). -/
  parts : List Partial := []
  /-- Watches in effect at the station (08_tensor R190). -/
  armed : List Nat := []
  /-- Accumulations and streams, open or waiting for their last reads (08_tensor R191). -/
  accs : List Accum := []
  /-- Tensor reader queue (08_tensor R192). -/
  bursts : List Burst := []
  /-- Number of the next burst (08_tensor R192). -/
  nburst : Nat := 0
  /-- Skim shift of the CNT interval (03_counters R86). -/
  levCnt : Nat := 0
  /-- Skim shift of the BW windows (03_counters R86). -/
  levBw : SMap Nat := []
  /-- Skim's divisor exponent; none: the plan's (03_counters R86). -/
  levPcs : Option Nat := none
  /-- Stall-on-full suspended (lever 0x04) (06_admission R157). -/
  susp : Bool := false
  /-- Tensor capture deferred (lever 0x08) (08_tensor R202). -/
  defer : Bool := false
  /-- Lever changes held at the station for their EFFECT (06_admission R155). -/
  levs : List LevPend := []
  /-- Pacing (06_admission R154). -/
  pace : Pacer := {}
  /-- Offer of the present window (06_admission R152). -/
  offer : Offer := {}
  /-- Report of the window just ended, on its way (06_admission R152). -/
  offerDone : Option Offer := none
  /-- Progress messages under way: P, and the curds closed before and not yet accepted (RSV, FIRSTSEQ) (07_sequence_ledger R165). -/
  prog : List (Nat × List (Bool × Nat)) := []
  /-- FT at which the last progress message was sent (07_sequence_ledger R165). -/
  progAt : Option Nat := none
  /-- Curds on the link to the hub, oldest first, each with the resend requests the station had received as it began to send it (01_unit_anatomy R24). -/
  link : List (Curd × Nat) := []
  /-- Resend requests received (06_admission R133). -/
  reqs : Nat := 0
  /-- PREPARE held: T (11_management R271). -/
  prep : Option Nat := none
  /-- GO held: T (11_management R272). -/
  go : Option Nat := none
  /-- The image and epoch before the swap, for a rollback (11_management R273). -/
  prior : Option (SMap (BitVec 32) × BitVec 32) := none
  /-- Rollback instant received (11_management R273). -/
  rbAt : Option Nat := none
  /-- STALL records waiting for the next reserve curd (05_records R119). -/
  rsvWait : List Record := []
  /-- Occurrence counter 0 input true in the present die cycle (04_markers R102). -/
  ocHit0 : Bool := false
  /-- Occurrence counter 1 input true in the present die cycle (04_markers R102). -/
  ocHit1 : Bool := false
  /-- Latest capture instant taken or skipped (03_counters R75). -/
  lastTry : Nat := 0
  /-- FT at which the first record of the open curd was written (01_unit_anatomy R22). -/
  curAt : Nat := 0
  /-- FT at which the first record of the open reserve curd was written (01_unit_anatomy R22). -/
  rsvAt : Nat := 0
  /-- Length of the latest die cycle presented, in ticks; 10 until one is (03_counters R67, log entry 47). -/
  cyc : Nat := 10
  /-- Increments of each programmable counter in the present die cycle (00_scope R14, 03_counters R71). -/
  incs : SMap Nat := []
  /-- Counters that software loaded in the present die cycle: counter, value before, value written (00_scope R14). -/
  loads : List (Nat × Nat × Nat) := []
  /-- Mesh events on their way through the station's synchroniser: instant of delivery, lines (04_markers R107). -/
  meshQ : List (Nat × BitVec 8) := []
  /-- Keys and IVs of the captures armed at the station, by WID (08_tensor R199). -/
  keys : SMap (BitVec 352) := []
  /-- FT at which the tensor reader has issued the reads it holds (08_tensor R202). -/
  rdFree : Nat := 0
  deriving DecidableEq, Repr

/-- One hub internal source (R29, R137). -/
structure HubSrc where
  /-- Next record sequence number (retention) (05_records R120). -/
  seq : Nat := 0
  /-- Records formed, waiting for the standby's confirmation (06_admission R138). -/
  wait : List Record := []
  /-- The epoch of its curds: of source 0, the TO of its last EPOCH record (05_records R129). -/
  epoch : BitVec 32 := 0
  /-- Curd being assembled (06_admission R137). -/
  cur : Option Curd := none
  /-- FT at which the first record of the curd being assembled was written (01_unit_anatomy R22). -/
  curAt : Nat := 0
  /-- Closed assembly buffers waiting for a grant (06_admission R137). -/
  full : List Curd := []
  /-- Records the standby holds until they are accepted (06_admission R138). -/
  unacc : List Record := []
  /-- Pending GAP counts (06_admission R137). -/
  gaps : List GapAcc := []
  /-- Pacing (06_admission R154). -/
  pace : Pacer := {}
  /-- Offer of the present window (06_admission R152). -/
  offer : Offer := {}
  /-- Report of the window just ended (06_admission R152). -/
  offerDone : Option Offer := none
  /-- Lever changes held for their EFFECT (06_admission R155). -/
  levs : List LevPend := []
  deriving DecidableEq, Repr

/-- A used buffer of the ingest pool (R134). -/
structure PoolEnt where
  /-- Requester (06_admission R134). -/
  req : Nat := 0
  /-- Curd held (06_admission R134). -/
  curd : Curd := {}
  /-- Journal index once taken (06_admission R141). -/
  jidx : Option Nat := none
  /-- FT of the acceptance (06_admission R134). -/
  accAt : Option Nat := none
  deriving DecidableEq, Repr

/-- A journal write in progress (R141). -/
structure JWrite where
  /-- Journal index (06_admission R141). -/
  jidx : Nat := 0
  /-- Curd (06_admission R141). -/
  curd : Curd := {}
  /-- FT of the request (01_unit_anatomy R28). -/
  at_ : Nat := 0
  /-- Both copies hold it, and no hub was there to accept it (06_admission R140). -/
  done : Bool := false
  deriving DecidableEq, Repr

/-- A slot below WIDX that a failure cut off, with the curd that is written to it again (06_admission R140). -/
structure Hole where
  /-- Journal index (06_admission R140). -/
  jidx : Nat := 0
  /-- Requester of the curd (06_admission R134). -/
  unit : Nat := 0
  /-- Reserve curd (05_records R119). -/
  rsv : Bool := false
  /-- FIRSTSEQ (06_admission R132). -/
  first : Nat := 0
  deriving DecidableEq, Repr

/-- The ring state block of a context in a checkpoint (R243). -/
structure RingBlk where
  /-- STATE (10_contexts R243). -/
  st : BitVec 3 := 0
  /-- PERM (10_contexts R243). -/
  perm : BitVec 2 := 0
  /-- STALLP (10_contexts R243). -/
  stallp : Bool := false
  /-- RINGLOC (10_contexts R243). -/
  ringloc : Bool := false
  /-- PASIDEN (10_contexts R243). -/
  pasiden : Bool := false
  /-- PART (10_contexts R243). -/
  part : BitVec 8 := 0
  /-- SHARE (10_contexts R243). -/
  share : BitVec 8 := 0
  /-- NEXTSEQ (10_contexts R243). -/
  nextSeq : Nat := 0
  /-- Fetch index (10_contexts R243). -/
  fetch : Nat := 0
  /-- Completion producer index (10_contexts R243). -/
  cplPi : Nat := 0
  /-- Record producer indexes (10_contexts R243). -/
  recPi : List Nat := []
  deriving DecidableEq, Repr

/-- A journal checkpoint (R140). -/
structure Ckpt where
  /-- WIDX (06_admission R140). -/
  widx : Nat := 0
  /-- Last accepted FIRSTSEQ and its JIDX per unit and kind (2 x requester + RSV) (06_admission R140). -/
  recv : SMap (Nat × Nat) := []
  /-- Sink cursors (06_admission R140). -/
  cursors : List (Sink × Nat) := []
  /-- Ring state blocks (06_admission R140). -/
  rings : SMap RingBlk := []
  deriving DecidableEq, Repr

/-- The journal and the ingest pool (R134-R144). -/
structure Jrn where
  /-- Next JIDX (06_admission R139). -/
  widx : Nat := 0
  /-- Every index below it is accepted (06_admission R141). -/
  accTo : Nat := 0
  /-- Accepted indexes at or above accTo (06_admission R141). -/
  acc : List Nat := []
  /-- Journal contents by JIDX (06_admission R139). -/
  mem : List (Nat × Curd) := []
  /-- Writes in progress (06_admission R141). -/
  jobs : List JWrite := []
  /-- Token bucket, in units of 1/80,000 byte (06_admission R142). -/
  tok : Nat := 0
  /-- Instant the tokens were last counted (06_admission R142). -/
  tokAt : Nat := 0
  /-- Start of the unbroken wait for tokens (06_admission R154). -/
  fastAt : Option Nat := none
  /-- Filled buffers (06_admission R134). -/
  pool : List PoolEnt := []
  /-- Unfilled grants per requester (06_admission R134). -/
  grants : SMap Nat := []
  /-- Wait list (06_admission R135). -/
  wait : List Nat := []
  /-- Requester after the last one granted (06_admission R135). -/
  rr : Nat := 0
  /-- Highest FIRSTSEQ + 1 received, by 2 x requester + RSV (06_admission R132). -/
  recv : SMap Nat := []
  /-- Sequence number expected next from each unit (05_records R128). -/
  expect : SMap Nat := []
  /-- Resend requests sent to each station (05_records R124). -/
  reqs : SMap Nat := []
  /-- Stations whose curds are held after a failed CRC, with the number of the request that ends the hold (06_admission R133). -/
  crcHold : SMap Nat := []
  /-- Curds held after a failed CRC: station, curd (06_admission R133). -/
  held : List (Nat × Curd) := []
  /-- Next index to place in the sinks' queues (01_unit_anatomy R30). -/
  delivTo : Nat := 0
  /-- Retire notices sent, by requester, RSV, FIRSTSEQ (06_admission R132). -/
  retired : List (Nat × Bool × Nat) := []
  /-- Watermark at the acceptance of each index that held a record below it (07_sequence_ledger R169). -/
  lateAt : SMap Nat := []
  /-- Copy 0 lost (06_admission R143). -/
  lost0 : Bool := false
  /-- Copy 1 lost (06_admission R143). -/
  lost1 : Bool := false
  /-- The fallback region takes the lost copy's writes (06_admission R143). -/
  fallback : Bool := false
  /-- Fallback rebuild in progress (06_admission R143). -/
  rebuild : Bool := false
  /-- Newest checkpoint (06_admission R140). -/
  ckpt : Option Ckpt := none
  /-- Seal chain links per unit (05_records R125). -/
  chains : SMap (BitVec 256) := []
  /-- Per unit: curds since its last SEAL, FIRSTSEQ of the last (12_isolation R300). -/
  gained : SMap (Nat × Nat) := []
  /-- Slots below WIDX that a failure cut off, to be written again (06_admission R140). -/
  holes : List Hole := []
  /-- Curds discarded before acceptance: requester, RSV, FIRSTSEQ (06_admission R132). -/
  dropped : List (Nat × Bool × Nat) := []
  /-- Restored stacks whose regions are being rebuilt from their surviving copies (14_startup R351). -/
  regain : List Nat := []
  /-- Instant of the newest checkpoint (06_admission R140). -/
  ckptAt : Option Nat := none
  deriving DecidableEq, Repr

/-- A subscription (R145, Table 6.3). -/
structure Sub where
  /-- Sink (06_admission R145). -/
  sink : Sink := .ledger
  /-- UNITMASK, TYPEMASK, START, START_IDX (06_admission Table 6.3). -/
  args : SubArgs := {}
  /-- CURSOR (06_admission R146). -/
  cursor : Nat := 0
  /-- Next index to place (at or above CURSOR) (06_admission R146). -/
  next : Nat := 0
  /-- First and last index skipped, whose LAPPED notice is still to be placed (06_admission R147). -/
  lap : Option (Nat × Nat) := none
  /-- Index after the last curd sent to the sink (06_admission R146). -/
  last : Nat := 0
  deriving DecidableEq, Repr

/-- The Oasis of one hub (R27, R356). -/
structure OasisRing where
  /-- Slot, curd, pinned (01_unit_anatomy R27). -/
  slots : List (Nat × Curd × Bool) := []
  /-- Next slot (14_startup R356). -/
  next : Nat := 0
  /-- GENSTART (14_startup R357). -/
  genStart : Nat := 0
  /-- PREV (14_startup R357). -/
  prev : Bool := false
  /-- Pinned slots, oldest first (01_unit_anatomy R27). -/
  pinOrder : List Nat := []
  /-- Slots marked invalid (14_startup Table 14.6). -/
  bad : List Nat := []
  /-- Hub cycle of the last CLEAR: a curd copied in it is cleared too (17_setup_registers Table 17.4). -/
  clearAt : Option Nat := none
  deriving DecidableEq, Repr

/-- A raise on Skim's list (R153). -/
structure Raise where
  /-- Lever (06_admission R153). -/
  lever : Nat := 0
  /-- (unit, analysis slice) it stepped (06_admission R153). -/
  who : List (Nat × Nat) := []
  deriving DecidableEq, Repr

/-- The overhead governor (R151-R157). -/
structure Skim where
  /-- Last report of each unit (06_admission R152). -/
  reports : SMap Offer := []
  /-- Windows ended at the last decision (06_admission R152). -/
  window : Nat := 0
  /-- Pacing from the next window (06_admission R153). -/
  nextPace : Option Bool := none
  /-- Allowances held for units out of reach (06_admission R155). -/
  allowPend : List (Nat × Option Nat) := []
  /-- Raises, most recent last (06_admission R153). -/
  raises : List Raise := []
  /-- Consecutive quiet windows (06_admission R153). -/
  quiet : Nat := 0
  /-- Pacing in force (06_admission R154). -/
  pacing : Bool := false
  /-- Stall-on-full suspended since (06_admission R157). -/
  suspAt : Option Nat := none
  /-- Lever 0x07 shift (09_churn R227). -/
  kh : Nat := 0
  /-- Its changes, newest first: FT, shift (09_churn R227). -/
  khs : List (Nat × Nat) := []
  /-- Changes held for units out of reach (06_admission R155). -/
  pend : List (Nat × LevPend) := []
  /-- Changes ordered and not yet in force in a measured window: unit, lever, steps, EFFECT (06_admission R152). -/
  ordered : List (Nat × Nat × Int × Nat) := []
  /-- OFFERPCT (06_admission Table 6.6). -/
  offerPct : Nat := 0
  /-- Fair level of the last division (06_admission R155). -/
  fair : Nat := 0
  /-- Number of the window that runs: FT / 80,000 at the last window end (06_admission R152). -/
  endW : Nat := 0
  /-- Pacing was in force in the window just ended (06_admission R153). -/
  paced : Bool := false
  /-- The instant from which stall-on-full is no longer suspended, once it was ordered (06_admission R157). -/
  suspTo : Nat := 0
  /-- Late changes applied while no hub was active, whose records are still to be admitted: unit, OLD, the change (06_admission R155). -/
  owed : List (Nat × Nat × LevPend) := []
  deriving DecidableEq, Repr

/-- A flow record (R164, Table 7.3). -/
structure Flow where
  /-- HANDLE (07_sequence_ledger Table 7.3). -/
  handle : BitVec 21 := 0
  /-- STATE (07_sequence_ledger Table 7.4). -/
  st : FlowSt := .free
  /-- PART (07_sequence_ledger Table 7.3). -/
  part : Nat := 0
  /-- The engine belonged to no partition (12_isolation R286). -/
  noPart : Bool := false
  /-- CLASS (07_sequence_ledger Table 7.3). -/
  cls : Nat := 0
  /-- ODIE (07_sequence_ledger Table 7.3). -/
  odie : Nat := 0
  /-- REASON (07_sequence_ledger Table 7.3). -/
  reason : Nat := 0
  /-- FLAGS (07_sequence_ledger Table 7.5). -/
  flags : BitVec 8 := 0
  /-- OPENFT (07_sequence_ledger Table 7.3). -/
  openFt : Nat := 0
  /-- LASTTOK (07_sequence_ledger Table 7.3). -/
  lastTok : Nat := 0
  /-- PROMPT (07_sequence_ledger Table 7.3). -/
  prompt : Nat := 0
  /-- TTFT (07_sequence_ledger Table 7.3). -/
  ttft : Nat := 0
  /-- KVCUR (07_sequence_ledger Table 7.3). -/
  kvCur : Nat := 0
  /-- PREEMPT (07_sequence_ledger Table 7.3). -/
  preempt : Nat := 0
  /-- SCALE (07_sequence_ledger Table 7.3). -/
  scale : Nat := 0
  /-- PREFILL (07_sequence_ledger Table 7.3). -/
  prefill : Nat := 0
  /-- DECODE (07_sequence_ledger Table 7.3). -/
  decode : Nat := 0
  /-- KVPEAK (07_sequence_ledger Table 7.3). -/
  kvPeak : Nat := 0
  /-- ITLH, by bucket (07_sequence_ledger Table 7.3). -/
  itlh : List (Nat × Nat) := []
  /-- Events applied (07_sequence_ledger R172). -/
  events : Nat := 0
  /-- Extension counters (07_sequence_ledger R171). -/
  ext : List (Nat × Nat) := []
  deriving DecidableEq, Repr

/-- A FLOW event held in the reorder buffer (R170). -/
structure FlowEv where
  /-- Timestamp (07_sequence_ledger R165). -/
  ft : Nat := 0
  /-- Die (07_sequence_ledger R165). -/
  die : Nat := 0
  /-- Station sequence number (07_sequence_ledger R165). -/
  seq : Nat := 0
  /-- Tap (07_sequence_ledger R161). -/
  engine : Nat := 0
  /-- Privilege (07_sequence_ledger R161). -/
  p1 : Bool := false
  /-- Handle (07_sequence_ledger R159). -/
  handle : BitVec 21 := 0
  /-- Code (07_sequence_ledger R163). -/
  code : BitVec 4 := 0
  /-- Argument (07_sequence_ledger R163). -/
  arg : BitVec 32 := 0
  /-- Epoch of its curd (12_isolation R287). -/
  epoch : BitVec 32 := 0
  /-- Journal index it came from (07_sequence_ledger R179). -/
  jidx : Nat := 0
  /-- Accepted after the watermark or a forced release had passed it (07_sequence_ledger R169). -/
  late : Bool := false
  deriving DecidableEq, Repr

/-- Query accumulators of one (partition, class, bucket) (R183, R224). -/
structure LedAcc where
  /-- Partition (07_sequence_ledger R183). -/
  part : Nat := 0
  /-- Class (07_sequence_ledger R183). -/
  cls : Nat := 0
  /-- Die (07_sequence_ledger R183). -/
  odie : Nat := 0
  /-- Ledger bucket of QGRAN ms (09_churn R224). -/
  bucket : Nat := 0
  /-- ITL tokens by bucket (07_sequence_ledger Table 7.8). -/
  itl : List (Nat × Nat) := []
  /-- Prompt tokens (07_sequence_ledger Table 7.8). -/
  prompt : Nat := 0
  /-- Prefill tokens (07_sequence_ledger Table 7.8). -/
  prefill : Nat := 0
  /-- Decode tokens (07_sequence_ledger Table 7.8). -/
  decode : Nat := 0
  /-- Preemptions (07_sequence_ledger Table 7.8). -/
  preempts : Nat := 0
  /-- TTFT inputs of the bucket (07_sequence_ledger Table 7.8). -/
  ttfts : List Nat := []
  /-- Per-token gaps of the bucket (07_sequence_ledger Table 7.8). -/
  gaps : List Nat := []
  deriving DecidableEq, Repr

/-- Largest KVCUR sum of a scope in a bucket (R183). -/
structure LedKv where
  /-- SCOPEKIND (09_churn Table 9.11). -/
  kind : Nat := 0
  /-- SCOPEID (09_churn Table 9.11). -/
  scope : Nat := 0
  /-- Ledger bucket (09_churn R224). -/
  bucket : Nat := 0
  /-- Largest sum (07_sequence_ledger Table 7.8). -/
  peak : Nat := 0
  /-- Sum after the last change (07_sequence_ledger Table 7.8). -/
  last : Nat := 0
  deriving DecidableEq, Repr

/-- Refusals of a partition in a bucket (R169, R183). -/
structure LedRef where
  /-- Partition of the engine; 256: none (07_sequence_ledger R183). -/
  part : Nat := 0
  /-- Ledger bucket (09_churn R224). -/
  bucket : Nat := 0
  /-- Refusals by cause (07_sequence_ledger Table 7.6). -/
  causes : SMap Nat := []
  /-- Flows marked INCOMPLETE (07_sequence_ledger Table 7.8). -/
  inc : Nat := 0
  deriving DecidableEq, Repr

/-- A ledger checkpoint block (R179). -/
structure LedCkpt where
  /-- Watermark Wc (07_sequence_ledger R179). -/
  wm : Nat := 0
  /-- Last journal index consumed, plus one (07_sequence_ledger R179). -/
  jc : Nat := 0
  /-- Least index with a record in the reorder buffer (07_sequence_ledger R179). -/
  jr : Nat := 0
  /-- Hub source 1 sequence number (07_sequence_ledger R179). -/
  seq : Nat := 0
  /-- The table as written back (07_sequence_ledger R179). -/
  flows : SMap Flow := []
  /-- Live counts (07_sequence_ledger R179). -/
  live : SMap Nat := []
  /-- LASTLOSS + 1 (07_sequence_ledger R179). -/
  loss : SMap Nat := []
  /-- Eviction queue (07_sequence_ledger R179). -/
  queue : List (Nat × Flow) := []
  /-- Query accumulators (07_sequence_ledger R179). -/
  accs : List LedAcc := []
  /-- Query accumulators (07_sequence_ledger R179). -/
  kvs : List LedKv := []
  /-- Query accumulators (07_sequence_ledger R179). -/
  refs : List LedRef := []
  /-- Summaries formed and not yet admitted (07_sequence_ledger R179). -/
  wait : List Record := []
  deriving DecidableEq, Repr

/-- One set of the ledger cache (R176). -/
structure CacheSet where
  /-- Slot held (extension entries add 2^20), reuse value, dirty (07_sequence_ledger R176). -/
  ways : List (Option Nat × Nat × Bool) := []
  deriving DecidableEq, Repr

/-- The Sequence Ledger (R159-R184). -/
structure Led where
  /-- Flow table by slot, copy 0 (07_sequence_ledger R175). -/
  flows : SMap Flow := []
  /-- Flow table by slot, copy 1 (07_sequence_ledger R175). -/
  flows1 : SMap Flow := []
  /-- Copy 0 is lost (07_sequence_ledger R181). -/
  gone0 : Bool := false
  /-- Copy 1 is lost (07_sequence_ledger R181). -/
  gone1 : Bool := false
  /-- Live count per partition (07_sequence_ledger R169). -/
  live : SMap Nat := []
  /-- LASTLOSS + 1 per partition (07_sequence_ledger R173). -/
  loss : SMap Nat := []
  /-- Reorder buffer, least key first (07_sequence_ledger R170). -/
  buf : List FlowEv := []
  /-- Greatest key of a forced release (07_sequence_ledger R169). -/
  forcedTo : Option (Nat × Nat × Nat) := none
  /-- Eviction queue: close timestamp, record (07_sequence_ledger R172). -/
  queue : List (Nat × Flow) := []
  /-- Query accumulators (07_sequence_ledger R183). -/
  accs : List LedAcc := []
  /-- Largest KVCUR sums (07_sequence_ledger R183). -/
  kvs : List LedKv := []
  /-- Refusals by partition and bucket (07_sequence_ledger R183). -/
  refs : List LedRef := []
  /-- Newest checkpoint block of copy 0 (07_sequence_ledger R179). -/
  ckpt : Option LedCkpt := none
  /-- Newest checkpoint block of copy 1 (07_sequence_ledger R179). -/
  ckpt1 : Option LedCkpt := none
  /-- Cache tags (07_sequence_ledger R176). -/
  cache : SMap CacheSet := []
  /-- Set-duelling selector (07_sequence_ledger R176); its initial value, the middle, is a DESIGN CHOICE (log entry 61). -/
  psel : Nat := 512
  /-- Insertions into sets 32-63, modulo 32 (07_sequence_ledger R176). -/
  brip : Nat := 0
  /-- Dirty entries, oldest first (07_sequence_ledger R176). -/
  dirtyOrder : List Nat := []
  /-- Replay keeps timestamps at or above Wc below this index (07_sequence_ledger R180). -/
  skipTo : Nat := 0
  /-- Watermark Wc of the checkpoint restored (07_sequence_ledger R180). -/
  wc : Nat := 0
  /-- CATCHUP (07_sequence_ledger R180). -/
  catchup : Bool := false
  /-- Summaries admitted after the checkpoint restored: HANDLE, OPENFT, and whether of the extension record (07_sequence_ledger R180). -/
  done : List (Nat × Nat × Bool) := []
  /-- FT at which its history begins (09_churn R224). -/
  since : Nat := 0
  /-- Job-restart boundaries whose closes wait for the watermark (07_sequence_ledger R174). -/
  closeAt : List Nat := []
  deriving DecidableEq, Repr

/-- Progress of one station (R165). -/
structure Prog where
  /-- P of the latest message whose curds are accepted (07_sequence_ledger R165). -/
  p : Nat := 0
  /-- FT of the last message (07_sequence_ledger R165). -/
  at_ : Nat := 0
  /-- Messages received whose preceding curds are not all accepted (07_sequence_ledger R165). -/
  wait : List (Nat × List (Bool × Nat)) := []
  deriving DecidableEq, Repr

/-- A tensor watch (R189, R190). -/
structure Watch where
  /-- Descriptor fields (08_tensor Table 8.3). -/
  args : WatchArgs := {}
  /-- Owner (08_tensor R190). -/
  ctx : Nat := 0
  /-- SEQ of its WATCH command (10_contexts R237). -/
  seq : Nat := 0
  /-- IRQ of its WATCH command (10_contexts Table 10.6). -/
  irq : Bool := false
  /-- Owner is an operator context or Port B (08_tensor R189). -/
  oper : Bool := true
  /-- CAPID (08_tensor R190). -/
  capId : BitVec 32 := 0
  /-- Arming instant (08_tensor R190). -/
  armAt : Nat := 0
  /-- The arming instant has been reached (08_tensor R190). -/
  inForce : Bool := false
  /-- Removal instant (08_tensor R190). -/
  remAt : Option Nat := none
  /-- Closes per station (08_tensor R189). -/
  closes : SMap Nat := []
  /-- Retirement status, until the FINAL completion (08_tensor R190). -/
  done : Option (BitVec 8) := none
  /-- Its FINAL completion has been posted (10_contexts R231). -/
  posted : Bool := false
  /-- Key and IV of the capture (08_tensor R199). -/
  okm : BitVec 352 := 0
  deriving DecidableEq, Repr

/-- A heavy-hitter sketch (R214). -/
structure Hitters where
  /-- KEY, EST, ERR (09_churn R214). -/
  ents : List (Nat × Nat × Nat) := []
  /-- TOTAL (09_churn Table 9.4). -/
  total : Nat := 0
  deriving DecidableEq, Repr

/-- An open sketch instance, or a stored one (R213, R224). -/
structure Inst where
  /-- Definition (09_churn R213). -/
  dfn : Nat := 0
  /-- SCOPEKIND (09_churn Table 9.11). -/
  kind : BitVec 3 := 0
  /-- SCOPEID (09_churn Table 9.11). -/
  scope : Nat := 0
  /-- METRIC (09_churn Table 9.2). -/
  metric : Nat := 0
  /-- PARAM (09_churn Table 9.2). -/
  param : Nat := 0
  /-- WSTART (09_churn R213). -/
  start : Nat := 0
  /-- WEND (09_churn R213). -/
  stop : Nat := 0
  /-- Quantile sketch (09_churn R210). -/
  sk : Sketch := {}
  /-- Heavy hitters (09_churn R214). -/
  hh : Hitters := {}
  /-- FLAGS (09_churn Table 9.3). -/
  flags : BitVec 8 := 0
  /-- MISSINGMAP (09_churn Table 9.3). -/
  missing : BitVec 40 := 0
  /-- Analysis slices whose boundary partial arrived, 4 x station + slice (09_churn R212). -/
  parts : List Nat := []
  deriving DecidableEq, Repr

/-- Hub-level bandwidth of one device port in a hub window (R209). -/
structure HubBw where
  /-- DPORT (09_churn R209). -/
  dport : Nat := 0
  /-- Hub window start (09_churn R209). -/
  start : Nat := 0
  /-- RX (09_churn R209). -/
  rx : Nat := 0
  /-- TX (09_churn R209). -/
  tx : Nat := 0
  /-- ACT (09_churn R209). -/
  act : Nat := 0
  /-- PEAK (09_churn R209). -/
  peak : Nat := 0
  /-- Ticks of station windows received (09_churn R209). -/
  got : Nat := 0
  deriving DecidableEq, Repr

/-- A member of a detector (R217-R219). -/
structure DetMem where
  /-- Detector (09_churn R219). -/
  det : Nat := 0
  /-- Member (09_churn Table 9.5). -/
  mem : Nat := 0
  /-- Windows seen (09_churn R217). -/
  n : Nat := 0
  /-- Mean, FP64 (09_churn R217). -/
  m : BitVec 64 := 0
  /-- Deviation, FP64 (09_churn R217). -/
  d : BitVec 64 := 0
  /-- Consecutive failed windows, anomaly test (09_churn R219). -/
  aBad : Nat := 0
  /-- Consecutive passed windows, anomaly test (09_churn R219). -/
  aGood : Nat := 0
  /-- Reported ANOMALY (09_churn R219). -/
  aIn : Bool := false
  /-- Consecutive failed windows, straggler test (09_churn R219). -/
  sBad : Nat := 0
  /-- Consecutive passed windows, straggler test (09_churn R219). -/
  sGood : Nat := 0
  /-- Reported STRAGGLER (09_churn R219). -/
  sIn : Bool := false
  /-- Value of its last window tested, FP64 (09_churn R225). -/
  val : BitVec 64 := 0
  /-- Threshold of the last outcome, FP64; none where no one threshold decided (09_churn R225). -/
  thr : Option (BitVec 64) := none
  deriving DecidableEq, Repr

/-- Detector inputs of the open window of one member (R216). -/
structure DetIn where
  /-- Detector (09_churn R216). -/
  det : Nat := 0
  /-- Member (09_churn R216). -/
  mem : Nat := 0
  /-- Window start (09_churn R216). -/
  start : Nat := 0
  /-- Bytes (09_churn R216). -/
  sum : Nat := 0
  /-- Ticks of the station windows (09_churn R216). -/
  cnt : Nat := 0
  /-- Instant and value of the first capture (09_churn R216). -/
  first : Option (Nat × Nat) := none
  /-- Instant and value of the last capture (09_churn R216). -/
  last : Option (Nat × Nat) := none
  deriving DecidableEq, Repr

/-- An expert-load window (R220-R222). -/
structure ExpWin where
  /-- Window index (09_churn R221). -/
  k : Nat := 0
  /-- WSTART (09_churn Table 9.9). -/
  start : Nat := 0
  /-- WEND (09_churn Table 9.9). -/
  stop : Nat := 0
  /-- Counters by layer x 4096 + expert (09_churn R221). -/
  cnts : SMap Nat := []
  /-- FLAGS (09_churn Table 9.9). -/
  flags : BitVec 8 := 0
  /-- TOTAL (09_churn Table 9.9). -/
  total : Nat := 0
  /-- LOSTEV (09_churn Table 9.9). -/
  lost : Nat := 0
  /-- LATEEV (09_churn Table 9.9). -/
  late : Nat := 0
  /-- EPOCH (09_churn Table 9.9). -/
  epoch : BitVec 32 := 0
  /-- BUSY (09_churn Table 9.9). -/
  busy : Bool := true
  /-- Layers (09_churn Table 9.9). -/
  nlayer : Nat := 1
  /-- Experts per layer (09_churn Table 9.9). -/
  nexp : Nat := 1
  /-- Address of its slot in device memory (09_churn R221). -/
  addr : Nat := 0
  /-- Address of its ring's control block (09_churn R221). -/
  ctl : Nat := 0
  deriving DecidableEq, Repr

/-- A query in progress (R223, R224). -/
structure Query where
  /-- Number (09_churn R223). -/
  id : Nat := 0
  /-- Context (09_churn R223). -/
  ctx : Nat := 0
  /-- SEQ (10_contexts R240). -/
  seq : Nat := 0
  /-- Fields (09_churn Table 9.11). -/
  args : QueryArgs := {}
  /-- FT of the registration (09_churn R224). -/
  since : Nat := 0
  /-- PARTIAL (09_churn R224). -/
  partial_ : Bool := false
  /-- IRQ of the descriptor (10_contexts R253). -/
  irq : Bool := false
  /-- Node query: answers received (13_node R330). -/
  node : Option (List (Nat × Answer)) := none
  /-- Members that have not answered (13_node R330). -/
  waiting : List Nat := []
  /-- Asked for by this device (a forwarded node query) (13_node R330). -/
  from_ : Option Nat := none
  deriving DecidableEq, Repr

/-- A stage marker (R215). -/
structure StageMark where
  /-- Stage number (09_churn R215). -/
  stage : Nat := 0
  /-- Step (09_churn R215). -/
  step : Nat := 0
  /-- Timestamp (09_churn R215). -/
  ft : Nat := 0
  /-- Die (09_churn R215). -/
  die : Nat := 0
  /-- Station sequence number (09_churn R215). -/
  seq : Nat := 0
  deriving DecidableEq, Repr

/-- What a sketch definition held before a boundary (R213). -/
structure PastDef where
  /-- Definition (09_churn R213). -/
  i : Nat := 0
  /-- Boundary (09_churn R213). -/
  till : Nat := 0
  /-- KX_CHN_SKDEF before it (09_churn Table 9.14). -/
  cfg : BitVec 32 := 0
  /-- KX_CHN_SKPAR before it (09_churn Table 9.14). -/
  par : BitVec 32 := 0
  /-- KX_CHN_SKWIN before it (09_churn Table 9.14). -/
  win : BitVec 32 := 0
  deriving DecidableEq, Repr

/-- The analysis engine at hub level (R205-R228). -/
structure Churn where
  /-- Open instances (09_churn R213). -/
  insts : List Inst := []
  /-- Stored windows of the definitions (09_churn R224). -/
  hist : List Inst := []
  /-- Boundaries of the definitions and what held before them, newest first (09_churn R213). -/
  past : List PastDef := []
  /-- Open hub window (09_churn R209). -/
  hbw : List HubBw := []
  /-- Start of the open hub window (09_churn R207). -/
  hbwAt : Nat := 0
  /-- Hub windows in force, newest first: instant, length in ticks, 0 for none (09_churn R207). -/
  hbwLens : List (Nat × Nat) := []
  /-- GAP records consumed: LKIND, timestamp, COUNT (09_churn R213). -/
  gaps : List (Nat × Nat × Nat) := []
  /-- A replay runs below this journal index (09_churn R228). -/
  replayTo : Nat := 0
  /-- Job-restart boundaries (09_churn Table 9.9). -/
  restarts : List Nat := []
  /-- Stored hub windows (09_churn R224). -/
  hbwHist : List HubBw := []
  /-- Detector members (09_churn R219). -/
  mems : List DetMem := []
  /-- Inputs of the open detector windows (09_churn R216). -/
  ins : List DetIn := []
  /-- Start of each detector's open window (09_churn R216). -/
  detAt : SMap Nat := []
  /-- Stage markers consumed, the first in device order of each stage and step (09_churn R215). -/
  stages : List StageMark := []
  /-- Expert-load windows, newest first (09_churn R222). -/
  exps : List ExpWin := []
  /-- LASTSEQ (09_churn Table 9.9). -/
  lastSeq : Option Nat := none
  /-- Late events since the previous close (09_churn R220). -/
  expLate : Nat := 0
  /-- Queries in progress (09_churn R223). -/
  qs : List Query := []
  /-- Number of the next query (09_churn R223). -/
  nextQ : Nat := 0
  /-- FT at which its history begins (09_churn R224). -/
  since : Nat := 0
  /-- WEND of the latest window closed (09_churn R205). -/
  closedTo : Nat := 0
  /-- Replaying (09_churn R228). -/
  catchup : Bool := false
  /-- FT at which the Churn region was lost: windows then open stay empty (09_churn R228). -/
  lostAt : Option Nat := none
  /-- Values of the watermark, each with the index below which it had to have consumed by then; the last it reached, and those after
  (09_churn R205). -/
  marks : List (Nat × Nat) := []
  /-- Dirty lines of the write-combining cache, by address / 64 (09_churn R222). -/
  dirty : List Nat := []
  /-- Keys of the records that were admitted after the checkpoint restored (09_churn R228, 06_admission R138). -/
  done : List (List (BitVec 64)) := []
  deriving DecidableEq, Repr

/-- A checkpoint of Churn (R228). -/
structure ChnCkpt where
  /-- Journal index consumed (09_churn R228). -/
  next : Nat := 0
  /-- Open windows, detector states and history (09_churn R228). -/
  churn : Churn := {}
  /-- Sequence numbers of hub sources 2 and 6 (06_admission R138). -/
  seq2 : Nat := 0
  /-- Sequence number of hub source 6 (06_admission R138). -/
  seq6 : Nat := 0
  /-- Records of source 2 formed and not yet admitted (06_admission R138). -/
  wait : List Record := []
  deriving DecidableEq, Repr

/-- A command-log entry (R241, R242). -/
structure LogEnt where
  /-- SEQ (10_contexts R242). -/
  seq : Nat := 0
  /-- Descriptor (10_contexts R236). -/
  words : List (BitVec 64) := []
  /-- Outcome of the ring engine's checks (10_contexts R239). -/
  check : BitVec 8 := 0
  /-- Both writes complete (10_contexts R241). -/
  logged : Bool := false
  /-- Its first completion (10_contexts R240). -/
  first : Option Completion := none
  /-- Duplicates parked on it (10_contexts R240). -/
  parked : Nat := 0
  /-- ABORT commands waiting for its completion: SEQ, IRQ (10_contexts R247). -/
  aborts : List (Nat × Bool) := []
  deriving DecidableEq, Repr

/-- One record ring of a context (R248, R254). -/
structure RecRing where
  /-- Producer index, free-running (10_contexts R235). -/
  pi : Nat := 0
  /-- Consumer index, free-running (10_contexts R235). -/
  ci : Nat := 0
  /-- Entries not yet returned (10_contexts R248). -/
  ents : List RingEnt := []
  /-- FT of the last read-back (10_contexts R250). -/
  readAt : Option Nat := none
  /-- Producer index confirmed by read-back (10_contexts R250). -/
  conf : Nat := 0
  /-- Watermark armed (10_contexts R254). -/
  armed : Bool := true
  /-- END (true) and LAPPED entries of ended subscriptions still to be placed (10_contexts R249). -/
  due : List (Bool × Nat × Nat) := []
  deriving DecidableEq, Repr

/-- One observation context (R229-R255). -/
structure CtxS where
  /-- STATE (10_contexts Table 10.1). -/
  st : BitVec 3 := 0
  /-- PERM (10_contexts R230). -/
  perm : BitVec 2 := 0
  /-- STALLP (10_contexts R230). -/
  stallp : Bool := false
  /-- RINGLOC (10_contexts R255). -/
  ringloc : Bool := false
  /-- PASIDEN (10_contexts Table 10.2). -/
  pasiden : Bool := false
  /-- PASID (10_contexts Table 10.2). -/
  pasid : BitVec 20 := 0
  /-- PART (10_contexts R230). -/
  part : BitVec 8 := 0
  /-- SHARE (10_contexts R251). -/
  share : BitVec 8 := 0x10#8
  /-- Curds placed in the present round of the weighted round robin (10_contexts R251). -/
  placed : Nat := 0
  /-- FCAUSE (10_contexts Table 10.5). -/
  fcause : BitVec 4 := 0
  /-- RUN (10_contexts Table 10.5). -/
  run : Bool := false
  /-- NEXTSEQ (10_contexts R240). -/
  nextSeq : Nat := 0
  /-- Command producer index (10_contexts R235). -/
  pi : Nat := 0
  /-- Command fetch index (10_contexts R235). -/
  fetch : Nat := 0
  /-- Completion producer index (10_contexts R235). -/
  cplPi : Nat := 0
  /-- Completion consumer index (10_contexts R235). -/
  cplCi : Nat := 0
  /-- Completions posted and not yet returned (10_contexts R244). -/
  cpls : List Completion := []
  /-- Completions held while the ring is full (10_contexts R246). -/
  held : List Completion := []
  /-- Command log entries (10_contexts R242). -/
  log : List LogEnt := []
  /-- A ring configuration register was written since the last RUN (10_contexts R234). -/
  ringDirty : Bool := true
  /-- SEQ0 was written since the last RUN (10_contexts R234). -/
  seqDirty : Bool := false
  /-- Completions since the last signal (10_contexts R253). -/
  unsig : Nat := 0
  /-- FT of the earliest unsignalled completion (10_contexts R253). -/
  unsigAt : Nat := 0
  /-- Record rings (10_contexts R248). -/
  recs : SMap RecRing := []
  /-- The next plan operation completes NOLEASE (11_management R262). -/
  leaseLost : Bool := false
  deriving DecidableEq, Repr

/-- The KX_SEM lease (R258-R264). -/
structure Lease where
  /-- OWNKIND (11_management Table 11.1). -/
  kind : BitVec 3 := 0
  /-- OWNID (11_management Table 11.2). -/
  id : Nat := 0
  /-- TAG (11_management Table 11.2). -/
  tag : BitVec 16 := 0
  /-- Granted length, ms (11_management R260). -/
  len : Nat := 0
  /-- FT at which it expires (11_management R260). -/
  ends : Nat := 0
  /-- LASTREL (11_management Table 11.2). -/
  lastRel : BitVec 3 := 0
  /-- Port of the latest grant (11_management R259). -/
  lastPort : Option Port := none
  /-- Port of the grant before it (11_management R259). -/
  before : Option Port := none
  /-- Hub cycle of the latest grant (11_management R259). -/
  cycle : Nat := 0
  /-- Timer frozen since (11_management R263). -/
  frozenAt : Option Nat := none
  /-- Ports whose RWS and RWP writes are dropped until their next reset (14_startup Table 14.7). -/
  fence : List Port := []
  /-- Release cause waiting for the outcome (11_management R264). -/
  forfeit : Option (BitVec 3) := none
  /-- Port A's lease ended; its next plan operation reports NOLEASE (11_management R262). -/
  lostA : Bool := false
  /-- Port B's lease ended (11_management R262). -/
  lostB : Bool := false
  deriving DecidableEq, Repr

/-- The plan transaction and the plan store (R265-R277). -/
structure Plan where
  /-- PHASE (11_management R265). -/
  phase : Phase := .idle
  /-- Staged image: aperture offset, value, permission of the stager (11_management R267). -/
  staged : List (Nat × BitVec 32 × BitVec 2) := []
  /-- STAGED (11_management R267). -/
  count : Nat := 0
  /-- T (11_management R270). -/
  t : Nat := 0
  /-- Participants (11_management R270). -/
  parts : List Nat := []
  /-- Participants that have sent READY (11_management R271). -/
  answered : List Nat := []
  /-- Participants that are ready (11_management R271). -/
  ready : List Nat := []
  /-- Participants that swapped (11_management R272). -/
  swapped : List Nat := []
  /-- The hub's registers swapped (11_management R272). -/
  hubSwapped : Bool := false
  /-- Context, SEQ and IRQ of the PLAN_COMMIT; none: register path (11_management R270). -/
  owner : Option (Nat × Nat × Bool) := none
  /-- Hub image and epoch before the swap (11_management R273). -/
  prior : Option (SMap (BitVec 32) × BitVec 32) := none
  /-- Rollback instant (11_management R273). -/
  rbAt : Nat := 0
  /-- EPOCH of the device (11_management Table 11.5). -/
  epoch : BitVec 32 := 0
  /-- RESULT (11_management Table 11.5). -/
  result : BitVec 8 := 0
  /-- MAP (11_management Table 11.5). -/
  map : BitVec 40 := 0
  /-- The transaction is automatic (16_grayth R377). -/
  auto : Bool := false
  /-- Hub cycle at whose end the automatic PREPARE goes: later writes of that cycle join the image (16_grayth R377). -/
  autoAt : Nat := 0
  /-- Writes held for the next automatic transaction (16_grayth R377). -/
  autoHeld : List (Nat × BitVec 32) := []
  /-- Permission that last staged each register (12_isolation R303). -/
  stagedBy : List (Nat × BitVec 2) := []
  /-- Permission and PART of the sequencer stager at each station (04_markers R100). -/
  seqBy : SMap (BitVec 2 × BitVec 8) := []
  /-- The same in the open transaction (04_markers R100). -/
  seqNew : SMap (BitVec 2 × BitVec 8) := []
  /-- The same before the swap, for a rollback (04_markers R105). -/
  seqOld : SMap (BitVec 2 × BitVec 8) := []
  /-- Stations that have not applied the last rollback (11_management R273). -/
  rbWait : List Nat := []
  /-- Epoch E of the last failed swap (11_management R273). -/
  rbFrom : BitVec 32 := 0
  /-- Stations that missed it (11_management R273). -/
  rbMissed : BitVec 40 := 0
  /-- Partition maps of the 16 most recent epochs (12_isolation R287). -/
  maps : List (BitVec 32 × SMap (BitVec 32)) := []
  /-- Commits the scrub has made (12_isolation R303). -/
  scrub : Nat := 0
  /-- Result of the scrub's last commit (12_isolation R303). -/
  scrubRes : Option Nat := none
  /-- Part of a node commit (13_node R325). -/
  node : Bool := false
  /-- Node GO or ABORT received (13_node R325). -/
  nodeGo : Option Bool := none
  /-- Its own swap in a node commit: done, or missed; the node outcome is awaited (13_node R325). -/
  nodeSwap : Option Bool := none
  deriving DecidableEq, Repr

/-- One direction of a mailbox (R281-R283). -/
structure MbxDir where
  /-- Messages waiting: SEQ, words (11_management R281). -/
  msgs : List (BitVec 8 × List (BitVec 32)) := []
  /-- Sequence number of the next post (11_management R282). -/
  seq : BitVec 8 := 0
  /-- Acknowledge queue of the sender (11_management R283). -/
  acks : List (BitVec 8 × BitVec 16) := []
  deriving DecidableEq, Repr

/-- One mailbox (R281). -/
structure Mbx where
  /-- Host to firmware (11_management R281). -/
  h2f : MbxDir := {}
  /-- Firmware to host (11_management R281). -/
  f2h : MbxDir := {}
  /-- Port A staged words (11_management R257). -/
  txA : SMap (BitVec 32) := []
  /-- Port B staged words (11_management R257). -/
  txB : SMap (BitVec 32) := []
  deriving DecidableEq, Repr

/-- Port B as an MCTP endpoint (R278-R280). -/
structure PortB where
  /-- Endpoint ID (11_management R278). -/
  eid : BitVec 8 := 0
  /-- NOTICE destination (11_management R280). -/
  dest : BitVec 8 := 0
  /-- ENABLE (11_management R280). -/
  enable : BitVec 2 := 0
  /-- Per SRC: KIND, sent, FT of the last sending (11_management R280). -/
  notices : List (Nat × BitVec 8 × Bool × Nat) := []
  /-- Notices coalesced behind an unanswered one, or held while ENABLE is clear (11_management R280). -/
  held : List (Nat × BitVec 8) := []
  deriving DecidableEq, Repr

/-- Firmware images (R296). -/
structure Fw where
  /-- Image chunks staged (12_isolation R296). -/
  chunks : List (BitVec 8) := []
  /-- Verified staged image (12_isolation R296). -/
  staged : Option FwImage := none
  /-- Image running (12_isolation R296). -/
  active : FwImage := {}
  /-- Previous active image (12_isolation R296). -/
  prev : FwImage := {}
  /-- FW_ACTIVATE accepted (12_isolation R296). -/
  activate : Bool := false
  deriving DecidableEq, Repr

/-- An operation of the Seal engine (R301). -/
structure SealOp where
  /-- Operation (12_isolation Table 12.7). -/
  kind : SealKind := .keygen
  /-- Context of a KEY_REGISTER (12_isolation R298). -/
  ctx : Nat := 0
  /-- SEQ (12_isolation R298). -/
  seq : Nat := 0
  /-- IRQ (10_contexts R253). -/
  irq : Bool := false
  /-- Chain of a SEAL record (12_isolation R300). -/
  unit : Nat := 0
  /-- Due instant (12_isolation R300). -/
  due : Nat := 0
  /-- Tenant point X (12_isolation R298). -/
  x : Nat := 0
  /-- Tenant point Y (12_isolation R298). -/
  y : Nat := 0
  /-- Shared secret computed by the ECDH (12_isolation R298). -/
  z : BitVec 384 := 0
  /-- Unit point X (12_isolation R298). -/
  ux : BitVec 384 := 0
  /-- Unit point Y (12_isolation R298). -/
  uy : BitVec 384 := 0
  /-- Buffer (12_isolation R298). -/
  addr : Nat := 0
  /-- Curve P-256 (12_isolation R297). -/
  p256 : Bool := false
  /-- Its result is dropped (12_isolation R303). -/
  dead : Bool := false
  /-- Mailbox of the FW_STAGE whose image is verified (12_isolation R296). -/
  mbx : Nat := 0
  /-- The image verified, where its signature holds (12_isolation R296). -/
  img : Option FwImage := none
  /-- LASTSEQ (12_isolation R300). -/
  lastSeq : Nat := 0
  /-- NCURD (12_isolation R300). -/
  ncurd : Nat := 0
  /-- HLINK (12_isolation R300). -/
  link : BitVec 256 := 0
  deriving DecidableEq, Repr

/-- A capture registration (R298). -/
structure KeyReg where
  /-- KEYID (12_isolation R298). -/
  id : BitVec 32 := 0
  /-- Owner (12_isolation R298). -/
  ctx : Nat := 0
  /-- Shared secret (12_isolation R298). -/
  z : BitVec 384 := 0
  deriving DecidableEq, Repr

/-- Tenants and secrecy (R285-R304). -/
structure Sec where
  /-- TSTATE (12_isolation R285). -/
  tstate : BitVec 2 := 0
  /-- TENANTID (12_isolation R285). -/
  tenant : BitVec 64 := 0
  /-- TDISP state (12_isolation R292). -/
  tdi : TdiSt := .unlocked
  /-- Next scrub step, 1-12; 0: no scrub (12_isolation R303). -/
  scrub : Nat := 0
  /-- TENANT_DETACH: context, SEQ, IRQ (12_isolation R303). -/
  scrubBy : Option (Nat × Nat × Bool) := none
  /-- SCRUBS (12_isolation Table 12.12). -/
  scrubs : Nat := 0
  /-- SERIAL (retention) (12_isolation R294). -/
  serial : Nat := 0
  /-- MCHG raised (12_isolation R294). -/
  mchg : Bool := false
  /-- TFLOOR (12_isolation R289). -/
  tfloor : Nat := 0
  /-- QFLOOR (12_isolation R289). -/
  qfloor : Nat := 0
  /-- Next KEYID (12_isolation R297). -/
  nextKey : BitVec 32 := 1
  /-- Current seal key (12_isolation R297). -/
  keyId : BitVec 32 := 0
  /-- Seal private key (never read out) (12_isolation R297). -/
  sealKey : BitVec 384 := 0
  /-- Curve of the current seal key (12_isolation R297). -/
  keyP256 : Bool := false
  /-- Instant of the last SEAL period (12_isolation R300). -/
  sealAt : Nat := 0
  /-- KEYREADY (12_isolation Table 12.12). -/
  keyReady : Bool := false
  /-- Registrations (12_isolation R298). -/
  regs : List KeyReg := []
  /-- Operations: the first runs, the rest wait (12_isolation R301). -/
  ops : List SealOp := []
  /-- FT at which the running operation reports (12_isolation R301). -/
  opEnds : Nat := 0
  deriving DecidableEq, Repr

/-- A sync port (R305, R307). -/
structure NodePort where
  /-- DOWN, TRAINING, UP, RETIRED (13_node Table 13.6). -/
  st : BitVec 2 := 0
  /-- Neighbour (13_node R307). -/
  peer : Option (BitVec 6) := none
  /-- One-way delay, units of 4 ticks (13_node Table 13.6). -/
  delay : Nat := 0
  deriving DecidableEq, Repr

/-- What a device knows of another (R315). -/
structure NodeDev where
  /-- Last beacon (13_node R315). -/
  b : Beacon := {}
  /-- Its arrival (13_node R315). -/
  at_ : Nat := 0
  /-- Per port by which its beacons arrive: hops, FT of the last (13_node R307). -/
  routes : SMap (Nat × Nat) := []
  /-- Expected plan epoch (13_node R328). -/
  expect : Option (BitVec 32) := none
  /-- PLANDIFF (13_node R328). -/
  plandiff : Bool := false
  /-- Its progress (13_node R320). -/
  prog : Nat := 0
  /-- Curds and LAPPED notices in the node buffer (13_node R320). -/
  queue : List NodeItem := []
  /-- Index after the last curd taken from the device into the node buffer (13_node R320). -/
  got : Nat := 0
  deriving DecidableEq, Repr

/-- A node operation at the head (R323-R326). -/
structure NodeOp where
  /-- 0b01 COMMIT, 0b10 SNAPSHOT (13_node Table 13.7). -/
  kind : BitVec 2 := 0
  /-- T (13_node R324). -/
  t : Nat := 0
  /-- Participants (13_node R324). -/
  parts : List Nat := []
  /-- Ready (13_node R325). -/
  ready : List Nat := []
  /-- Swapped (13_node R325). -/
  swapped : List Nat := []
  /-- GO flooded (13_node R325). -/
  gone : Bool := false
  /-- Report deadline; the rollback instant is 10 µs after it (13_node R326). -/
  due : Nat := 0
  /-- Participants that did not swap, once the rollback is ordered (13_node R325). -/
  missed : Option (BitVec 64) := none
  deriving DecidableEq, Repr

/-- The node (R305-R331). -/
structure Node where
  /-- Sync ports (13_node R305). -/
  ports : SMap NodePort := []
  /-- Devices heard (13_node R315). -/
  devs : SMap NodeDev := []
  /-- Node servo of the device master (13_node R310). -/
  servo : Servo := {}
  /-- A resync runs: the gain stays 1/2 until the device is aligned (02_fabric_time R54). -/
  resync : Bool := false
  /-- OFFH, ticks (13_node R310). -/
  offh : Int := 0
  /-- The microsecond of the last node exchange (13_node R310). -/
  slot : Option Nat := none
  /-- Consecutive exchanges toward a better time state (02_fabric_time R54). -/
  aligned : Nat := 0
  /-- ESTRANGED (13_node R327). -/
  estranged : Bool := false
  /-- Its identity is duplicated, until KX_SYN_ID is corrected (13_node R327). -/
  dup : Bool := false
  /-- Own PLANDIFF (13_node R328). -/
  plandiff : Bool := false
  /-- Epoch expected of this device while it is PLANDIFF (13_node R328). -/
  expect : Option (BitVec 32) := none
  /-- This device holds the head role (13_node R316). -/
  isHead : Bool := false
  /-- Consecutive beacon instants at which it computed itself as head (13_node R316). -/
  headCand : Nat := 0
  /-- The head it computes (13_node R316). -/
  head : Option Nat := none
  /-- Serial of this device's claim; 0: none (13_node R317). -/
  claim : Nat := 0
  /-- Highest claim serial heard (13_node R317). -/
  claimHi : Nat := 0
  /-- Device that made it (13_node R315). -/
  claimDev : Nat := 0
  /-- Consecutive beacon instants that named another head (13_node R318). -/
  conflict : Nat := 0
  /-- TRIG blocks seen: origin, serial, FT (13_node R313). -/
  seen : List (Nat × Nat × Nat) := []
  /-- Next trigger serial (13_node R313). -/
  trigSerial : BitVec 8 := 0
  /-- Operation in progress at the head (13_node R323). -/
  op : Option NodeOp := none
  /-- Instant of the node commit it takes part in (13_node R325). -/
  nt : Option Nat := none
  /-- Last node snapshot ID (13_node R323). -/
  snapId : BitVec 32 := 0
  /-- NMAP (13_node Table 13.7). -/
  nmap : BitVec 64 := 0
  /-- RESULT (13_node Table 13.7). -/
  result : BitVec 8 := 0
  /-- NFEAT (13_node R327). -/
  nfeat : BitVec 32 := 0
  /-- NVMINN (13_node R327). -/
  nvminn : BitVec 8 := 0
  /-- Node ring placements not yet confirmed: device, JIDX, producer index (13_node R319). -/
  places : List (Nat × Nat × Nat) := []
  deriving DecidableEq, Repr

/-- A channel (R346-R351). -/
structure Chan where
  /-- ACTIVE, RETIRED, RESTORING, ABSENT (14_startup Table 14.5). -/
  st : BitVec 2 := 0
  /-- Consecutive hot windows (14_startup R348). -/
  hot : Nat := 0
  /-- Retries used on the present event (14_startup R347). -/
  retry : Nat := 0
  /-- Events in the present window (14_startup R347). -/
  evwin : Nat := 0
  /-- Error events since cold reset (14_startup Table 14.8). -/
  total : Nat := 0
  /-- TRANSIENT written in this window (14_startup R349). -/
  told : Bool := false
  /-- The window the events are counted in (14_startup R347). -/
  win : Nat := 0
  deriving DecidableEq, Repr

/-- A Caravan stream (R364-R370). -/
structure Strm where
  /-- OFF, SEND, WAIT, STALLED, DOWN, ENDING (15_egress Table 15.3). -/
  st : BitVec 3 := 0
  /-- SESSION (15_egress R364). -/
  session : BitVec 32 := 0
  /-- Next CSN (15_egress R366). -/
  next : Nat := 0
  /-- CUMCSN and CUMJIDX (15_egress R367). -/
  cum : Option (Nat × Nat) := none
  /-- Highest CSN the receiver will accept (15_egress R368). -/
  window : Nat := 63
  /-- CSNs not acknowledged: CSN, content, FT of the last sending, resends (15_egress R369). -/
  sent : List (Nat × CsnKind × Nat × Nat) := []
  /-- CSNs held beyond CUMCSN (15_egress R367). -/
  holds : List Nat := []
  /-- ACK-prompted resends (15_egress R368). -/
  resend : List Nat := []
  /-- Timeout resends (15_egress R368). -/
  retry : List Nat := []
  /-- FT of the last ACK (15_egress R369). -/
  ackAt : Nat := 0
  /-- Moved to ALTPORT (15_egress R363). -/
  onAlt : Bool := false
  /-- Waiting for the ACK that sets CURSOR after a takeover or restart (15_egress R370). -/
  wait : Bool := false
  /-- CSNs whose resend an ACK has prompted (15_egress R369). -/
  asked : List Nat := []
  /-- FT of the last PROBE (15_egress R369). -/
  probeAt : Nat := 0
  /-- Earliest FT of the next packet under RATE (15_egress R368). -/
  paceAt : Nat := 0
  /-- FT at which EN was cleared (15_egress R369). -/
  endAt : Option Nat := none
  deriving DecidableEq, Repr

/-- The egress port (R359-R372). -/
structure Egr where
  /-- Streams (15_egress R364). -/
  strms : SMap Strm := []
  /-- Sub-ports up (15_egress R361). -/
  up : BitVec 4 := 0
  /-- WIDTH (15_egress R362). -/
  width : BitVec 2 := 0b11#2
  /-- SESSION counter (retention) (15_egress R364). -/
  session : BitVec 32 := 0
  /-- Stream whose new DATA a sub-port sent last (15_egress R368). -/
  last : SMap Nat := []
  /-- Sub-ports that a retired lane has brought down, before the port re-forms (15_egress R362). -/
  owed : BitVec 4 := 0
  deriving DecidableEq, Repr

/-- The Grayth raw stream (R373-R379). -/
structure Gray where
  /-- Curds placed in the present round of the weighted round robin (16_grayth R374). -/
  placed : Nat := 0
  /-- WPTR, free-running (16_grayth R374). -/
  wptr : Nat := 0
  /-- RPTR, free-running (16_grayth R375). -/
  rptr : Nat := 0
  /-- RUNNING (16_grayth Table 16.2). -/
  running : Bool := false
  /-- RPTR before its last write (16_grayth R375). -/
  rptrOld : Nat := 0
  /-- Hub cycle of its last write (16_grayth R375). -/
  rptrAt : Option Nat := none
  deriving DecidableEq, Repr

/-- One TRIG pin (R110-R112). -/
structure PinS where
  /-- Function in force (04_markers Table 4.16). -/
  func : BitVec 3 := 0
  /-- Polarity in force (04_markers Table 4.16). -/
  pol : Bool := false
  /-- Mesh line in force (04_markers Table 4.16). -/
  line : BitVec 3 := 0
  /-- TRIG_OUT active until (04_markers R110). -/
  pulse : Option Nat := none
  /-- Last level sampled (04_markers R112). -/
  level : Bool := false
  /-- Level the output driver drives; none: disabled (04_markers R110, R112). -/
  drv : Option Bool := none
  /-- Keeper on (04_markers R110, R113). -/
  keep : Bool := true
  /-- Cycle 0 of the park sequence under way (04_markers Table 4.17). -/
  park : Option Nat := none
  /-- End of the last character handed to the debug UART's line (04_markers R110). -/
  txFree : Nat := 0
  deriving DecidableEq, Repr

/-- The HOLD inputs (R114). -/
structure HoldIn where
  /-- HOLD_A active, after polarity (04_markers R114). -/
  a : Bool := false
  /-- HOLD_B active (04_markers R114). -/
  b : Bool := false
  /-- A hold is in force (04_markers R114). -/
  held : Bool := false
  /-- Locked after a discrepancy (04_markers R114). -/
  locked : Bool := false
  /-- Open window: FT, and whether the first change was HOLD_B's (04_markers R114). -/
  win : Option (Nat × Bool) := none
  /-- Both channels inactive since (04_markers R114). -/
  quietAt : Option Nat := none
  deriving DecidableEq, Repr

/-- A mesh event under way (R106). -/
structure MeshEv where
  /-- Lines raised (04_markers R106). -/
  lines : BitVec 8 := 0
  /-- FT at which its slot begins (04_markers R106). -/
  slot : Nat := 0
  /-- ORIGIN (04_markers Table 4.14). -/
  origin : BitVec 3 := 0
  /-- ORIGID (04_markers Table 4.14). -/
  origId : BitVec 16 := 0
  /-- Relayed over the station link or by a CTRL copy (04_markers R108). -/
  relayed : Bool := false
  /-- HOLDEND (04_markers R114). -/
  holdEnd : Bool := false
  /-- Instant at which the event was raised (05_records Table 5.12 EVFT). -/
  at_ : Nat := 0
  /-- The stations' receivers have it; the hub's still waits (04_markers R107, R108). -/
  stns : Bool := false
  deriving DecidableEq, Repr

/-- A PPS source (R57, R58). -/
structure Pps where
  /-- Last accepted edge (02_fabric_time R57). -/
  last : Option Nat := none
  /-- Consecutive valid intervals (02_fabric_time R57). -/
  good : Nat := 0
  /-- Consecutive misses (02_fabric_time R57). -/
  miss : Nat := 0
  /-- Locked (02_fabric_time R57). -/
  lock : Bool := false
  /-- Windows passed since the last accepted edge (02_fabric_time R57). -/
  wins : Nat := 0
  /-- TAI second of the last accepted edge (02_fabric_time R58). -/
  tai : Option Nat := none
  /-- Time-of-day message for the next accepted edge (02_fabric_time R58). -/
  held : Option Nat := none
  deriving DecidableEq, Repr

/-- A calendar anchor (R60). -/
structure Anchor where
  /-- Source (02_fabric_time Table 2.10). -/
  src : BitVec 4 := 0
  /-- Anchor FT (02_fabric_time R60). -/
  ft : Nat := 0
  /-- TAI seconds (02_fabric_time R60). -/
  sec : Nat := 0
  /-- TAI nanoseconds (02_fabric_time R60). -/
  ns : Nat := 0
  /-- Error bound, ns (02_fabric_time R61). -/
  bound : Nat := 0
  /-- DISCONTINUITY (02_fabric_time R58). -/
  disc : Bool := false
  /-- RTC_INVALID (02_fabric_time R55). -/
  inval : Bool := false
  deriving DecidableEq, Repr

/-- Fabric time and the calendar clock (R37-R61). -/
structure Clk where
  /-- Master FT count, ticks (02_fabric_time R37). -/
  now : Nat := 0
  /-- FTRUN (02_fabric_time Table 2.10). -/
  run : Bool := false
  /-- Reference lost since (FT held) (02_fabric_time R40). -/
  lostAt : Option Nat := none
  /-- Device time unverified after a reference outage (02_fabric_time R40). -/
  suspect : Bool := false
  /-- Device-wide steps scheduled: instant, ticks (02_fabric_time R40). -/
  steps : List (Nat × Nat) := []
  /-- Device time state (02_fabric_time R54). -/
  devTq : BitVec 2 := 0
  /-- RTC seconds (02_fabric_time R55). -/
  rtcSec : Nat := 0
  /-- The last RTC seconds strobe on the FT scale, from which the period count runs: before FT 0 where a cold reset has set FT back
  (02_fabric_time R55). -/
  rtcAt : Int := 0
  /-- The last load or trim of the RTC on the FT scale (02_fabric_time R61). -/
  trimAt : Int := 0
  /-- Start of the AUTOTRIM interval that runs (02_fabric_time R56). -/
  measAt : Nat := 0
  /-- Seconds since the last RTC anchor (02_fabric_time R60). -/
  rtcCount : Nat := 0
  /-- AUTOTRIM reloads the RTC at the next edge (02_fabric_time R56). -/
  reloadRtc : Bool := false
  /-- PPS_IN (02_fabric_time R57). -/
  pps : Pps := {}
  /-- TRIG PPS-like input (02_fabric_time R58). -/
  pps2 : Pps := {}
  /-- Latest anchor of each source (02_fabric_time R60). -/
  anchors : SMap Anchor := []
  /-- PPS_OUT high since (02_fabric_time R59). -/
  ppsOut : Option Nat := none
  /-- The servo that holds the standby hub's counter to the master over the peer link (02_fabric_time R38). -/
  stby : Servo := {}
  deriving DecidableEq, Repr

/-- A scheduled device snapshot (R77, R78). -/
structure Snap where
  /-- Snapshot ID (03_counters R77). -/
  id : BitVec 32 := 0
  /-- T (03_counters R77). -/
  t : Nat := 0
  /-- Context, SEQ, IRQ (03_counters R77). -/
  asker : Option (Nat × Nat × Bool) := none
  /-- Node snapshot ID, 0 for none (13_node R323). -/
  node : BitVec 32 := 0
  /-- Stations accepted (03_counters R78). -/
  acc : BitVec 40 := 0
  /-- Stations missing (03_counters R78). -/
  miss : BitVec 40 := 0
  /-- Stations that have captured at T (03_counters R78). -/
  took : BitVec 40 := 0
  deriving DecidableEq, Repr

/-- A service core (R26, R391). -/
structure Core where
  /-- Core faulted (01_unit_anatomy R26). -/
  fault : Bool := false
  /-- Core halted (17_setup R391). -/
  halted : Bool := false
  deriving DecidableEq, Repr

/-- The ring pointers of a context that the standby holds (R25). -/
structure RingPtrs where
  /-- Fetch index (01_unit_anatomy R25). -/
  fetch : Nat := 0
  /-- Command producer index (01_unit_anatomy R25). -/
  pi : Nat := 0
  /-- Completion producer index (01_unit_anatomy R25). -/
  cplPi : Nat := 0
  /-- Completion consumer index (01_unit_anatomy R25). -/
  cplCi : Nat := 0
  /-- Per record ring: producer index, consumer index (01_unit_anatomy R25). -/
  recs : SMap (Nat × Nat) := []
  deriving DecidableEq, Repr

/-- What the standby hub holds (R25). -/
structure Mirror where
  /-- WIDX of the last acceptance mirrored (01_unit_anatomy R25). -/
  widx : Nat := 0
  /-- Received FIRSTSEQ + 1 (01_unit_anatomy R25). -/
  recv : SMap Nat := []
  /-- Semaphore (01_unit_anatomy R25). -/
  lease : Lease := {}
  /-- Plan epoch (01_unit_anatomy R25). -/
  epoch : BitVec 32 := 0
  /-- Scheduled snapshots (01_unit_anatomy R25). -/
  snaps : List Snap := []
  /-- Skim settings, allowances and raise list (01_unit_anatomy R25). -/
  skim : Skim := {}
  /-- Sink cursors (06_admission R146). -/
  subs : List Sub := []
  /-- Watches (08_tensor R190). -/
  watches : SMap Watch := []
  /-- Ring pointers per context (01_unit_anatomy R25). -/
  rings : SMap RingPtrs := []
  /-- Acceptances the journal holds, by journal index: unit, RSV, FIRSTSEQ, last number (01_unit_anatomy R25). -/
  accs : SMap (Nat × Bool × Nat × Nat) := []
  /-- Pacers of the units: pacing in force and allowances (01_unit_anatomy R25). -/
  paces : SMap Pacer := []
  deriving DecidableEq, Repr

/-- The hub pair, its roles and power (R1, R332-R345). -/
structure Pair where
  /-- Supplies and PORST_N (18_integration R400). -/
  power : Power := .off
  /-- READY (14_startup R334). -/
  ready : Bool := false
  /-- Active hub (14_startup Table 14.9). -/
  active : HubId := .a
  /-- STBYOK (14_startup Table 14.9). -/
  stbyOk : Bool := false
  /-- The other instance stays fenced (14_startup R345). -/
  stbyFenced : Bool := false
  /-- Warm reset in progress (14_startup R336). -/
  warm : Bool := false
  /-- Takeover declared: FT, cause (14_startup R342). -/
  takeover : Option (Nat × Nat) := none
  /-- Fence confirmed (14_startup R343). -/
  fenced : Bool := false
  /-- Domain reset requested from the chip (14_startup R343). -/
  fenceReq : Bool := false
  /-- TAKEOVERS (14_startup Table 14.9). -/
  takeovers : Nat := 0
  /-- LASTRST (14_startup Table 14.9). -/
  lastRst : BitVec 4 := 1
  /-- Neither hub passed verification (14_startup R334). -/
  bootFail : Bool := false
  /-- Service cores, 8 x hub + core (01_unit_anatomy R26). -/
  cores : SMap Core := []
  /-- Job-restart boundary set (14_startup R340). -/
  restart : Option Nat := none
  /-- A job restart deferred to the commit's outcome (11_management R276). -/
  restartWait : Bool := false
  deriving DecidableEq, Repr

/-- What the integrator fixes (R6, R63, R389). -/
structure Integ where
  /-- ENUM (17_setup Table 17.5). -/
  vendor : BitVec 32 := 0
  /-- NSTACK (8 on the A40) (17_setup Table 17.5). -/
  nstack : Nat := 8
  /-- CXL (the A40 has a PCIe 6.x function) (17_setup Table 17.5). -/
  cxl : Bool := false
  /-- TDISP (17_setup Table 17.5). -/
  tdisp : Bool := true
  /-- IDE (17_setup Table 17.5). -/
  ide : Bool := true
  /-- PRESENT (40 stations on the A40) (17_setup Table 17.5). -/
  stnMap : BitVec 40 := 0xFFFFFFFFFF#40
  /-- Slice of each tap where it is not tap / 4 (01_unit_anatomy R16). -/
  slices : SMap Nat := []
  /-- LINFO of each line where it is not the A40's (03_counters Table 3.3). -/
  lines : SMap (BitVec 8) := []
  /-- Designated neighbour where it is not die XOR 1 (01_unit_anatomy R24). -/
  neigh : SMap Nat := []
  /-- Kx_board (18_integration Table 18.2). -/
  board : BitVec 3 := 0
  /-- Kx_slot (18_integration Table 18.2). -/
  slot : BitVec 3 := 0
  /-- Least SVN the root of trust accepts (12_isolation R296). -/
  minSvn : Nat := 0
  deriving DecidableEq, Repr

/-- The debug port (R403, R404). -/
structure Dbg where
  /-- Instruction register: IDCODE at reset, KXACC at an access (18_integration R403). -/
  ir : BitVec 5 := 0b00001#5
  /-- KXACC STATUS (18_integration Table 18.6). -/
  status : BitVec 2 := 0
  /-- OFFSET of the last access (18_integration Table 18.6). -/
  off : BitVec 26 := 0
  /-- DATA of the last read (18_integration Table 18.6). -/
  data : BitVec 32 := 0
  /-- FT at which TCK last toggled (17_setup Table 17.7). -/
  tckAt : Option Nat := none
  deriving DecidableEq, Repr

/-- MSI-X vectors (R252, R392). -/
structure Msix where
  /-- Vectors whose mask bit has been cleared (all are masked at reset) (10_contexts R252). -/
  unmasked : List Nat := []
  /-- Pending bits (10_contexts R252). -/
  pending : List Nat := []
  /-- Message address and data words (17_setup R392). -/
  table_ : SMap (BitVec 32) := []
  deriving DecidableEq, Repr

/-- What happens at a station on one die edge, as its commands present it (01_unit_anatomy R20). -/
inductive TapOp where
  /-- Event lines of a tap (03_counters R64). -/
  | lines (tap : Nat) (now : BitVec 64) (p1 : Bool) (cyc : Nat)
  /-- A command is issued (03_counters R80). -/
  | issue (tap : Nat) (idx : BitVec 32)
  /-- A retirement (03_counters R80). -/
  | retire (tap : Nat) (idx : BitVec 32) (addr : Nat) (stall : BitVec 16) (p1 : Bool) (cyc : Nat)
  /-- A marker beat (04_markers R88). -/
  | beat (tap : Nat) (src : BitVec 16) (data : BitVec 128) (p1 : Bool) (cyc : Nat)
  /-- A flow event (07_sequence_ledger R161). -/
  | flow (tap : Nat) (handle : BitVec 21) (code : BitVec 4) (arg : BitVec 32) (p1 : Bool) (cyc : Nat)
  /-- A tag on a write burst; `ends` on an end tag (08_tensor R187). -/
  | tag (tap : Nat) (tid : BitVec 24) (step : BitVec 32) (addr len : Nat) (ends p1 : Bool) (cyc : Nat)
  /-- Two beats leave a slice's marker queue (04_markers R91). -/
  | drain (slice : Nat)
  /-- A repeat run may be over age (04_markers R92). -/
  | age (entry : Nat)
  /-- A marker may be past its bound (04_markers R406). -/
  | late (tap : Nat)
  /-- A hold ends: for room, or at its timeout (04_markers R97). -/
  | endHold (tap : Nat) (flow timeout : Bool)
  /-- A disarmed entry may arm again (04_markers R97). -/
  | rearm (key : Nat)
  /-- The die clock changes (01_unit_anatomy R33). -/
  | freq
  /-- An accumulation may have been idle too long (08_tensor R195). -/
  | idle (wid : Nat)
  /-- The open curds may have reached the flush interval (01_unit_anatomy R22). -/
  | flush
  /-- A pending GAP count may have reached the flush interval (05_records R128). -/
  | gap (src : BitVec 16) (lkind cause : BitVec 4)
  /-- A die edge with no event of its own: what is due at it happens. -/
  | edge
  deriving DecidableEq, Repr

/-- What has happened to a register in the present cycle (00_scope R12). -/
structure HwUpd where
  /-- Its value before hardware updated it in this cycle (00_scope Table 0.5, RC). -/
  before : BitVec 32 := 0
  /-- What the hardware updates of this cycle alone make of a zero (00_scope Table 0.5, RC and W1C). -/
  upd : BitVec 32 := 0
  /-- Bits that software has written in this cycle (00_scope Table 0.5, RW and W1S). -/
  soft : BitVec 32 := 0
  deriving DecidableEq, Repr

/-- What the commands of a station's taps can change. -/
structure TapView where
  /-- The station (01_unit_anatomy R1). -/
  stn : Stn := {}
  /-- Its status registers and KX_HUB_MESH_STAT, in the order of `tapRegs`. -/
  regs : List (BitVec 32) := []
  /-- What has happened to them in the present cycle (00_scope R12). -/
  hw : List (Option HwUpd) := []
  /-- Watches (08_tensor R190). -/
  watches : SMap Watch := []
  /-- Mesh events under way (04_markers R106). -/
  mesh : List MeshEv := []
  /-- Snapshots scheduled (03_counters R77). -/
  snaps : List Snap := []
  /-- Snapshot IDs assigned (03_counters R77). -/
  snapId : BitVec 32 := 0
  deriving DecidableEq, Repr

/-- The die edge in hand at a station: what it held before, what has been presented since, each with its instant, and what it holds
after. The numbers of records do not depend on the order in which one edge's events are given (01_unit_anatomy R20), so the edge is
worked anew with each (the model's own field, log entry 48). -/
structure TapWin where
  /-- Before the edge. -/
  base : TapView := {}
  /-- Instant and event. -/
  items : List (Nat × TapOp) := []
  /-- After them. -/
  aft : TapView := {}
  deriving DecidableEq, Repr

/-- The whole unit, and the queue of waiting commands. -/
structure State where
  /-- Commands waiting, first in first out (the row's cut). -/
  pending : List Instr := []
  /-- Fabric time and calendar clock (02_fabric_time). -/
  clk : Clk := {}
  /-- Setup registers that differ from their reset values, by aperture offset (17_setup R388). -/
  regs : SMap (BitVec 32) := []
  /-- Hub SRAM, bytes that differ from zero (01_unit_anatomy Table 1.3). -/
  sram : List Host.Cell := []
  /-- Stations (01_unit_anatomy R1). -/
  stns : SMap Stn := []
  /-- Hub internal sources (01_unit_anatomy R29). -/
  srcs : SMap HubSrc := []
  /-- Journal and pool (06_admission). -/
  jrn : Jrn := {}
  /-- Subscriptions (06_admission R145). -/
  subs : List Sub := []
  /-- Oasis of Hub-A (01_unit_anatomy R27). -/
  oasisA : OasisRing := {}
  /-- Oasis of Hub-B (01_unit_anatomy R27). -/
  oasisB : OasisRing := {}
  /-- Skim (06_admission R151). -/
  skim : Skim := {}
  /-- Device watermark (07_sequence_ledger R165). -/
  wm : Nat := 0
  /-- Station progress; a station listed is in the watermark set (07_sequence_ledger R165). -/
  progs : SMap Prog := []
  /-- Ledger (07_sequence_ledger). -/
  led : Led := {}
  /-- Watches by WID (08_tensor R190). -/
  watches : SMap Watch := []
  /-- Next CAPID (08_tensor R190). -/
  capIds : BitVec 32 := 0
  /-- Churn checkpoint: consumed journal index, state (09_churn R228). -/
  chnCkpt : Option ChnCkpt := none
  /-- Churn (09_churn). -/
  churn : Churn := {}
  /-- Contexts (10_contexts R229). -/
  ctxs : SMap CtxS := []
  /-- Lease (11_management R258). -/
  lease : Lease := {}
  /-- Plan (11_management R265). -/
  plan : Plan := {}
  /-- Mailboxes (11_management R281). -/
  mbxs : SMap Mbx := []
  /-- Port B (11_management R278). -/
  portB : PortB := {}
  /-- Firmware (12_isolation R296). -/
  fw : Fw := {}
  /-- Tenant and keys (12_isolation R285). -/
  sec : Sec := {}
  /-- Node (13_node). -/
  node : Node := {}
  /-- Channels by identifier (14_startup R346). -/
  chans : SMap Chan := []
  /-- Egress (15_egress). -/
  egr : Egr := {}
  /-- Grayth mode (16_grayth). -/
  gray : Gray := {}
  /-- TRIG pins (04_markers R110). -/
  pins : SMap PinS := []
  /-- HOLD inputs (04_markers R114). -/
  hold : HoldIn := {}
  /-- Mesh events under way (04_markers R106). -/
  mesh : List MeshEv := []
  /-- Snapshots scheduled (03_counters R77). -/
  snaps : List Snap := []
  /-- Snapshot IDs assigned (03_counters R77). -/
  snapId : BitVec 32 := 0
  /-- Hub pair (14_startup). -/
  pair : Pair := {}
  /-- The standby's mirror (01_unit_anatomy R25). -/
  mirror : Mirror := {}
  /-- Integration constants (18_integration). -/
  integ : Integ := {}
  /-- MSI-X (10_contexts R252). -/
  msix : Msix := {}
  /-- Debug port (18_integration R404). -/
  dbg : Dbg := {}
  /-- Latches of high halves, per port and register offset: KX_TIM_FT_HI, KX_RTC_SEC_HI, KX_RTC_SUB and every register of which a read of LO latches HI (17_setup R390, 11_management R257). -/
  latches : List (Port × Nat × BitVec 32) := []
  /-- What the unit has sent to its surroundings, oldest first (18_integration). -/
  out : List Out := []
  /-- Counter of the free values drawn (no register of the spec) (the model's own field). -/
  free : Nat := 0
  /-- Die edges in hand, by station (the model's own field, log entry 48). -/
  taps : SMap TapWin := []
  /-- Registers that hardware or software has acted on in the present cycle, by aperture offset (00_scope R12; the model's own field). -/
  hw : SMap HwUpd := []
  /-- Hub SRAM writes the command in hand has made; empty between commands (01_unit_anatomy Table 1.3). -/
  sramW : List SramOp := []
  deriving DecidableEq, Repr

/-- Faults. No command of the specification stops the unit, so there is none. -/
inductive Fault where
  deriving DecidableEq, Repr

/-- Refusals. -/
inductive Refusal where
  /-- Raised by `exec` for a command whose meaning has not been written; safe. -/
  | notModelled (mnemonic : String)
  deriving DecidableEq, Repr

/-- The unit with no power applied: every field at its reset value. -/
def State.reset : State := {}

end Sys2Proof.Machine
end

