-- ==== Sys2Proof/Machine/Ops.lean ====
section
/-!
DEFINITION. The named operations that every meaning is built from: sparse maps, bit fields, setup registers, hub SRAM,
stations, time, what leaves the unit, and the wrappers that say when a command takes effect at all.
-/

namespace Sys2Proof.Machine

/-! ## Sparse maps -/

/-- The entry of a key. -/
def sget {α : Type} : SMap α → Nat → Option α
  | [], _ => none
  | (j, v) :: m, k => if j = k then some v else sget m k

/-- The entry of a key, or a default. -/
def sgetD {α : Type} (m : SMap α) (k : Nat) (d : α) : α := (sget m k).getD d

/-- Set the entry of a key, keeping keys strictly rising. -/
def sput {α : Type} : SMap α → Nat → α → SMap α
  | [], k, v => [(k, v)]
  | (j, w) :: m, k, v =>
    if k < j then (k, v) :: (j, w) :: m
    else if k = j then (k, v) :: m
    else (j, w) :: sput m k v

/-- Remove the entry of a key. -/
def sdel {α : Type} : SMap α → Nat → SMap α
  | [], _ => []
  | (j, w) :: m, k => if j = k then sdel m k else (j, w) :: sdel m k

/-- Set a number, dropping the entry when it is 0. -/
def snum (m : SMap Nat) (k v : Nat) : SMap Nat := if v = 0 then sdel m k else sput m k v

/-- Add to a number. -/
def sadd (m : SMap Nat) (k d : Nat) : SMap Nat := snum m k (sgetD m k 0 + d)

/-- Keys strictly rise. -/
def keysRise {α : Type} : SMap α → Bool
  | [] => true
  | [_] => true
  | (j, _) :: (k, w) :: m => j < k && keysRise ((k, w) :: m)

/-- Add `x` at the end of a list if it is not in it. -/
def insertNew {α : Type} [DecidableEq α] (l : List α) (x : α) : List α := if x ∈ l then l else l ++ [x]

/-- Replace the first element that passes `p`. -/
def replaceFirst {α : Type} (p : α → Bool) (f : α → α) : List α → List α
  | [] => []
  | x :: l => if p x then f x :: l else x :: replaceFirst p f l

/-- Remove the first element that passes `p`. -/
def removeFirst {α : Type} (p : α → Bool) : List α → List α
  | [] => []
  | x :: l => if p x then l else x :: removeFirst p l

/-! ## Numbers and bit fields -/

/-- Bits [hi:lo] of a number. -/
def bitsOf (w hi lo : Nat) : Nat := (w >>> lo) % 2 ^ (hi + 1 - lo)

/-- Bits [hi:lo] of a register word. -/
def fld (w : Word) (hi lo : Nat) : Nat := bitsOf w.toNat hi lo

/-- A register word with bits [hi:lo] replaced. -/
def setFld (w : Word) (hi lo v : Nat) : Word :=
  let m : Word := (BitVec.ofNat 32 (2 ^ (hi + 1 - lo) - 1)) <<< lo
  (w &&& ~~~m) ||| ((BitVec.ofNat 32 v <<< lo) &&& m)

/-- `v` held to at least `lo` and at most `hi`. -/
def clampN (lo hi v : Nat) : Nat := if v < lo then lo else if hi < v then hi else v

/-- A field whose value 0 is taken as 1 and whose values above `hi` are taken as `hi`. -/
def clamp1 (hi v : Nat) : Nat := clampN 1 hi v

/-- Saturating sum. -/
def satAdd (top a b : Nat) : Nat := min top (a + b)

/-- The number of set bits in a bit map of width n. -/
def popcount (n : Nat) (w : Nat) : Nat := ((List.range n).filter w.testBit).length

/-- Signed value of the low `n` bits. -/
def signedOf (n w : Nat) : Int :=
  let v : Nat := w % 2 ^ n
  if v < 2 ^ (n - 1) then Int.ofNat v else Int.ofNat v - 2 ^ n

/-- Ticks of FT in 1 ns, 1 µs and 1 ms (00_scope R9). -/
def nsT : Nat := 8
def usT : Nat := 8000

/-- The hub cycle of an instant: 16/3 ticks (00_scope R9). -/
def hubCycle (ft : Nat) : Nat := ft * 3 / 16
def msT : Nat := 8000000
def secT : Nat := 8000000000

/-- The largest multiple of `step` at or below `x`. -/
def gridAt (step x : Nat) : Nat := if step = 0 then x else x / step * step

/-- The least multiple of `step` at or above `x`. -/
def gridUp (step x : Nat) : Nat := if step = 0 then x else (x + step - 1) / step * step

/-- Whether `a` comes before `b` in serial-number arithmetic modulo 2^32 (RFC 1982, 05_records R129). -/
def serialLt (a b : BitVec 32) : Bool := a != b && (b - a).toNat < 2 ^ 31

/-! ## Setup registers -/

/-- A setup register: its aperture offset and its reset value. -/
structure Reg where
  off : Nat
  rst : Nat
  deriving DecidableEq, Repr

/-- The value of a register that State holds as a word. -/
def State.rd (s : State) (r : Reg) : Word := (sget s.regs r.off).getD (BitVec.ofNat 32 r.rst)

/-- Set a register word; an entry equal to the reset value is dropped. -/
def State.wr (s : State) (r : Reg) (v : Word) : State :=
  { s with regs := if v = BitVec.ofNat 32 r.rst then sdel s.regs r.off else sput s.regs r.off v }

/-- A field of a register. -/
def State.rf (s : State) (r : Reg) (hi lo : Nat) : Nat := fld (s.rd r) hi lo

/-- A bit of a register. -/
def State.rb (s : State) (r : Reg) (i : Nat) : Bool := (s.rd r).getLsbD i

/-- Set a field of a register. -/
def State.setF (s : State) (r : Reg) (hi lo v : Nat) : State := s.wr r (setFld (s.rd r) hi lo v)

/-- What has happened to a register in the present cycle, with an update of its hardware: `f` from zero on (00_scope R12). -/
def State.hwNext (s : State) (r : Reg) (f : Word → Word) : SMap HwUpd :=
  let x := (sget s.hw r.off).getD { before := s.rd r }
  sput s.hw r.off { x with upd := f x.upd }

/-- Bits of a register that hardware has set in the present cycle: they win over a software clear (00_scope Table 0.5). -/
def State.hwSet (s : State) (r : Reg) : Word := (sgetD s.hw r.off {}).upd

/-- Software writes bits of a register in the present cycle (00_scope Table 0.5). -/
def State.softWrite (s : State) (r : Reg) (m : Word) : State :=
  let x := (sget s.hw r.off).getD { before := s.rd r }
  { s with hw := sput s.hw r.off { x with soft := x.soft ||| m } }

/-- Software has written a bit of a register in the present cycle: its write wins over the hardware's (00_scope Table 0.5). -/
def State.softBit (s : State) (r : Reg) (i : Nat) : Bool := (sgetD s.hw r.off {}).soft.getLsbD i

/-- Set a bit of a register. -/
def State.setB (s : State) (r : Reg) (i : Nat) (b : Bool) : State :=
  { s.setF r i i (if b then 1 else 0) with hw := if b then s.hwNext r fun u => setFld u i i 1 else s.hw }

/-- Hardware clears a bit that software writes too: a software write of the same cycle wins (00_scope Table 0.5, RWS and W1S). -/
def State.hwClear (s : State) (r : Reg) (i : Nat) : State := if s.softBit r i then s else s.setB r i false

/-- Add to a field that saturates at its top. -/
def State.incF (s : State) (r : Reg) (hi lo n : Nat) : State :=
  let add := fun (w : Word) => setFld w hi lo (satAdd (2 ^ (hi + 1 - lo) - 1) (fld w hi lo) n)
  { s.setF r hi lo (satAdd (2 ^ (hi + 1 - lo) - 1) (s.rf r hi lo) n) with hw := s.hwNext r add }

/-- The 64-bit value of a LO and HI pair. -/
def State.rd64 (s : State) (lo hi : Reg) : Nat := (s.rd lo).toNat + 2 ^ 32 * (s.rd hi).toNat

/-! ## Hub SRAM -/

/-- Size of the hub SRAM (01_unit_anatomy Table 1.3). -/
def sramSize : Nat := 262144

/-- What an unlisted byte reads as: the cold start zeroes the SRAMs (14_startup Table 14.2). -/
def sramDefault : Byte := 0

/-- One byte of hub SRAM. -/
def Memory.read (m : List Host.Cell) (a : Nat) : Byte := sgetD m a sramDefault

/-- Write one byte, keeping the canonical form. -/
def Memory.write (m : List Host.Cell) (a : Nat) (b : Byte) : List Host.Cell :=
  if b = sramDefault then sdel m a else sput m a b

/-- The canonical form: addresses strictly rise and no entry holds the default. -/
def Memory.wf (m : List Host.Cell) : Bool := keysRise m && m.all fun c => c.2 != sramDefault

/-- `n` bytes from an address. -/
def Memory.readBytes (m : List Host.Cell) (a n : Nat) : List Byte := (List.range n).map fun i => Memory.read m (a + i)

/-- Write a list of bytes from an address. -/
def Memory.writeBytes (m : List Host.Cell) (a : Nat) : List Byte → List Host.Cell
  | [] => m
  | b :: l => Memory.writeBytes (Memory.write m a b) (a + 1) l

/-- A 64-bit word as bytes, least significant first (05_records R115). -/
def bytesOf64 (w : BitVec 64) : List Byte := (List.range 8).map fun i => (w >>> (8 * i)).setWidth 8

/-- A 32-bit word as bytes, least significant first. -/
def bytesOf32 (w : Word) : List Byte := (List.range 4).map fun i => (w >>> (8 * i)).setWidth 8

/-- Bytes as a number, least significant first. -/
def natOfBytes : List Byte → Nat
  | [] => 0
  | b :: l => b.toNat + 256 * natOfBytes l

/-- The low `n` bytes of a number, least significant first. -/
def bytesOfNat (n w : Nat) : List Byte := (List.range n).map fun i => BitVec.ofNat 8 (w >>> (8 * i))

/-! ## Parts of the state -/

/-- Station n. -/
def State.stn (s : State) (n : Nat) : Stn := sgetD s.stns n {}

/-- Replace station n. -/
def State.setStn (s : State) (n : Nat) (x : Stn) : State := { s with stns := sput s.stns n x }

/-- Change station n. -/
def State.modStn (s : State) (n : Nat) (f : Stn → Stn) : State := s.setStn n (f (s.stn n))

/-- Hub internal source k. -/
def State.src (s : State) (k : Nat) : HubSrc := sgetD s.srcs k {}

/-- Change hub internal source k. -/
def State.modSrc (s : State) (k : Nat) (f : HubSrc → HubSrc) : State := { s with srcs := sput s.srcs k (f (s.src k)) }

/-- Context c: OC 0-15 start STOPPED with PERM OPER and STALLP, the others CLOSED (10_contexts R230, R231). -/
def State.ctx (s : State) (c : Nat) : CtxS :=
  sgetD s.ctxs c (if c < 16 then { st := 1, perm := 0, stallp := true } else {})

/-- Change context c. -/
def State.modCtx (s : State) (c : Nat) (f : CtxS → CtxS) : State := { s with ctxs := sput s.ctxs c (f (s.ctx c)) }

/-- Whether the die carries a station (17_setup_registers Table 17.5). -/
def State.present (s : State) (n : Nat) : Bool := n < 40 && s.integ.stnMap.getLsbD n

/-- The dies that carry a station. -/
def State.dies (s : State) : List Nat := (List.range 40).filter s.present

/-- The master FT. -/
def State.now (s : State) : Nat := s.clk.now

/-- Ticks of a pending slew already applied: one in every 64 reference periods (02_fabric_time R40). -/
def Servo.slewed (v : Servo) (now : Nat) : Int :=
  let d := Int.ofNat (min v.slew.natAbs ((now - v.slewAt) / 512))
  if v.slew < 0 then -d else d

/-- Master minus copy now. -/
def Servo.lag (v : Servo) (now : Nat) : Int := v.off - v.slewed now

/-- The FT copy of station n: the master less the copy's lag (02_fabric_time R40). -/
def State.stnFt (s : State) (n : Nat) : Nat := (Int.ofNat s.clk.now - (s.stn n).servo.lag s.clk.now).toNat

/-- The FT counter of the standby hub (02_fabric_time R38). No command of the table exchanges time over the peer link, so the counter is
the master's, within the bound of R46 (log entry 62). -/
def State.stbyFt (s : State) : Nat := (Int.ofNat s.clk.now - s.clk.stby.lag s.clk.now).toNat

/-- A port's latch for the register at an offset; none where it is empty (17_setup_registers R390). -/
def State.latch (s : State) (p : Port) (off : Nat) : Option Word :=
  (s.latches.find? fun x => x.1 == p && x.2.1 == off).map (·.2.2)

/-- Empty a port's latch for the register at an offset. -/
def State.noLatch (s : State) (p : Port) (off : Nat) : State :=
  { s with latches := s.latches.filter fun x => !(x.1 == p && x.2.1 == off) }

/-- Load a port's latch for the register at an offset; the debug port has none (17_setup_registers R383). -/
def State.setLatch (s : State) (p : Port) (off : Nat) (v : Word) : State :=
  if p = .dbg then s
  else { s with latches := (s.latches.filter fun x => !(x.1 == p && x.2.1 == off)) ++ [(p, off, v)] }

/-- Read a register that a port may have latched: the latch, which empties, or the live bits (17_setup_registers R390). -/
def State.readLatched (s : State) (p : Port) (off : Nat) (live : Word) : State × Word :=
  match s.latch p off with
  | some v => (s.noLatch p off, v)
  | none => (s, live)

/-- Append to what has left the unit. -/
def State.emit (s : State) (o : Out) : State := { s with out := s.out ++ [o] }

/-- Draw one free value (log entry 6). -/
def State.draw (s : State) : BitVec 64 × State := (Config.freeValue s.free, { s with free := s.free + 1 })

/-- Draw `k` free values, oldest first (log entry 6). -/
def State.draws : Nat → State → List (BitVec 64) × State
  | 0, s => ([], s)
  | k + 1, s => let (l, s) := State.draws k s; (l ++ [Config.freeValue s.free], { s with free := s.free + 1 })

/-! ## When a command takes effect -/

/-- FT moves to the instant of the command; it never decreases (02_fabric_time R40) and stands still while the reference is
absent. A later instant is a new cycle for the registers (00_scope R12). -/
def State.advance (s : State) (t : Nat) : State :=
  if s.clk.lostAt.isSome then { s with hw := [] }
  else { s with clk := { s.clk with now := max s.clk.now t }, hw := if s.clk.now < t then [] else s.hw }

/-- The unit is supplied and PORST_N is high. -/
def State.isOn (s : State) : Bool := s.pair.power = .on

/-- An active hub serves: cold start done, no warm reset and no takeover in progress. -/
def State.hubOn (s : State) : Bool := s.isOn && s.pair.ready && !s.pair.warm && s.pair.takeover.isNone

/-- Station n works: present, supplied, out of reset. -/
def State.stnOn (s : State) (n : Nat) : Bool := s.isOn && s.present n && !(s.stn n).inReset

/-- The SRAM after a change; bytes outside the SRAM are dropped. -/
def Memory.apply (m : List Host.Cell) : SramOp → List Host.Cell
  | .clear => []
  | .write a bs => if a + bs.length ≤ sramSize then Memory.writeBytes m a bs else m

/-- The end of every command: the queue and the integration constants stand as they were, the SRAM takes the writes the
command made in order, and FT does not go back. -/
def settle (s0 s1 : State) : State :=
  { s1 with
    pending := s0.pending
    integ := s0.integ
    sram := s1.sramW.foldl Memory.apply s0.sram
    sramW := []
    clk := { s1.clk with now := max s0.clk.now s1.clk.now } }

/-- A command that takes effect whatever the supplies. -/
def always (t : Nat) (f : State → State) (s : State) : Host.Outcome State Fault Refusal :=
  .next (settle s (f (s.advance t)))

/-- A command that takes effect while the unit is on. -/
def onUnit (t : Nat) (f : State → State) (s : State) : Host.Outcome State Fault Refusal :=
  always t (fun s => if s.isOn then f s else s) s

/-- A command to the active hub. -/
def onHub (t : Nat) (f : State → State) (s : State) : Host.Outcome State Fault Refusal :=
  always t (fun s => if s.hubOn then f s else s) s

/-- A command to station n. -/
def onStn (t n : Nat) (f : State → State) (s : State) : Host.Outcome State Fault Refusal :=
  always t (fun s => if s.stnOn n then f s else s) s

end Sys2Proof.Machine
end

