-- ==== Sys2Proof/Machine/Regs.lean ====
section
/-!
DEFINITION. The setup registers: their aperture offsets and reset values (17_setup_registers Tables 17.2 and 17.3,
10_contexts Table 10.4, and the table of each register's own chapter), and the access type of every bit.
-/

namespace Sys2Proof.Machine.Kx

/-- KX_GLB_VENDOR. -/
def glbVendor : Reg := ⟨0x0, 0x0⟩
/-- KX_GLB_VERSION. -/
def glbVersion : Reg := ⟨0x4, 0x1001000⟩
/-- KX_GLB_CAP. -/
def glbCap : Reg := ⟨0x8, 0x0⟩
/-- KX_GLB_STNMAP_LO. -/
def glbStnmapLo : Reg := ⟨0xC, 0x0⟩
/-- KX_GLB_STNMAP_HI. -/
def glbStnmapHi : Reg := ⟨0x10, 0x0⟩
/-- KX_GLB_ACCERR. -/
def glbAccerr : Reg := ⟨0x14, 0x0⟩
/-- KX_GLB_ACCADDR. -/
def glbAccaddr : Reg := ⟨0x18, 0x0⟩
/-- KX_GLB_STATUS. -/
def glbStatus : Reg := ⟨0x20, 0x1⟩
/-- KX_GLB_CTL. -/
def glbCtl : Reg := ⟨0x24, 0x0⟩
/-- KX_GLB_STNRST_LO. -/
def glbStnrstLo : Reg := ⟨0x28, 0x0⟩
/-- KX_GLB_STNRST_HI. -/
def glbStnrstHi : Reg := ⟨0x2C, 0x0⟩
/-- KX_GLB_CHSEL. -/
def glbChsel : Reg := ⟨0x40, 0x0⟩
/-- KX_GLB_CHSTAT. -/
def glbChstat : Reg := ⟨0x44, 0x0⟩
/-- KX_GLB_CHCTL. -/
def glbChctl : Reg := ⟨0x48, 0x0⟩
/-- KX_GLB_GRAY_CFG. -/
def glbGrayCfg : Reg := ⟨0x80, 0x100008⟩
/-- KX_GLB_GRAY_BASE_LO. -/
def glbGrayBaseLo : Reg := ⟨0x84, 0x0⟩
/-- KX_GLB_GRAY_BASE_HI. -/
def glbGrayBaseHi : Reg := ⟨0x88, 0x0⟩
/-- KX_GLB_GRAY_WBA_LO. -/
def glbGrayWbaLo : Reg := ⟨0x8C, 0x0⟩
/-- KX_GLB_GRAY_WBA_HI. -/
def glbGrayWbaHi : Reg := ⟨0x90, 0x0⟩
/-- KX_GLB_GRAY_WPTR. -/
def glbGrayWptr : Reg := ⟨0x94, 0x0⟩
/-- KX_GLB_GRAY_RPTR. -/
def glbGrayRptr : Reg := ⟨0x98, 0x0⟩
/-- KX_GLB_GRAY_STAT. -/
def glbGrayStat : Reg := ⟨0x9C, 0x0⟩
/-- KX_TIM_STATUS. -/
def timStatus : Reg := ⟨0x1000, 0x0⟩
/-- KX_TIM_PPS_CFG. -/
def timPpsCfg : Reg := ⟨0x1004, 0x64000000⟩
/-- KX_TIM_ANCHOR_CFG. -/
def timAnchorCfg : Reg := ⟨0x1008, 0x1⟩
/-- KX_TIM_FT_LO. -/
def timFtLo : Reg := ⟨0x1010, 0x0⟩
/-- KX_TIM_FT_HI. -/
def timFtHi : Reg := ⟨0x1014, 0x0⟩
/-- KX_RTC_CTL. -/
def rtcCtl : Reg := ⟨0x2000, 0x10⟩
/-- KX_RTC_SEC_LO. -/
def rtcSecLo : Reg := ⟨0x2004, 0x0⟩
/-- KX_RTC_SEC_HI. -/
def rtcSecHi : Reg := ⟨0x2008, 0x0⟩
/-- KX_RTC_SUB. -/
def rtcSub : Reg := ⟨0x200C, 0x0⟩
/-- KX_RTC_SET_LO. -/
def rtcSetLo : Reg := ⟨0x2010, 0x0⟩
/-- KX_RTC_SET_HI. -/
def rtcSetHi : Reg := ⟨0x2014, 0x0⟩
/-- KX_SEM_REQ. -/
def semReq : Reg := ⟨0x3000, 0x0⟩
/-- KX_SEM_REL. -/
def semRel : Reg := ⟨0x3004, 0x0⟩
/-- KX_SEM_OWNER. -/
def semOwner : Reg := ⟨0x3008, 0x0⟩
/-- KX_SEM_STATUS. -/
def semStatus : Reg := ⟨0x300C, 0x0⟩
/-- KX_SEM_CFG. -/
def semCfg : Reg := ⟨0x3010, 0x64⟩
/-- KX_OP_CTL. -/
def opCtl : Reg := ⟨0x4000, 0x0⟩
/-- KX_OP_T_LO. -/
def opTLo : Reg := ⟨0x4004, 0x0⟩
/-- KX_OP_T_HI. -/
def opTHi : Reg := ⟨0x4008, 0x0⟩
/-- KX_OP_STATUS. -/
def opStatus : Reg := ⟨0x400C, 0x0⟩
/-- KX_OP_EPOCH. -/
def opEpoch : Reg := ⟨0x4010, 0x0⟩
/-- KX_OP_MAP_LO. -/
def opMapLo : Reg := ⟨0x4014, 0x0⟩
/-- KX_OP_MAP_HI. -/
def opMapHi : Reg := ⟨0x4018, 0x0⟩
/-- KX_MBX_CFG. -/
def mbxCfg (i : Nat) : Reg := ⟨0x5000 + 0x80 * i, 0x0⟩
/-- KX_MBX_POST. -/
def mbxPost (i : Nat) : Reg := ⟨0x5004 + 0x80 * i, 0x0⟩
/-- KX_MBX_TXSTAT. -/
def mbxTxstat (i : Nat) : Reg := ⟨0x5008 + 0x80 * i, 0x800000⟩
/-- KX_MBX_ACKQ. -/
def mbxAckq (i : Nat) : Reg := ⟨0x500C + 0x80 * i, 0x0⟩
/-- KX_MBX_RXINFO. -/
def mbxRxinfo (i : Nat) : Reg := ⟨0x5010 + 0x80 * i, 0x0⟩
/-- KX_MBX_ACK. -/
def mbxAck (i : Nat) : Reg := ⟨0x5014 + 0x80 * i, 0x0⟩
/-- KX_MBX_TXW0. -/
def mbxTxw0 (i : Nat) : Reg := ⟨0x5020 + 0x80 * i, 0x0⟩
/-- KX_MBX_RXW0. -/
def mbxRxw0 (i : Nat) : Reg := ⟨0x5040 + 0x80 * i, 0x0⟩
/-- KX_MBX_TXW1. -/
def mbxTxw1 (i : Nat) : Reg := ⟨0x5024 + 0x80 * i, 0x0⟩
/-- KX_MBX_RXW1. -/
def mbxRxw1 (i : Nat) : Reg := ⟨0x5044 + 0x80 * i, 0x0⟩
/-- KX_MBX_TXW2. -/
def mbxTxw2 (i : Nat) : Reg := ⟨0x5028 + 0x80 * i, 0x0⟩
/-- KX_MBX_RXW2. -/
def mbxRxw2 (i : Nat) : Reg := ⟨0x5048 + 0x80 * i, 0x0⟩
/-- KX_MBX_TXW3. -/
def mbxTxw3 (i : Nat) : Reg := ⟨0x502C + 0x80 * i, 0x0⟩
/-- KX_MBX_RXW3. -/
def mbxRxw3 (i : Nat) : Reg := ⟨0x504C + 0x80 * i, 0x0⟩
/-- KX_MBX_TXW4. -/
def mbxTxw4 (i : Nat) : Reg := ⟨0x5030 + 0x80 * i, 0x0⟩
/-- KX_MBX_RXW4. -/
def mbxRxw4 (i : Nat) : Reg := ⟨0x5050 + 0x80 * i, 0x0⟩
/-- KX_MBX_TXW5. -/
def mbxTxw5 (i : Nat) : Reg := ⟨0x5034 + 0x80 * i, 0x0⟩
/-- KX_MBX_RXW5. -/
def mbxRxw5 (i : Nat) : Reg := ⟨0x5054 + 0x80 * i, 0x0⟩
/-- KX_MBX_TXW6. -/
def mbxTxw6 (i : Nat) : Reg := ⟨0x5038 + 0x80 * i, 0x0⟩
/-- KX_MBX_RXW6. -/
def mbxRxw6 (i : Nat) : Reg := ⟨0x5058 + 0x80 * i, 0x0⟩
/-- KX_MBX_TXW7. -/
def mbxTxw7 (i : Nat) : Reg := ⟨0x503C + 0x80 * i, 0x0⟩
/-- KX_MBX_RXW7. -/
def mbxRxw7 (i : Nat) : Reg := ⟨0x505C + 0x80 * i, 0x0⟩
/-- KX_SKM_BUDGET. -/
def skmBudget : Reg := ⟨0x6000, 0x644B00⟩
/-- KX_SKM_HBMBW. -/
def skmHbmbw : Reg := ⟨0x6004, 0x0⟩
/-- KX_SKM_STALLBUD. -/
def skmStallbud : Reg := ⟨0x6008, 0x3E8⟩
/-- KX_SKM_CFG. -/
def skmCfg : Reg := ⟨0x600C, 0x1F⟩
/-- KX_SKM_STATUS. -/
def skmStatus : Reg := ⟨0x6010, 0x0⟩
/-- KX_SKM_BUDEFF. -/
def skmBudeff : Reg := ⟨0x6014, 0x0⟩
/-- KX_HUB_JRN_CFG. -/
def hubJrnCfg : Reg := ⟨0x7000, 0x1⟩
/-- KX_HUB_JRN_BASE_LO. -/
def hubJrnBaseLo (i : Nat) : Reg := ⟨0x7010 + 0x8 * i, 0x0⟩
/-- KX_HUB_JRN_BASE_HI. -/
def hubJrnBaseHi (i : Nat) : Reg := ⟨0x7014 + 0x8 * i, 0x0⟩
/-- KX_HUB_JRN_STATUS. -/
def hubJrnStatus : Reg := ⟨0x7030, 0x0⟩
/-- KX_HUB_JRN_WIDX_LO. -/
def hubJrnWidxLo : Reg := ⟨0x7034, 0x0⟩
/-- KX_HUB_JRN_WIDX_HI. -/
def hubJrnWidxHi : Reg := ⟨0x7038, 0x0⟩
/-- KX_HUB_JRN_OLDEST_LO. -/
def hubJrnOldestLo : Reg := ⟨0x703C, 0x0⟩
/-- KX_HUB_JRN_OLDEST_HI. -/
def hubJrnOldestHi : Reg := ⟨0x7040, 0x0⟩
/-- KX_HUB_POOL_STAT. -/
def hubPoolStat : Reg := ⟨0x7044, 0x200⟩
/-- KX_HUB_TW_CFG. -/
def hubTwCfg : Reg := ⟨0x7080, 0x19⟩
/-- KX_HUB_TW_STAT. -/
def hubTwStat : Reg := ⟨0x7084, 0x0⟩
/-- KX_HUB_TW_EXCL_CTL. -/
def hubTwExclCtl : Reg := ⟨0x7088, 0x0⟩
/-- KX_HUB_TW_EXCL_BASE_LO. -/
def hubTwExclBaseLo (i : Nat) : Reg := ⟨0x7100 + 0x10 * i, 0x0⟩
/-- KX_HUB_TW_EXCL_BASE_HI. -/
def hubTwExclBaseHi (i : Nat) : Reg := ⟨0x7104 + 0x10 * i, 0x0⟩
/-- KX_HUB_TW_EXCL_LIMIT_LO. -/
def hubTwExclLimitLo (i : Nat) : Reg := ⟨0x7108 + 0x10 * i, 0x0⟩
/-- KX_HUB_TW_EXCL_LIMIT_HI. -/
def hubTwExclLimitHi (i : Nat) : Reg := ⟨0x710C + 0x10 * i, 0x0⟩
/-- KX_HUB_MESH_OWN. -/
def hubMeshOwn (i : Nat) : Reg := ⟨0x7200 + 0x4 * i, 0x80000000⟩
/-- KX_HUB_TRIG_CFG. -/
def hubTrigCfg (i : Nat) : Reg := ⟨0x7220 + 0x4 * i, 0x0⟩
/-- KX_HUB_MESH_STAT. -/
def hubMeshStat : Reg := ⟨0x7240, 0x0⟩
/-- KX_OAS_CTL. -/
def oasCtl : Reg := ⟨0x8000, 0x0⟩
/-- KX_OAS_STATUS. -/
def oasStatus : Reg := ⟨0x8004, 0x0⟩
/-- KX_DBG_CTL. -/
def dbgCtl : Reg := ⟨0x9000, 0x0⟩
/-- KX_DBG_STATUS. -/
def dbgStatus : Reg := ⟨0x9004, 0x0⟩
/-- KX_PIN_CFG. -/
def pinCfg (i : Nat) : Reg := ⟨0xA000 + 0x4 * i, 0x0⟩
/-- KX_PIN_UART. -/
def pinUart : Reg := ⟨0xA020, 0x35⟩
/-- KX_PIN_HOLD_CFG. -/
def pinHoldCfg : Reg := ⟨0xA030, 0x20C80000⟩
/-- KX_PIN_HOLD_STAT. -/
def pinHoldStat : Reg := ⟨0xA034, 0x0⟩
/-- KX_SEAL_CFG. -/
def sealCfg : Reg := ⟨0xB000, 0x64⟩
/-- KX_SEAL_UNITS_LO. -/
def sealUnitsLo : Reg := ⟨0xB004, 0x0⟩
/-- KX_SEAL_UNITS_HI. -/
def sealUnitsHi : Reg := ⟨0xB008, 0x0⟩
/-- KX_SEAL_KEYID. -/
def sealKeyid : Reg := ⟨0xB00C, 0x0⟩
/-- KX_SEAL_STATUS. -/
def sealStatus : Reg := ⟨0xB010, 0x0⟩
/-- KX_SEC_STATUS. -/
def secStatus : Reg := ⟨0xB100, 0x0⟩
/-- KX_SEC_TENANT_LO. -/
def secTenantLo : Reg := ⟨0xB104, 0x0⟩
/-- KX_SEC_TENANT_HI. -/
def secTenantHi : Reg := ⟨0xB108, 0x0⟩
/-- KX_SEC_SERIAL_LO. -/
def secSerialLo : Reg := ⟨0xB10C, 0x0⟩
/-- KX_SEC_SERIAL_HI. -/
def secSerialHi : Reg := ⟨0xB110, 0x0⟩
/-- KX_SEC_TFLOOR_LO. -/
def secTfloorLo : Reg := ⟨0xB114, 0x0⟩
/-- KX_SEC_TFLOOR_HI. -/
def secTfloorHi : Reg := ⟨0xB118, 0x0⟩
/-- KX_SEC_SENS. -/
def secSens : Reg := ⟨0xB11C, 0x0⟩
/-- KX_SEC_PARTDEF. -/
def secPartdef (i : Nat) : Reg := ⟨0xB140 + 0x4 * i, if i = 0 then 1 else 0⟩
/-- KX_LED_CFG. -/
def ledCfg : Reg := ⟨0xC000, 0x1314⟩
/-- KX_LED_BASE_LO. -/
def ledBaseLo (i : Nat) : Reg := ⟨0xC010 + 0x8 * i, 0x0⟩
/-- KX_LED_BASE_HI. -/
def ledBaseHi (i : Nat) : Reg := ⟨0xC014 + 0x8 * i, 0x0⟩
/-- KX_LED_TIMING. -/
def ledTiming : Reg := ⟨0xC020, 0xC800C8⟩
/-- KX_LED_EXP. -/
def ledExp : Reg := ⟨0xC024, 0x0⟩
/-- KX_LED_STATUS. -/
def ledStatus : Reg := ⟨0xC028, 0x0⟩
/-- KX_LED_LIVE. -/
def ledLive : Reg := ⟨0xC02C, 0x0⟩
/-- KX_LED_BACKLOG. -/
def ledBacklog : Reg := ⟨0xC030, 0x0⟩
/-- KX_LED_REFUSE0. -/
def ledRefuse0 : Reg := ⟨0xC034, 0x0⟩
/-- KX_LED_REFUSE1. -/
def ledRefuse1 : Reg := ⟨0xC038, 0x0⟩
/-- KX_LED_EVSTAT. -/
def ledEvstat : Reg := ⟨0xC03C, 0x0⟩
/-- KX_LED_QUOTA. -/
def ledQuota (i : Nat) : Reg := ⟨0xC400 + 0x4 * i, 0x0⟩
/-- KX_EGR_CFG. -/
def egrCfg : Reg := ⟨0xD000, 0xFF00⟩
/-- KX_EGR_MAC_LO. -/
def egrMacLo : Reg := ⟨0xD004, 0x0⟩
/-- KX_EGR_MAC_HI. -/
def egrMacHi : Reg := ⟨0xD008, 0x0⟩
/-- KX_EGR_IP. -/
def egrIp (i : Nat) : Reg := ⟨0xD010 + 0x4 * i, 0x0⟩
/-- KX_EGR_TIMING. -/
def egrTiming : Reg := ⟨0xD020, 0xC803E8⟩
/-- KX_EGR_STATUS. -/
def egrStatus : Reg := ⟨0xD024, 0xC0000⟩
/-- KX_EGR_SCFG. -/
def egrScfg (i : Nat) : Reg := ⟨0xD400 + 0x80 * i, 0x0⟩
/-- KX_EGR_SDST0. -/
def egrSdst0 (i : Nat) : Reg := ⟨0xD404 + 0x80 * i, 0x0⟩
/-- KX_EGR_SDST1. -/
def egrSdst1 (i : Nat) : Reg := ⟨0xD408 + 0x80 * i, 0x0⟩
/-- KX_EGR_SDST2. -/
def egrSdst2 (i : Nat) : Reg := ⟨0xD40C + 0x80 * i, 0x0⟩
/-- KX_EGR_SDST3. -/
def egrSdst3 (i : Nat) : Reg := ⟨0xD410 + 0x80 * i, 0x0⟩
/-- KX_EGR_SPORT. -/
def egrSport (i : Nat) : Reg := ⟨0xD414 + 0x80 * i, 0x0⟩
/-- KX_EGR_SMAC_LO. -/
def egrSmacLo (i : Nat) : Reg := ⟨0xD418 + 0x80 * i, 0x0⟩
/-- KX_EGR_SMAC_HI. -/
def egrSmacHi (i : Nat) : Reg := ⟨0xD41C + 0x80 * i, 0x0⟩
/-- KX_EGR_SUNIT_LO. -/
def egrSunitLo (i : Nat) : Reg := ⟨0xD420 + 0x80 * i, 0xFFFFFFFF⟩
/-- KX_EGR_SUNIT_HI. -/
def egrSunitHi (i : Nat) : Reg := ⟨0xD424 + 0x80 * i, 0xFFFF⟩
/-- KX_EGR_STYPE. -/
def egrStype (i : Nat) : Reg := ⟨0xD428 + 0x80 * i, 0xFFFFFFFF⟩
/-- KX_EGR_SIDX_LO. -/
def egrSidxLo (i : Nat) : Reg := ⟨0xD42C + 0x80 * i, 0x0⟩
/-- KX_EGR_SIDX_HI. -/
def egrSidxHi (i : Nat) : Reg := ⟨0xD430 + 0x80 * i, 0x0⟩
/-- KX_EGR_SSTAT. -/
def egrSstat (i : Nat) : Reg := ⟨0xD434 + 0x80 * i, 0x0⟩
/-- KX_EGR_SCUR_LO. -/
def egrScurLo (i : Nat) : Reg := ⟨0xD438 + 0x80 * i, 0x0⟩
/-- KX_EGR_SCUR_HI. -/
def egrScurHi (i : Nat) : Reg := ⟨0xD43C + 0x80 * i, 0x0⟩
/-- KX_SYN_ID. -/
def synId : Reg := ⟨0xE000, 0x40000000⟩
/-- KX_SYN_PCFG. -/
def synPcfg (i : Nat) : Reg := ⟨0xE004 + 0x4 * i, 0x0⟩
/-- KX_SYN_PSTAT. -/
def synPstat (i : Nat) : Reg := ⟨0xE010 + 0x4 * i, 0x0⟩
/-- KX_SYN_STATUS. -/
def synStatus : Reg := ⟨0xE020, 0x0⟩
/-- KX_SYN_OFFSET_LO. -/
def synOffsetLo : Reg := ⟨0xE024, 0x0⟩
/-- KX_SYN_OFFSET_HI. -/
def synOffsetHi : Reg := ⟨0xE028, 0x0⟩
/-- KX_SYN_VER. -/
def synVer : Reg := ⟨0xE02C, 0x1000000⟩
/-- KX_SYN_FEAT. -/
def synFeat : Reg := ⟨0xE030, 0xF⟩
/-- KX_SYN_NFEAT. -/
def synNfeat : Reg := ⟨0xE034, 0x0⟩
/-- KX_SYN_CLAIM. -/
def synClaim : Reg := ⟨0xE038, 0x0⟩
/-- KX_SYN_SUBCFG. -/
def synSubcfg : Reg := ⟨0xE040, 0x0⟩
/-- KX_SYN_SUBU_LO. -/
def synSubuLo : Reg := ⟨0xE044, 0xFFFFFFFF⟩
/-- KX_SYN_SUBU_HI. -/
def synSubuHi : Reg := ⟨0xE048, 0xFFFF⟩
/-- KX_SYN_SUBT. -/
def synSubt : Reg := ⟨0xE04C, 0xFFFFFFFF⟩
/-- KX_SYN_AGG. -/
def synAgg : Reg := ⟨0xE050, 0x400000⟩
/-- KX_SYN_NBUF_LO. -/
def synNbufLo : Reg := ⟨0xE054, 0x0⟩
/-- KX_SYN_NBUF_HI. -/
def synNbufHi : Reg := ⟨0xE058, 0x0⟩
/-- KX_SYN_NCMD. -/
def synNcmd : Reg := ⟨0xE05C, 0x0⟩
/-- KX_SYN_NT_LO. -/
def synNtLo : Reg := ⟨0xE060, 0x0⟩
/-- KX_SYN_NT_HI. -/
def synNtHi : Reg := ⟨0xE064, 0x0⟩
/-- KX_SYN_NCSTAT. -/
def synNcstat : Reg := ⟨0xE068, 0x0⟩
/-- KX_SYN_NSNAPID. -/
def synNsnapid : Reg := ⟨0xE06C, 0x0⟩
/-- KX_SYN_NMAP_LO. -/
def synNmapLo : Reg := ⟨0xE070, 0x0⟩
/-- KX_SYN_NMAP_HI. -/
def synNmapHi : Reg := ⟨0xE074, 0x0⟩
/-- KX_SYN_DEV. -/
def synDev (i : Nat) : Reg := ⟨0xE100 + 0x4 * i, 0x0⟩
/-- KX_SYN_DEVEP. -/
def synDevep (i : Nat) : Reg := ⟨0xE200 + 0x4 * i, 0x0⟩
/-- KX_CHN_CFG. -/
def chnCfg : Reg := ⟨0x10000, 0x1⟩
/-- KX_CHN_BASE_LO. -/
def chnBaseLo : Reg := ⟨0x10004, 0x0⟩
/-- KX_CHN_BASE_HI. -/
def chnBaseHi : Reg := ⟨0x10008, 0x0⟩
/-- KX_CHN_QCFG. -/
def chnQcfg : Reg := ⟨0x1000C, 0xA⟩
/-- KX_CHN_HBW. -/
def chnHbw : Reg := ⟨0x10010, 0x3E8⟩
/-- KX_CHN_HBWSTAT. -/
def chnHbwstat : Reg := ⟨0x10014, 0x3E8⟩
/-- KX_CHN_STATUS. -/
def chnStatus : Reg := ⟨0x10018, 0x0⟩
/-- KX_CHN_STAGE. -/
def chnStage : Reg := ⟨0x1001C, 0xFFE0⟩
/-- KX_CHN_EXPCFG. -/
def chnExpcfg : Reg := ⟨0x10020, 0x4⟩
/-- KX_CHN_EXPWIN. -/
def chnExpwin : Reg := ⟨0x10024, 0x2710⟩
/-- KX_CHN_EXPBASE_LO. -/
def chnExpbaseLo : Reg := ⟨0x10028, 0x0⟩
/-- KX_CHN_EXPBASE_HI. -/
def chnExpbaseHi : Reg := ⟨0x1002C, 0x0⟩
/-- KX_CHN_EXPSTAT. -/
def chnExpstat : Reg := ⟨0x10030, 0x0⟩
/-- KX_CHN_DETSTAT. -/
def chnDetstat : Reg := ⟨0x10034, 0x0⟩
/-- KX_CHN_SKDEF. -/
def chnSkdef (i : Nat) : Reg := ⟨0x10100 + 0x4 * i, 0x40000000⟩
/-- KX_CHN_SKPAR. -/
def chnSkpar (i : Nat) : Reg := ⟨0x10200 + 0x4 * i, 0x0⟩
/-- KX_CHN_SKWIN. -/
def chnSkwin (i : Nat) : Reg := ⟨0x10300 + 0x4 * i, 0xF4240⟩
/-- KX_CHN_DETCFG. -/
def chnDetcfg (i : Nat) : Reg := ⟨0x10400 + 0x4 * i, 0x3342200⟩
/-- KX_CHN_DETCFG2. -/
def chnDetcfg2 (i : Nat) : Reg := ⟨0x10480 + 0x4 * i, 0x7D000000⟩
/-- KX_CHN_DETWIN. -/
def chnDetwin (i : Nat) : Reg := ⟨0x10500 + 0x4 * i, 0x2710⟩
/-- KX_CHN_DETABS. -/
def chnDetabs (i : Nat) : Reg := ⟨0x10580 + 0x4 * i, 0x0⟩
/-- KX_CHN_PORTMAP. -/
def chnPortmap (i : Nat) : Reg := ⟨0x10800 + 0x4 * i, 0x0⟩
/-- KX_CTX_INFO. -/
def ctxInfo (i : Nat) : Reg := ⟨0x20000 + 0x4 * i, if i < 16 then 0x24001000 else 0⟩
/-- KX_CTX_PASID. -/
def ctxPasid (i : Nat) : Reg := ⟨0x24000 + 0x4 * i, 0x0⟩
/-- KX_CTX_LOG_CFG. -/
def ctxLogCfg : Reg := ⟨0x28000, 0x0⟩
/-- KX_CTX_LOG_LO. -/
def ctxLogLo (i : Nat) : Reg := ⟨0x28010 + 0x8 * i, 0x0⟩
/-- KX_CTX_LOG_HI. -/
def ctxLogHi (i : Nat) : Reg := ⟨0x28014 + 0x8 * i, 0x0⟩
/-- KX_STN_TSTAT. -/
def stnTstat (n : Nat) : Reg := ⟨0x2000000 + 0x10000 * n + 0x0, 0x0⟩
/-- KX_STN_TASYM. -/
def stnTasym (n : Nat) : Reg := ⟨0x2000000 + 0x10000 * n + 0x4, 0x0⟩
/-- KX_STN_CURD_CFG. -/
def stnCurdCfg (n : Nat) : Reg := ⟨0x2000000 + 0x10000 * n + 0x8, 0x8⟩
/-- KX_STN_CNT_CFG. -/
def stnCntCfg (n : Nat) : Reg := ⟨0x2000000 + 0x10000 * n + 0x10, 0x3E8⟩
/-- KX_STN_CNT_STAT. -/
def stnCntStat (n : Nat) : Reg := ⟨0x2000000 + 0x10000 * n + 0x14, 0x3E8⟩
/-- KX_STN_PCS_CFG. -/
def stnPcsCfg (n : Nat) : Reg := ⟨0x2000000 + 0x10000 * n + 0x20, 0x11800000⟩
/-- KX_STN_PCS_MST. -/
def stnPcsMst (n : Nat) : Reg := ⟨0x2000000 + 0x10000 * n + 0x24, 0xFFFFFFFF⟩
/-- KX_STN_PCS_SEED. -/
def stnPcsSeed (n : Nat) : Reg := ⟨0x2000000 + 0x10000 * n + 0x28, 0x1⟩
/-- KX_STN_PCS_STAT. -/
def stnPcsStat (n : Nat) : Reg := ⟨0x2000000 + 0x10000 * n + 0x2C, 0x40000000⟩
/-- KX_STN_MK_CFG. -/
def stnMkCfg (n : Nat) : Reg := ⟨0x2000000 + 0x10000 * n + 0x30, 0x3E8⟩
/-- KX_STN_MK_STAT. -/
def stnMkStat (n : Nat) : Reg := ⟨0x2000000 + 0x10000 * n + 0x34, 0x0⟩
/-- KX_STN_SEQ_CFG. -/
def stnSeqCfg (n : Nat) : Reg := ⟨0x2000000 + 0x10000 * n + 0x40, 0x80⟩
/-- KX_STN_SEQ_STAT. -/
def stnSeqStat (n : Nat) : Reg := ⟨0x2000000 + 0x10000 * n + 0x44, 0x0⟩
/-- KX_STN_SEQ_OC. -/
def stnSeqOc (n : Nat) (i : Nat) : Reg := ⟨0x2000000 + 0x10000 * n + 0x48 + 0x4 * i, 0x1⟩
/-- KX_STN_SEQ_TMR. -/
def stnSeqTmr (n : Nat) : Reg := ⟨0x2000000 + 0x10000 * n + 0x50, 0x1⟩
/-- KX_STN_FL_EN. -/
def stnFlEn (n : Nat) : Reg := ⟨0x2000000 + 0x10000 * n + 0x60, 0x0⟩
/-- KX_STN_FL_CFG. -/
def stnFlCfg (n : Nat) : Reg := ⟨0x2000000 + 0x10000 * n + 0x64, 0x3⟩
/-- KX_STN_FL_STAT. -/
def stnFlStat (n : Nat) : Reg := ⟨0x2000000 + 0x10000 * n + 0x68, 0x0⟩
/-- KX_STN_FL_STALL. -/
def stnFlStall (n : Nat) : Reg := ⟨0x2000000 + 0x10000 * n + 0x6C, 0x0⟩
/-- KX_STN_TW_CFG. -/
def stnTwCfg (n : Nat) : Reg := ⟨0x2000000 + 0x10000 * n + 0x70, 0x10003E8⟩
/-- KX_STN_TW_STAT0. -/
def stnTwStat0 (n : Nat) : Reg := ⟨0x2000000 + 0x10000 * n + 0x74, 0x0⟩
/-- KX_STN_TW_STAT1. -/
def stnTwStat1 (n : Nat) : Reg := ⟨0x2000000 + 0x10000 * n + 0x78, 0x0⟩
/-- KX_STN_TW_NFLAG. -/
def stnTwNflag (n : Nat) : Reg := ⟨0x2000000 + 0x10000 * n + 0x7C, 0x0⟩
/-- KX_STN_SKSTAT. -/
def stnSkstat (n : Nat) : Reg := ⟨0x2000000 + 0x10000 * n + 0x80, 0x0⟩
/-- KX_STN_BWCFG. -/
def stnBwcfg (n : Nat) (i : Nat) : Reg := ⟨0x2000000 + 0x10000 * n + 0x90 + 0x4 * i, 0x3E8⟩
/-- KX_STN_BWSTAT. -/
def stnBwstat (n : Nat) (i : Nat) : Reg := ⟨0x2000000 + 0x10000 * n + 0xA0 + 0x4 * i, 0x3E8⟩
/-- KX_STN_SKCFG. -/
def stnSkcfg (n : Nat) (i : Nat) : Reg := ⟨0x2000000 + 0x10000 * n + 0xB0 + 0x4 * i, 0x60000000⟩
/-- KX_STN_SKMST. -/
def stnSkmst (n : Nat) (i : Nat) : Reg := ⟨0x2000000 + 0x10000 * n + 0xC0 + 0x4 * i, 0xFFFFFFFF⟩
/-- KX_STN_PART. -/
def stnPart (n : Nat) (i : Nat) : Reg := ⟨0x2000000 + 0x10000 * n + 0xE0 + 0x4 * i, 0x0⟩
/-- KX_STN_SEQ_CA. -/
def stnSeqCa (n : Nat) (i : Nat) : Reg := ⟨0x2000000 + 0x10000 * n + 0x100 + 0x4 * i, 0x0⟩
/-- KX_STN_SEQ_CB. -/
def stnSeqCb (n : Nat) (i : Nat) : Reg := ⟨0x2000000 + 0x10000 * n + 0x120 + 0x4 * i, 0x0⟩
/-- KX_STN_SEQ_ACT. -/
def stnSeqAct (n : Nat) (i : Nat) : Reg := ⟨0x2000000 + 0x10000 * n + 0x140 + 0x4 * i, 0x0⟩
/-- KX_STN_CMP_CFG. -/
def stnCmpCfg (n : Nat) (i : Nat) : Reg := ⟨0x2000000 + 0x10000 * n + 0x180 + 0x4 * i, 0xC000000⟩
/-- KX_STN_CMP_VAL. -/
def stnCmpVal (n : Nat) (i : Nat) : Reg := ⟨0x2000000 + 0x10000 * n + 0x1C0 + 0x4 * i, 0x0⟩
/-- KX_STN_CMP_MASK. -/
def stnCmpMask (n : Nat) (i : Nat) : Reg := ⟨0x2000000 + 0x10000 * n + 0x200 + 0x4 * i, 0x0⟩
/-- KX_STN_CMP_MST. -/
def stnCmpMst (n : Nat) (i : Nat) : Reg := ⟨0x2000000 + 0x10000 * n + 0x240 + 0x4 * i, 0xFFFFFFFF⟩
/-- KX_STN_WIN_CFG. -/
def stnWinCfg (n : Nat) (i : Nat) : Reg := ⟨0x2000000 + 0x10000 * n + 0x280 + 0x4 * i, 0x0⟩
/-- KX_STN_WIN_BASE_LO. -/
def stnWinBaseLo (n : Nat) (i : Nat) : Reg := ⟨0x2000000 + 0x10000 * n + 0x2C0 + 0x4 * i, 0x0⟩
/-- KX_STN_WIN_BASE_HI. -/
def stnWinBaseHi (n : Nat) (i : Nat) : Reg := ⟨0x2000000 + 0x10000 * n + 0x300 + 0x4 * i, 0x0⟩
/-- KX_STN_WIN_LIMIT_LO. -/
def stnWinLimitLo (n : Nat) (i : Nat) : Reg := ⟨0x2000000 + 0x10000 * n + 0x340 + 0x4 * i, 0x0⟩
/-- KX_STN_WIN_LIMIT_HI. -/
def stnWinLimitHi (n : Nat) (i : Nat) : Reg := ⟨0x2000000 + 0x10000 * n + 0x380 + 0x4 * i, 0x0⟩
/-- KX_STN_MK_SRC. -/
def stnMkSrc (n : Nat) (i : Nat) : Reg := ⟨0x2000000 + 0x10000 * n + 0x400 + 0x4 * i, 0xC000000⟩
/-- KX_STN_COVF. -/
def stnCovf (n : Nat) (i : Nat) : Reg := ⟨0x2000000 + 0x10000 * n + 0x500 + 0x4 * i, 0x0⟩
/-- KX_STN_CSEL. -/
def stnCsel (n : Nat) (i : Nat) : Reg := ⟨0x2000000 + 0x10000 * n + 0x1000 + 0x4 * i, 0x1800000⟩
/-- KX_STN_CMST. -/
def stnCmst (n : Nat) (i : Nat) : Reg := ⟨0x2000000 + 0x10000 * n + 0x1400 + 0x4 * i, 0xFFFFFFFF⟩
/-- KX_STN_CWIN. -/
def stnCwin (n : Nat) (i : Nat) : Reg := ⟨0x2000000 + 0x10000 * n + 0x1800 + 0x4 * i, 0x0⟩
/-- KX_STN_LINFO. -/
def stnLinfo (n : Nat) (i : Nat) : Reg := ⟨0x2000000 + 0x10000 * n + 0x2000 + 0x4 * i, 0x0⟩
/-- KX_STN_AO_LO. -/
def stnAoLo (n : Nat) (i : Nat) : Reg := ⟨0x2000000 + 0x10000 * n + 0x600 + 0x8 * i, 0x0⟩
/-- KX_STN_AO_HI. -/
def stnAoHi (n : Nat) (i : Nat) : Reg := ⟨0x2000000 + 0x10000 * n + 0x604 + 0x8 * i, 0x0⟩
/-- KX_STN_CNT_LO. -/
def stnCntLo (n : Nat) (i : Nat) : Reg := ⟨0x2000000 + 0x10000 * n + 0x800 + 0x8 * i, 0x0⟩
/-- KX_STN_CNT_HI. -/
def stnCntHi (n : Nat) (i : Nat) : Reg := ⟨0x2000000 + 0x10000 * n + 0x804 + 0x8 * i, 0x0⟩
/-- KX_CTX_DB_CMD. -/
def ctxDbCmd (c : Nat) : Reg := ⟨0x1000000 + 0x1000 * c + 0x0, 0x0⟩
/-- KX_CTX_DB_CPL. -/
def ctxDbCpl (c : Nat) : Reg := ⟨0x1000000 + 0x1000 * c + 0x4, 0x0⟩
/-- KX_CTX_DB_REC. -/
def ctxDbRec (c : Nat) (i : Nat) : Reg := ⟨0x1000000 + 0x1000 * c + 0x8 + 0x4 * i, 0x0⟩
/-- KX_CTX_STATUS. -/
def ctxStatus (c : Nat) : Reg := ⟨0x1000000 + 0x1000 * c + 0x40, 0x0⟩
/-- KX_CTX_LEVEL. -/
def ctxLevel (c : Nat) : Reg := ⟨0x1000000 + 0x1000 * c + 0x44, 0x0⟩
/-- KX_CTX_WMCNT0. -/
def ctxWmcnt0 (c : Nat) : Reg := ⟨0x1000000 + 0x1000 * c + 0x48, 0x0⟩
/-- KX_CTX_WMCNT1. -/
def ctxWmcnt1 (c : Nat) : Reg := ⟨0x1000000 + 0x1000 * c + 0x4C, 0x0⟩
/-- KX_CTX_CTL. -/
def ctxCtl (c : Nat) : Reg := ⟨0x1000000 + 0x1000 * c + 0x50, 0x0⟩
/-- KX_CTX_SELF. -/
def ctxSelf (c : Nat) : Reg := ⟨0x1000000 + 0x1000 * c + 0x54, if c < 16 then 0x24001000 else 0⟩
/-- KX_CTX_SEQ0_LO. -/
def ctxSeq0Lo (c : Nat) : Reg := ⟨0x1000000 + 0x1000 * c + 0x58, 0x0⟩
/-- KX_CTX_SEQ0_HI. -/
def ctxSeq0Hi (c : Nat) : Reg := ⟨0x1000000 + 0x1000 * c + 0x5C, 0x0⟩
/-- KX_CTX_NEXTSEQ_LO. -/
def ctxNextseqLo (c : Nat) : Reg := ⟨0x1000000 + 0x1000 * c + 0x60, 0x0⟩
/-- KX_CTX_NEXTSEQ_HI. -/
def ctxNextseqHi (c : Nat) : Reg := ⟨0x1000000 + 0x1000 * c + 0x64, 0x0⟩
/-- KX_CTX_CMD_BASE_LO. -/
def ctxCmdBaseLo (c : Nat) : Reg := ⟨0x1000000 + 0x1000 * c + 0x80, 0x0⟩
/-- KX_CTX_CMD_BASE_HI. -/
def ctxCmdBaseHi (c : Nat) : Reg := ⟨0x1000000 + 0x1000 * c + 0x84, 0x0⟩
/-- KX_CTX_CMD_CFG. -/
def ctxCmdCfg (c : Nat) : Reg := ⟨0x1000000 + 0x1000 * c + 0x88, 0x4⟩
/-- KX_CTX_CPL_BASE_LO. -/
def ctxCplBaseLo (c : Nat) : Reg := ⟨0x1000000 + 0x1000 * c + 0x90, 0x0⟩
/-- KX_CTX_CPL_BASE_HI. -/
def ctxCplBaseHi (c : Nat) : Reg := ⟨0x1000000 + 0x1000 * c + 0x94, 0x0⟩
/-- KX_CTX_CPL_CFG. -/
def ctxCplCfg (c : Nat) : Reg := ⟨0x1000000 + 0x1000 * c + 0x98, 0x104⟩
/-- KX_CTX_REC_DATA_LO. -/
def ctxRecDataLo (c : Nat) (i : Nat) : Reg := ⟨0x1000000 + 0x1000 * c + 0x100 + 0x20 * i, 0x0⟩
/-- KX_CTX_REC_DATA_HI. -/
def ctxRecDataHi (c : Nat) (i : Nat) : Reg := ⟨0x1000000 + 0x1000 * c + 0x104 + 0x20 * i, 0x0⟩
/-- KX_CTX_REC_ENT_LO. -/
def ctxRecEntLo (c : Nat) (i : Nat) : Reg := ⟨0x1000000 + 0x1000 * c + 0x108 + 0x20 * i, 0x0⟩
/-- KX_CTX_REC_ENT_HI. -/
def ctxRecEntHi (c : Nat) (i : Nat) : Reg := ⟨0x1000000 + 0x1000 * c + 0x10C + 0x20 * i, 0x0⟩
/-- KX_CTX_REC_CFG. -/
def ctxRecCfg (c : Nat) (i : Nat) : Reg := ⟨0x1000000 + 0x1000 * c + 0x110 + 0x20 * i, 0x400C040⟩

/-- Which window a row of the register table lies in. -/
inductive Space where
  | hub | stn | ctx
  deriving DecidableEq, Repr

/-- One row of the register table: where it lies, how many copies at what step, and the mask of each access type of
Table 0.5. Bits in no mask are read-only or reserved. -/
structure Row where
  space : Space
  off   : Nat
  step  : Nat
  count : Nat
  rst   : Nat
  rw    : Nat := 0
  rws   : Nat := 0
  rwp   : Nat := 0
  w1c   : Nat := 0
  w1s   : Nat := 0
  wo    : Nat := 0
  rc    : Nat := 0
  deriving DecidableEq, Repr

/-- Rows of the hub window, part 0. -/
def hubRows0 : List Row := [
  { space := .hub, off := 0x0, step := 0x4, count := 1, rst := 0x0 },
  { space := .hub, off := 0x4, step := 0x4, count := 1, rst := 0x1001000 },
  { space := .hub, off := 0x8, step := 0x4, count := 1, rst := 0x0 },
  { space := .hub, off := 0xC, step := 0x4, count := 1, rst := 0x0 },
  { space := .hub, off := 0x10, step := 0x4, count := 1, rst := 0x0 },
  { space := .hub, off := 0x14, step := 0x4, count := 1, rst := 0x0, w1c := 0xFF },
  { space := .hub, off := 0x18, step := 0x4, count := 1, rst := 0x0 },
  { space := .hub, off := 0x20, step := 0x4, count := 1, rst := 0x1 },
  { space := .hub, off := 0x24, step := 0x4, count := 1, rst := 0x0, rws := 0xC0000000 },
  { space := .hub, off := 0x28, step := 0x4, count := 1, rst := 0x0, rws := 0xFFFFFFFF },
  { space := .hub, off := 0x2C, step := 0x4, count := 1, rst := 0x0, rws := 0xFF },
  { space := .hub, off := 0x40, step := 0x4, count := 1, rst := 0x0, rw := 0xFFFF },
  { space := .hub, off := 0x44, step := 0x4, count := 1, rst := 0x0 },
  { space := .hub, off := 0x48, step := 0x4, count := 1, rst := 0x0, rws := 0xC0000000 },
  { space := .hub, off := 0x80, step := 0x4, count := 1, rst := 0x100008, rws := 0xC0FF001F },
  { space := .hub, off := 0x84, step := 0x4, count := 1, rst := 0x0, rws := 0xFFFFF000 },
  { space := .hub, off := 0x88, step := 0x4, count := 1, rst := 0x0, rws := 0xFFFFFFFF },
  { space := .hub, off := 0x8C, step := 0x4, count := 1, rst := 0x0, rws := 0xFFFFFFF8 },
  { space := .hub, off := 0x90, step := 0x4, count := 1, rst := 0x0, rws := 0xFFFFFFFF },
  { space := .hub, off := 0x94, step := 0x4, count := 1, rst := 0x0 },
  { space := .hub, off := 0x98, step := 0x4, count := 1, rst := 0x0, rw := 0xFFFFFFFF },
  { space := .hub, off := 0x9C, step := 0x4, count := 1, rst := 0x0, w1c := 0xE000, rc := 0xFFFF0000 },
  { space := .hub, off := 0x1000, step := 0x4, count := 1, rst := 0x0, w1c := 0xC2, rc := 0xFF00 },
  { space := .hub, off := 0x1004, step := 0x4, count := 1, rst := 0x64000000, rws := 0xFFCFFF03 }]

/-- Rows of the hub window, part 1. -/
def hubRows1 : List Row := [
  { space := .hub, off := 0x1008, step := 0x4, count := 1, rst := 0x1, rws := 0xFFF },
  { space := .hub, off := 0x1010, step := 0x4, count := 1, rst := 0x0 },
  { space := .hub, off := 0x1014, step := 0x4, count := 1, rst := 0x0 },
  { space := .hub, off := 0x2000, step := 0x4, count := 1, rst := 0x10, rws := 0x3FF0004, w1c := 0x10, w1s := 0x2 },
  { space := .hub, off := 0x2004, step := 0x4, count := 1, rst := 0x0 },
  { space := .hub, off := 0x2008, step := 0x4, count := 1, rst := 0x0 },
  { space := .hub, off := 0x200C, step := 0x4, count := 1, rst := 0x0 },
  { space := .hub, off := 0x2010, step := 0x4, count := 1, rst := 0x0, rws := 0xFFFFFFFF },
  { space := .hub, off := 0x2014, step := 0x4, count := 1, rst := 0x0, rws := 0xFFFF },
  { space := .hub, off := 0x3000, step := 0x4, count := 1, rst := 0x0, wo := 0xFFFF03FF },
  { space := .hub, off := 0x3004, step := 0x4, count := 1, rst := 0x0, wo := 0xFFFF0000 },
  { space := .hub, off := 0x3008, step := 0x4, count := 1, rst := 0x0 },
  { space := .hub, off := 0x300C, step := 0x4, count := 1, rst := 0x0, w1c := 0x6 },
  { space := .hub, off := 0x3010, step := 0x4, count := 1, rst := 0x64, rws := 0x3FF },
  { space := .hub, off := 0x4000, step := 0x4, count := 1, rst := 0x0, wo := 0xE0000000 },
  { space := .hub, off := 0x4004, step := 0x4, count := 1, rst := 0x0, rws := 0xFFFFFFFF },
  { space := .hub, off := 0x4008, step := 0x4, count := 1, rst := 0x0, rws := 0xFFFFFFFF },
  { space := .hub, off := 0x400C, step := 0x4, count := 1, rst := 0x0, w1c := 0x800000 },
  { space := .hub, off := 0x4010, step := 0x4, count := 1, rst := 0x0 },
  { space := .hub, off := 0x4014, step := 0x4, count := 1, rst := 0x0 },
  { space := .hub, off := 0x4018, step := 0x4, count := 1, rst := 0x0 },
  { space := .hub, off := 0x5000, step := 0x80, count := 16, rst := 0x0, rws := 0xE0000000 },
  { space := .hub, off := 0x5004, step := 0x80, count := 16, rst := 0x0, wo := 0xF },
  { space := .hub, off := 0x5008, step := 0x80, count := 16, rst := 0x800000, w1c := 0x1E }]

/-- Rows of the hub window, part 2. -/
def hubRows2 : List Row := [
  { space := .hub, off := 0x500C, step := 0x80, count := 16, rst := 0x0, rc := 0x80FFFFFF },
  { space := .hub, off := 0x5010, step := 0x80, count := 16, rst := 0x0 },
  { space := .hub, off := 0x5014, step := 0x80, count := 16, rst := 0x0, wo := 0xFFFF },
  { space := .hub, off := 0x5020, step := 0x80, count := 16, rst := 0x0, rw := 0xFFFFFFFF },
  { space := .hub, off := 0x5040, step := 0x80, count := 16, rst := 0x0 },
  { space := .hub, off := 0x5024, step := 0x80, count := 16, rst := 0x0, rw := 0xFFFFFFFF },
  { space := .hub, off := 0x5044, step := 0x80, count := 16, rst := 0x0 },
  { space := .hub, off := 0x5028, step := 0x80, count := 16, rst := 0x0, rw := 0xFFFFFFFF },
  { space := .hub, off := 0x5048, step := 0x80, count := 16, rst := 0x0 },
  { space := .hub, off := 0x502C, step := 0x80, count := 16, rst := 0x0, rw := 0xFFFFFFFF },
  { space := .hub, off := 0x504C, step := 0x80, count := 16, rst := 0x0 },
  { space := .hub, off := 0x5030, step := 0x80, count := 16, rst := 0x0, rw := 0xFFFFFFFF },
  { space := .hub, off := 0x5050, step := 0x80, count := 16, rst := 0x0 },
  { space := .hub, off := 0x5034, step := 0x80, count := 16, rst := 0x0, rw := 0xFFFFFFFF },
  { space := .hub, off := 0x5054, step := 0x80, count := 16, rst := 0x0 },
  { space := .hub, off := 0x5038, step := 0x80, count := 16, rst := 0x0, rw := 0xFFFFFFFF },
  { space := .hub, off := 0x5058, step := 0x80, count := 16, rst := 0x0 },
  { space := .hub, off := 0x503C, step := 0x80, count := 16, rst := 0x0, rw := 0xFFFFFFFF },
  { space := .hub, off := 0x505C, step := 0x80, count := 16, rst := 0x0 },
  { space := .hub, off := 0x6000, step := 0x4, count := 1, rst := 0x644B00, rwp := 0x1FFFF00 },
  { space := .hub, off := 0x6004, step := 0x4, count := 1, rst := 0x0, rws := 0xFFFF },
  { space := .hub, off := 0x6008, step := 0x4, count := 1, rst := 0x3E8, rwp := 0x1FFFF },
  { space := .hub, off := 0x600C, step := 0x4, count := 1, rst := 0x1F, rwp := 0x1F },
  { space := .hub, off := 0x6010, step := 0x4, count := 1, rst := 0x0, rc := 0xFFFF }]

/-- Rows of the hub window, part 3. -/
def hubRows3 : List Row := [
  { space := .hub, off := 0x6014, step := 0x4, count := 1, rst := 0x0 },
  { space := .hub, off := 0x7000, step := 0x4, count := 1, rst := 0x1, rws := 0xC0FFF07F },
  { space := .hub, off := 0x7010, step := 0x8, count := 3, rst := 0x0, rws := 0xFFF00000 },
  { space := .hub, off := 0x7014, step := 0x8, count := 3, rst := 0x0, rws := 0xFFFF },
  { space := .hub, off := 0x7030, step := 0x4, count := 1, rst := 0x0, w1c := 0x3C0, rc := 0xFF000000 },
  { space := .hub, off := 0x7034, step := 0x4, count := 1, rst := 0x0 },
  { space := .hub, off := 0x7038, step := 0x4, count := 1, rst := 0x0 },
  { space := .hub, off := 0x703C, step := 0x4, count := 1, rst := 0x0 },
  { space := .hub, off := 0x7040, step := 0x4, count := 1, rst := 0x0 },
  { space := .hub, off := 0x7044, step := 0x4, count := 1, rst := 0x200, rc := 0xFFFF0000 },
  { space := .hub, off := 0x7080, step := 0x4, count := 1, rst := 0x19, rws := 0x8000007F },
  { space := .hub, off := 0x7084, step := 0x4, count := 1, rst := 0x0, w1c := 0x300 },
  { space := .hub, off := 0x7088, step := 0x4, count := 1, rst := 0x0, rws := 0xFF, w1s := 0x80000000 },
  { space := .hub, off := 0x7100, step := 0x10, count := 8, rst := 0x0, rws := 0xFFFFFFFF },
  { space := .hub, off := 0x7104, step := 0x10, count := 8, rst := 0x0, rws := 0xFFFF },
  { space := .hub, off := 0x7108, step := 0x10, count := 8, rst := 0x0, rws := 0xFFFFFFFF },
  { space := .hub, off := 0x710C, step := 0x10, count := 8, rst := 0x0, rws := 0xFFFF },
  { space := .hub, off := 0x7200, step := 0x4, count := 8, rst := 0x80000000, rws := 0x800000FF },
  { space := .hub, off := 0x7220, step := 0x4, count := 8, rst := 0x0, rwp := 0xF0000000 },
  { space := .hub, off := 0x7240, step := 0x4, count := 1, rst := 0x0, rc := 0xFF },
  { space := .hub, off := 0x8000, step := 0x4, count := 1, rst := 0x0, rws := 0xE0000000 },
  { space := .hub, off := 0x8004, step := 0x4, count := 1, rst := 0x0 },
  { space := .hub, off := 0x9000, step := 0x4, count := 1, rst := 0x0, rw := 0x80FF0100 },
  { space := .hub, off := 0x9004, step := 0x4, count := 1, rst := 0x0 }]

/-- Rows of the hub window, part 4. -/
def hubRows4 : List Row := [
  { space := .hub, off := 0xA000, step := 0x4, count := 8, rst := 0x0, rwp := 0xF007F000 },
  { space := .hub, off := 0xA020, step := 0x4, count := 1, rst := 0x35, rws := 0xFFFF },
  { space := .hub, off := 0xA030, step := 0x4, count := 1, rst := 0x20C80000, rws := 0xEFFCFFFF },
  { space := .hub, off := 0xA034, step := 0x4, count := 1, rst := 0x0, w1c := 0x8, rc := 0xFFFF0000 },
  { space := .hub, off := 0xB000, step := 0x4, count := 1, rst := 0x64, rwp := 0xC00003FF },
  { space := .hub, off := 0xB004, step := 0x4, count := 1, rst := 0x0, rwp := 0xFFFFFFFF },
  { space := .hub, off := 0xB008, step := 0x4, count := 1, rst := 0x0, rwp := 0xFFFF },
  { space := .hub, off := 0xB00C, step := 0x4, count := 1, rst := 0x0 },
  { space := .hub, off := 0xB010, step := 0x4, count := 1, rst := 0x0, rc := 0xFFFF },
  { space := .hub, off := 0xB100, step := 0x4, count := 1, rst := 0x0 },
  { space := .hub, off := 0xB104, step := 0x4, count := 1, rst := 0x0 },
  { space := .hub, off := 0xB108, step := 0x4, count := 1, rst := 0x0 },
  { space := .hub, off := 0xB10C, step := 0x4, count := 1, rst := 0x0 },
  { space := .hub, off := 0xB110, step := 0x4, count := 1, rst := 0x0 },
  { space := .hub, off := 0xB114, step := 0x4, count := 1, rst := 0x0 },
  { space := .hub, off := 0xB118, step := 0x4, count := 1, rst := 0x0 },
  { space := .hub, off := 0xB11C, step := 0x4, count := 1, rst := 0x0, rws := 0x80000FDF },
  { space := .hub, off := 0xB140, step := 0x4, count := 1, rst := 0x1, rwp := 0xFFFFFFFF },
  { space := .hub, off := 0xB144, step := 0x4, count := 7, rst := 0x0, rwp := 0xFFFFFFFF },
  { space := .hub, off := 0xC000, step := 0x4, count := 1, rst := 0x1314, rws := 0xC0FF1F1F },
  { space := .hub, off := 0xC010, step := 0x8, count := 2, rst := 0x0, rws := 0xFFF00000 },
  { space := .hub, off := 0xC014, step := 0x8, count := 2, rst := 0x0, rws := 0xFFFF },
  { space := .hub, off := 0xC020, step := 0x4, count := 1, rst := 0xC800C8, rwp := 0xFFFFFFFF },
  { space := .hub, off := 0xC024, step := 0x4, count := 1, rst := 0x0, rwp := 0xFFFF000F }]

/-- Rows of the hub window, part 5. -/
def hubRows5 : List Row := [
  { space := .hub, off := 0xC028, step := 0x4, count := 1, rst := 0x0, w1c := 0xF8 },
  { space := .hub, off := 0xC02C, step := 0x4, count := 1, rst := 0x0 },
  { space := .hub, off := 0xC030, step := 0x4, count := 1, rst := 0x0 },
  { space := .hub, off := 0xC034, step := 0x4, count := 1, rst := 0x0, rc := 0xFFFFFFFF },
  { space := .hub, off := 0xC038, step := 0x4, count := 1, rst := 0x0, rc := 0xFFFFFFFF },
  { space := .hub, off := 0xC03C, step := 0x4, count := 1, rst := 0x0, rc := 0xFFFFFFFF },
  { space := .hub, off := 0xC400, step := 0x4, count := 256, rst := 0x0, rwp := 0x1FFFFF },
  { space := .hub, off := 0xD000, step := 0x4, count := 1, rst := 0xFF00, rws := 0xFFFFFF07 },
  { space := .hub, off := 0xD004, step := 0x4, count := 1, rst := 0x0, rws := 0xFFFFFFFF },
  { space := .hub, off := 0xD008, step := 0x4, count := 1, rst := 0x0, rws := 0xFFFF },
  { space := .hub, off := 0xD010, step := 0x4, count := 4, rst := 0x0, rws := 0xFFFFFFFF },
  { space := .hub, off := 0xD020, step := 0x4, count := 1, rst := 0xC803E8, rws := 0xFFFFFFFF },
  { space := .hub, off := 0xD024, step := 0x4, count := 1, rst := 0xC0000, w1c := 0x30000, rc := 0xFFFF },
  { space := .hub, off := 0xD400, step := 0x80, count := 16, rst := 0x0, rws := 0xFFFFFFFF },
  { space := .hub, off := 0xD404, step := 0x80, count := 16, rst := 0x0, rws := 0xFFFFFFFF },
  { space := .hub, off := 0xD408, step := 0x80, count := 16, rst := 0x0, rws := 0xFFFFFFFF },
  { space := .hub, off := 0xD40C, step := 0x80, count := 16, rst := 0x0, rws := 0xFFFFFFFF },
  { space := .hub, off := 0xD410, step := 0x80, count := 16, rst := 0x0, rws := 0xFFFFFFFF },
  { space := .hub, off := 0xD414, step := 0x80, count := 16, rst := 0x0, rws := 0xFFFFFFFF },
  { space := .hub, off := 0xD418, step := 0x80, count := 16, rst := 0x0, rws := 0xFFFFFFFF },
  { space := .hub, off := 0xD41C, step := 0x80, count := 16, rst := 0x0, rws := 0xFFFF },
  { space := .hub, off := 0xD420, step := 0x80, count := 16, rst := 0xFFFFFFFF, rws := 0xFFFFFFFF },
  { space := .hub, off := 0xD424, step := 0x80, count := 16, rst := 0xFFFF, rws := 0xFFFF },
  { space := .hub, off := 0xD428, step := 0x80, count := 16, rst := 0xFFFFFFFF, rws := 0xFFFFFFFF }]

/-- Rows of the hub window, part 6. -/
def hubRows6 : List Row := [
  { space := .hub, off := 0xD42C, step := 0x80, count := 16, rst := 0x0, rws := 0xFFFFFFFF },
  { space := .hub, off := 0xD430, step := 0x80, count := 16, rst := 0x0, rws := 0xFFFFFFFF },
  { space := .hub, off := 0xD434, step := 0x80, count := 16, rst := 0x0, w1c := 0x10000000, rc := 0xFFFFFF },
  { space := .hub, off := 0xD438, step := 0x80, count := 16, rst := 0x0 },
  { space := .hub, off := 0xD43C, step := 0x80, count := 16, rst := 0x0 },
  { space := .hub, off := 0xE000, step := 0x4, count := 1, rst := 0x40000000, rws := 0xC000003F },
  { space := .hub, off := 0xE004, step := 0x4, count := 3, rst := 0x0, rws := 0x80000FFF },
  { space := .hub, off := 0xE010, step := 0x4, count := 3, rst := 0x0, rc := 0xFF },
  { space := .hub, off := 0xE020, step := 0x4, count := 1, rst := 0x0, w1c := 0x30 },
  { space := .hub, off := 0xE024, step := 0x4, count := 1, rst := 0x0 },
  { space := .hub, off := 0xE028, step := 0x4, count := 1, rst := 0x0 },
  { space := .hub, off := 0xE02C, step := 0x4, count := 1, rst := 0x1000000 },
  { space := .hub, off := 0xE030, step := 0x4, count := 1, rst := 0xF },
  { space := .hub, off := 0xE034, step := 0x4, count := 1, rst := 0x0 },
  { space := .hub, off := 0xE038, step := 0x4, count := 1, rst := 0x0, rws := 0x80000000 },
  { space := .hub, off := 0xE040, step := 0x4, count := 1, rst := 0x0, rws := 0x80000003 },
  { space := .hub, off := 0xE044, step := 0x4, count := 1, rst := 0xFFFFFFFF, rws := 0xFFFFFFFF },
  { space := .hub, off := 0xE048, step := 0x4, count := 1, rst := 0xFFFF, rws := 0xFFFF },
  { space := .hub, off := 0xE04C, step := 0x4, count := 1, rst := 0xFFFFFFFF, rws := 0xFFFFFFFF },
  { space := .hub, off := 0xE050, step := 0x4, count := 1, rst := 0x400000, rws := 0x8FF00F07 },
  { space := .hub, off := 0xE054, step := 0x4, count := 1, rst := 0x0, rws := 0xFFF00000 },
  { space := .hub, off := 0xE058, step := 0x4, count := 1, rst := 0x0, rws := 0xFFFF },
  { space := .hub, off := 0xE05C, step := 0x4, count := 1, rst := 0x0, wo := 0xC0000000 },
  { space := .hub, off := 0xE060, step := 0x4, count := 1, rst := 0x0, rws := 0xFFFFFFFF }]

/-- Rows of the hub window, part 7. -/
def hubRows7 : List Row := [
  { space := .hub, off := 0xE064, step := 0x4, count := 1, rst := 0x0, rws := 0xFFFFFFFF },
  { space := .hub, off := 0xE068, step := 0x4, count := 1, rst := 0x0 },
  { space := .hub, off := 0xE06C, step := 0x4, count := 1, rst := 0x0 },
  { space := .hub, off := 0xE070, step := 0x4, count := 1, rst := 0x0 },
  { space := .hub, off := 0xE074, step := 0x4, count := 1, rst := 0x0 },
  { space := .hub, off := 0xE100, step := 0x4, count := 64, rst := 0x0 },
  { space := .hub, off := 0xE200, step := 0x4, count := 64, rst := 0x0 },
  { space := .hub, off := 0x10000, step := 0x4, count := 1, rst := 0x1, rws := 0x800F001F },
  { space := .hub, off := 0x10004, step := 0x4, count := 1, rst := 0x0, rws := 0xFFF00000 },
  { space := .hub, off := 0x10008, step := 0x4, count := 1, rst := 0x0, rws := 0xFFFF },
  { space := .hub, off := 0x1000C, step := 0x4, count := 1, rst := 0xA, rwp := 0x3FF },
  { space := .hub, off := 0x10010, step := 0x4, count := 1, rst := 0x3E8, rwp := 0x83FFFFFF },
  { space := .hub, off := 0x10014, step := 0x4, count := 1, rst := 0x3E8 },
  { space := .hub, off := 0x10018, step := 0x4, count := 1, rst := 0x0, w1c := 0xC0, rc := 0xFFFFFF00 },
  { space := .hub, off := 0x1001C, step := 0x4, count := 1, rst := 0xFFE0, rwp := 0x8000FFFF },
  { space := .hub, off := 0x10020, step := 0x4, count := 1, rst := 0x4, rwp := 0x8FFFFFFF },
  { space := .hub, off := 0x10024, step := 0x4, count := 1, rst := 0x2710, rwp := 0x3FFFFFF },
  { space := .hub, off := 0x10028, step := 0x4, count := 1, rst := 0x0, rws := 0xFFFFF000 },
  { space := .hub, off := 0x1002C, step := 0x4, count := 1, rst := 0x0, rws := 0xFFFF },
  { space := .hub, off := 0x10030, step := 0x4, count := 1, rst := 0x0, rc := 0xFFFFFFFF },
  { space := .hub, off := 0x10034, step := 0x4, count := 1, rst := 0x0, rc := 0xFFFF0000 },
  { space := .hub, off := 0x10100, step := 0x4, count := 64, rst := 0x40000000, rwp := 0xF000FFFF },
  { space := .hub, off := 0x10200, step := 0x4, count := 64, rst := 0x0, rwp := 0xFFFFFFFF },
  { space := .hub, off := 0x10300, step := 0x4, count := 64, rst := 0xF4240, rwp := 0x3FFFFFF }]

/-- Rows of the hub window, part 8. -/
def hubRows8 : List Row := [
  { space := .hub, off := 0x10400, step := 0x4, count := 32, rst := 0x3342200, rwp := 0xFFFFFFF0 },
  { space := .hub, off := 0x10480, step := 0x4, count := 32, rst := 0x7D000000, rwp := 0xFFFE0000 },
  { space := .hub, off := 0x10500, step := 0x4, count := 32, rst := 0x2710, rwp := 0x3FFFFFF },
  { space := .hub, off := 0x10580, step := 0x4, count := 32, rst := 0x0, rwp := 0xFFFFFFFF },
  { space := .hub, off := 0x10800, step := 0x4, count := 512, rst := 0x0, rws := 0x80070FFF },
  { space := .hub, off := 0x20000, step := 0x4, count := 4096, rst := 0x24001000 },
  { space := .hub, off := 0x24000, step := 0x4, count := 4096, rst := 0x0 },
  { space := .hub, off := 0x28000, step := 0x4, count := 1, rst := 0x0, rws := 0x800FF000, w1c := 0x36 },
  { space := .hub, off := 0x28010, step := 0x8, count := 2, rst := 0x0, rws := 0xFFF00000 },
  { space := .hub, off := 0x28014, step := 0x8, count := 2, rst := 0x0, rws := 0xFFFF }]

/-- Rows of the hub window. -/
def hubRows : List Row := hubRows0 ++ hubRows1 ++ hubRows2 ++ hubRows3 ++ hubRows4 ++ hubRows5 ++ hubRows6 ++ hubRows7 ++ hubRows8

/-- Rows of the stn window, part 0. -/
def stnRows0 : List Row := [
  { space := .stn, off := 0x0, step := 0x4, count := 1, rst := 0x0, w1c := 0x8 },
  { space := .stn, off := 0x4, step := 0x4, count := 1, rst := 0x0, rws := 0xFF },
  { space := .stn, off := 0x8, step := 0x4, count := 1, rst := 0x8, rwp := 0x1FF },
  { space := .stn, off := 0x10, step := 0x4, count := 1, rst := 0x3E8, rwp := 0x800FFFFF },
  { space := .stn, off := 0x14, step := 0x4, count := 1, rst := 0x3E8, rc := 0xFF000000 },
  { space := .stn, off := 0x20, step := 0x4, count := 1, rst := 0x11800000, rwp := 0xFF80FFFF },
  { space := .stn, off := 0x24, step := 0x4, count := 1, rst := 0xFFFFFFFF, rwp := 0xFFFFFFFF },
  { space := .stn, off := 0x28, step := 0x4, count := 1, rst := 0x1, rwp := 0xFFFFFFFF },
  { space := .stn, off := 0x2C, step := 0x4, count := 1, rst := 0x40000000, rc := 0xFFFF },
  { space := .stn, off := 0x30, step := 0x4, count := 1, rst := 0x3E8, rwp := 0xFFFFF },
  { space := .stn, off := 0x34, step := 0x4, count := 1, rst := 0x0, rc := 0xFFFFFF00 },
  { space := .stn, off := 0x40, step := 0x4, count := 1, rst := 0x80, rwp := 0xE0000007 },
  { space := .stn, off := 0x44, step := 0x4, count := 1, rst := 0x0, rc := 0xFF000000 },
  { space := .stn, off := 0x48, step := 0x4, count := 2, rst := 0x1, rwp := 0xF8FFFFFF },
  { space := .stn, off := 0x50, step := 0x4, count := 1, rst := 0x1, rwp := 0xFFFFFFFF },
  { space := .stn, off := 0x60, step := 0x4, count := 1, rst := 0x0, rwp := 0xFFFFFFFF },
  { space := .stn, off := 0x64, step := 0x4, count := 1, rst := 0x3, rwp := 0x3 },
  { space := .stn, off := 0x68, step := 0x4, count := 1, rst := 0x0, rc := 0xFFFF0000 },
  { space := .stn, off := 0x6C, step := 0x4, count := 1, rst := 0x0, rwp := 0xFFFFFFFF },
  { space := .stn, off := 0x70, step := 0x4, count := 1, rst := 0x10003E8, rwp := 0x830FFFFF },
  { space := .stn, off := 0x74, step := 0x4, count := 1, rst := 0x0, rc := 0xFFFFFFFF },
  { space := .stn, off := 0x78, step := 0x4, count := 1, rst := 0x0, rc := 0xFFFFFFFF },
  { space := .stn, off := 0x7C, step := 0x4, count := 1, rst := 0x0, w1c := 0x1F },
  { space := .stn, off := 0x80, step := 0x4, count := 1, rst := 0x0, rc := 0xFFFFFFFF }]

/-- Rows of the stn window, part 1. -/
def stnRows1 : List Row := [
  { space := .stn, off := 0x90, step := 0x4, count := 4, rst := 0x3E8, rwp := 0x83FFFFFF },
  { space := .stn, off := 0xA0, step := 0x4, count := 4, rst := 0x3E8 },
  { space := .stn, off := 0xB0, step := 0x4, count := 4, rst := 0x60000000, rwp := 0xE000003F },
  { space := .stn, off := 0xC0, step := 0x4, count := 4, rst := 0xFFFFFFFF, rwp := 0xFFFFFFFF },
  { space := .stn, off := 0xE0, step := 0x4, count := 8, rst := 0x0, rwp := 0xFFFFFFFF },
  { space := .stn, off := 0x100, step := 0x4, count := 8, rst := 0x0, rwp := 0x8EFFFFFF },
  { space := .stn, off := 0x120, step := 0x4, count := 8, rst := 0x0, rwp := 0x8EFFFFFF },
  { space := .stn, off := 0x140, step := 0x4, count := 8, rst := 0x0, rwp := 0x777FFF80 },
  { space := .stn, off := 0x180, step := 0x4, count := 16, rst := 0xC000000, rwp := 0xFFFFF000 },
  { space := .stn, off := 0x1C0, step := 0x4, count := 16, rst := 0x0, rwp := 0xFFFFFFFF },
  { space := .stn, off := 0x200, step := 0x4, count := 16, rst := 0x0, rwp := 0xFFFFFFFF },
  { space := .stn, off := 0x240, step := 0x4, count := 16, rst := 0xFFFFFFFF, rwp := 0xFFFFFFFF },
  { space := .stn, off := 0x280, step := 0x4, count := 16, rst := 0x0, rwp := 0x80000003 },
  { space := .stn, off := 0x2C0, step := 0x4, count := 16, rst := 0x0, rwp := 0xFFFFFFFF },
  { space := .stn, off := 0x300, step := 0x4, count := 16, rst := 0x0, rwp := 0xFFFF },
  { space := .stn, off := 0x340, step := 0x4, count := 16, rst := 0x0, rwp := 0xFFFFFFFF },
  { space := .stn, off := 0x380, step := 0x4, count := 16, rst := 0x0, rwp := 0xFFFF },
  { space := .stn, off := 0x400, step := 0x4, count := 64, rst := 0xC000000, rwp := 0xFC1FFFFE },
  { space := .stn, off := 0x500, step := 0x4, count := 10, rst := 0x0, w1c := 0xFFFFFFFF },
  { space := .stn, off := 0x1000, step := 0x4, count := 256, rst := 0x1800000, rwp := 0xBFFFF800 },
  { space := .stn, off := 0x1400, step := 0x4, count := 256, rst := 0xFFFFFFFF, rwp := 0xFFFFFFFF },
  { space := .stn, off := 0x1800, step := 0x4, count := 256, rst := 0x0, rwp := 0xFFFF },
  { space := .stn, off := 0x2000, step := 0x4, count := 2048, rst := 0x0 },
  { space := .stn, off := 0x600, step := 0x8, count := 64, rst := 0x0 }]

/-- Rows of the stn window, part 2. -/
def stnRows2 : List Row := [
  { space := .stn, off := 0x604, step := 0x8, count := 64, rst := 0x0 },
  { space := .stn, off := 0x800, step := 0x8, count := 256, rst := 0x0, rws := 0xFFFFFFFF },
  { space := .stn, off := 0x804, step := 0x8, count := 256, rst := 0x0, rws := 0xFFFF }]

/-- Rows of the stn window. -/
def stnRows : List Row := stnRows0 ++ stnRows1 ++ stnRows2

/-- Rows of the ctx window, part 0. -/
def ctxRows0 : List Row := [
  { space := .ctx, off := 0x0, step := 0x4, count := 1, rst := 0x0, wo := 0xFFFFFFFF },
  { space := .ctx, off := 0x4, step := 0x4, count := 1, rst := 0x0, wo := 0xFFFFFFFF },
  { space := .ctx, off := 0x8, step := 0x4, count := 8, rst := 0x0, wo := 0xFFFFFFFF },
  { space := .ctx, off := 0x40, step := 0x4, count := 1, rst := 0x0, w1c := 0xFFFFF000 },
  { space := .ctx, off := 0x44, step := 0x4, count := 1, rst := 0x0 },
  { space := .ctx, off := 0x48, step := 0x4, count := 1, rst := 0x0, rc := 0xFFFFFFFF },
  { space := .ctx, off := 0x4C, step := 0x4, count := 1, rst := 0x0, rc := 0xFFFFFFFF },
  { space := .ctx, off := 0x50, step := 0x4, count := 1, rst := 0x0, rw := 0x80000000 },
  { space := .ctx, off := 0x54, step := 0x4, count := 1, rst := 0x24001000 },
  { space := .ctx, off := 0x58, step := 0x4, count := 1, rst := 0x0, rw := 0xFFFFFFFF },
  { space := .ctx, off := 0x5C, step := 0x4, count := 1, rst := 0x0, rw := 0xFFFFFFFF },
  { space := .ctx, off := 0x60, step := 0x4, count := 1, rst := 0x0 },
  { space := .ctx, off := 0x64, step := 0x4, count := 1, rst := 0x0 },
  { space := .ctx, off := 0x80, step := 0x4, count := 1, rst := 0x0, rw := 0xFFFFFFC0 },
  { space := .ctx, off := 0x84, step := 0x4, count := 1, rst := 0x0, rw := 0xFFFFFFFF },
  { space := .ctx, off := 0x88, step := 0x4, count := 1, rst := 0x4, rw := 0x1F },
  { space := .ctx, off := 0x90, step := 0x4, count := 1, rst := 0x0, rw := 0xFFFFFFE0 },
  { space := .ctx, off := 0x94, step := 0x4, count := 1, rst := 0x0, rw := 0xFFFFFFFF },
  { space := .ctx, off := 0x98, step := 0x4, count := 1, rst := 0x104, rw := 0xFFFFFF1F },
  { space := .ctx, off := 0x100, step := 0x20, count := 8, rst := 0x0, rw := 0xFFFFF000 },
  { space := .ctx, off := 0x104, step := 0x20, count := 8, rst := 0x0, rw := 0xFFFFFFFF },
  { space := .ctx, off := 0x108, step := 0x20, count := 8, rst := 0x0, rw := 0xFFFFFFE0 },
  { space := .ctx, off := 0x10C, step := 0x20, count := 8, rst := 0x0, rw := 0xFFFFFFFF },
  { space := .ctx, off := 0x110, step := 0x20, count := 8, rst := 0x400C040, rw := 0x9F00FFFF }]

/-- Rows of the ctx window. -/
def ctxRows : List Row := ctxRows0

/-- The row whose register lies at an offset of its window. -/
def findRow (rows : List Row) (off : Nat) : Option Row :=
  rows.find? fun r => r.off ≤ off && (off - r.off) % r.step == 0 && (off - r.off) / r.step < r.count

end Sys2Proof.Machine.Kx
end

