-- ==== Sys2Proof/Machine/Records.lean ====
section
/-!
DEFINITION. Records and curds: type codes, lengths, the words and bytes of a curd, its CRC, and how losses are classed
(05_records).
-/

namespace Sys2Proof

open Machine

/-- TYPE codes (05_records Table 5.4). -/
def recCode : RecTy → Nat
  | .mark => 0x01 | .rpt => 0x02 | .cnt => 0x03 | .snap => 0x04 | .stall => 0x05 | .pcs => 0x06 | .bw => 0x07
  | .sketch => 0x08 | .tstat => 0x09 | .tcap => 0x0A | .flow => 0x0B | .gap => 0x0C | .epoch => 0x0D | .tsync => 0x0E
  | .skim => 0x0F | .trig => 0x10 | .fault => 0x11 | .seal => 0x12 | .anchor => 0x13

/-- LKIND of a lost record (05_records Table 5.10). -/
def lkind : RecTy → Nat
  | .mark | .rpt => 0x0
  | .pcs => 0x1
  | .flow => 0x2
  | .tstat | .tcap => 0x3
  | .cnt => 0x4
  | .bw => 0x5
  | .stall => 0x6
  | _ => 0xF

/-- CAUSE codes (05_records Table 5.10). -/
def cNoSlot : Nat := 1
def cNoBuf : Nat := 2
def cQueue : Nat := 3
def cPcsDup : Nat := 4
def cStallTo : Nat := 5
def cPace : Nat := 6
def cReset : Nat := 7
def cPortBusy : Nat := 8
def cDetected : Nat := 9

/-- LEN in words, header included (05_records Table 5.3). -/
def recLen (r : Record) : Nat := 1 + r.body.length

/-- Bytes of a record. -/
def recBytes (r : Record) : Nat := 8 * recLen r

/-- Bytes of records in a curd. -/
def Curd.bodyLen (c : Curd) : Nat := (c.recs.map recBytes).sum

/-- The body of a curd (05_records R115). -/
def bodyMax : Nat := 4032

/-- Whether a record fits an open curd (05_records R118). -/
def fits (c : Curd) (r : Record) : Bool :=
  c.bodyLen + recBytes r ≤ bodyMax && r.seq - c.firstSeq ≤ 0xFFFFF && r.ft - c.ftBase ≤ 0xFFFFFF

/-- Whether every place of a curd has been written (01_unit_anatomy R405). -/
def Curd.written (c : Curd) : Bool := c.recs.all (·.filled)

/-- Append a record to a curd. -/
def Curd.push (c : Curd) (r : Record) : Curd := { c with recs := c.recs ++ [r] }

/-- A word built from fields: each is (value, low bit). -/
def word64 (fs : List (Nat × Nat)) : BitVec 64 := BitVec.ofNat 64 (fs.foldl (fun a f => a + f.1 * 2 ^ f.2) 0)

/-- TFLAGS from bits: each is (bit, place). -/
def tflags (fs : List (Nat × Nat)) : BitVec 8 := BitVec.ofNat 8 (fs.foldl (fun a f => a + f.1 * 2 ^ f.2) 0)

/-- A record before its admission. -/
def mkRec (ty : RecTy) (tf : BitVec 8) (src : BitVec 16) (body : List (BitVec 64)) : Record :=
  { ty := ty, tf := tf, src := src, body := body }

/-- 1 for true. -/
def b1 (b : Bool) : Nat := if b then 1 else 0

/-- A record's header word (05_records Table 5.3). -/
def headerWord (c : Curd) (r : Record) : BitVec 64 :=
  word64 [(recCode r.ty, 59), (recLen r, 52), (r.seq - c.firstSeq, 32), (r.ft - c.ftBase, 8), (r.tf.toNat, 0)]

/-- UNIT code of requester u: stations, then hub internal sources (05_records Table 5.2). -/
def unitCode (u : Nat) : Nat := if u < 40 then u else 0x40 + (u - 40)

/-- Words 0-3 of the header, CRC left out (05_records Table 5.1). -/
def curdHead (c : Curd) : List (BitVec 64) :=
  [word64 [(0x4B43, 48), (1, 44), (unitCode c.unit, 32), (b1 c.dev.isSome, 31), ((c.dev.getD 0), 25), (c.close.toNat, 23),
    (b1 c.filtered, 22), (b1 c.hubB, 21), (c.tq.toNat, 14), (b1 c.sealed, 13), (b1 c.rsv, 12), (c.bodyLen, 0)],
   BitVec.ofNat 64 c.firstSeq, BitVec.ofNat 64 c.ftBase, word64 [(c.epoch.toNat, 32)]]

/-- The words of the body, padded with zero words to 4032 B (05_records R117). -/
def curdBody (c : Curd) : List (BitVec 64) :=
  let ws := c.recs.flatMap fun r => headerWord c r :: r.body
  ws ++ List.replicate (504 - ws.length) 0

/-- The words of words 4-7, SEALHASH in ascending byte order (05_records R115). -/
def hashWords (h : BitVec 256) : List (BitVec 64) :=
  (List.range 4).map fun i => word64 ((List.range 8).map fun j => (((h >>> (8 * (31 - 8 * i - j))).setWidth 8).toNat, 8 * j))

/-- One bit step of reflected CRC-32C (05_records R124). -/
def crcBit (c : Word) : Word := if c.getLsbD 0 then (c >>> 1) ^^^ 0x82F63B78#32 else c >>> 1

/-- One byte of CRC-32C. -/
def crcByte (c : Word) (b : Byte) : Word :=
  crcBit (crcBit (crcBit (crcBit (crcBit (crcBit (crcBit (crcBit (c ^^^ b.setWidth 32))))))))

/-- CRC-32C, Castagnoli polynomial in reflected form (05_records R124). -/
def crc32c (bs : List Byte) : Word := (bs.foldl crcByte 0xFFFFFFFF#32) ^^^ 0xFFFFFFFF#32

/-- The curd's CRC, over the curd with CRC and SEALHASH zero (05_records R124). -/
def Curd.crc (c : Curd) : Word :=
  crc32c ((curdHead { c with sealed := false } ++ List.replicate 4 0 ++ curdBody c).flatMap bytesOf64)

/-- The 512 words of a curd. -/
def Curd.words (c : Curd) : List (BitVec 64) :=
  let h := curdHead c
  h.take 3 ++ [h.getD 3 0 ||| (c.crc.setWidth 64)] ++ hashWords c.hash ++ curdBody c

/-- The seal chain link of a curd after the link before it (05_records R125). The CRC enters as the closing unit wrote it. DESIGN CHOICE
(log entry 60): the curd enters as the closing unit closed it, with SEALED 0 as well as SEALHASH 0. -/
def sealLink (prev : BitVec 256) (c : Curd) : BitVec 256 :=
  let c0 := { c with hash := 0 }
  let hp : List Byte := (List.range 32).map fun i => (prev >>> (8 * (31 - i))).setWidth 8
  (Config.sha384 (hp ++ c0.words.flatMap bytesOf64) >>> 128).setWidth 256

end Sys2Proof

namespace Sys2Proof.Machine

/-- Records that pacing never refuses (06_admission R154). A CNT record is exempt when AO, SNAP or EPOCHEND is set. -/
def exempt (r : Record) : Bool :=
  match r.ty with
  | .epoch | .gap | .tsync | .skim | .snap | .fault | .seal | .anchor => true
  | .cnt => r.tf.getLsbD 6 || r.tf.getLsbD 5 || r.tf.getLsbD 4
  | _ => false

/-- Add a record's bytes to the kind of offer it counts under (06_admission R152). -/
def Offer.add (o : Offer) (hub : Bool) (r : Record) : Offer :=
  let n := recBytes r
  match r.ty with
  | .pcs => { o with pcs := o.pcs + n }
  | .cnt => if exempt r then { o with other := o.other + n } else { o with cnt := o.cnt + n }
  | .bw => if hub then { o with hub := o.hub + n } else { o with bw := o.bw + n }
  | .sketch => { o with hub := o.hub + n }
  | .tstat | .tcap => { o with tw := o.tw + n }
  | _ => { o with other := o.other + n }

/-- Bytes of an offer. -/
def Offer.total (o : Offer) : Nat := o.pcs + o.cnt + o.bw + o.hub + o.tw + o.other

/-- A source ID: die, engine, port (00_scope Table 0.6). -/
def srcId (die eng port : Nat) : BitVec 16 := BitVec.ofNat 16 (die * 1024 + eng * 32 + port)

/-- The source a hub internal source's losses are counted under (05_records Table 5.10). -/
def hubSrcId (k : Nat) : BitVec 16 := BitVec.ofNat 16 (0xFC00 + k)

/-- A GAP record of a pending count (05_records Table 5.9). -/
def gapRecord (g : GapAcc) : Record :=
  { ty := .gap, tf := tflags [(b1 g.prior, 7), (g.lkind.toNat, 0)], src := g.src,
    body := [word64 [(g.src.toNat, 48), (g.cause.toNat, 44), (g.count, 0)], BitVec.ofNat 64 g.first, BitVec.ofNat 64 g.last] }

/-- Count one lost record into the pending counts (05_records R128). -/
def countGap (gs : List GapAcc) (src : BitVec 16) (lk cause seq ft : Nat) : List GapAcc :=
  let lk4 := BitVec.ofNat 4 lk
  let ca := BitVec.ofNat 4 cause
  if gs.any fun g => g.src == src && g.lkind == lk4 && g.cause == ca && !g.prior then
    replaceFirst (fun g => g.src == src && g.lkind == lk4 && g.cause == ca && !g.prior)
      (fun g => { g with count := g.count + 1, last := seq }) gs
  else gs ++ [{ src := src, lkind := lk4, cause := ca, count := 1, first := seq, last := seq, since := ft }]

/-- Time quality of a station servo state with the device time state (02_fabric_time R53, Table 2.6). -/
def tqOf (servo : Nat) (dev : Nat) : Nat := max dev (if servo = 3 then 1 else if servo = 4 then 2 else 0)

/-- CLOSE codes (05_records Table 5.1). -/
def closeFull : BitVec 2 := 0
def closeFlush : BitVec 2 := 1
def closeEpoch : BitVec 2 := 2
def closeRestart : BitVec 2 := 3

end Sys2Proof.Machine
end

