-- ==== Sys2Proof/Machine/Admit.lean ====
section
/-!
DEFINITION. Admission: how a station or a hub internal source numbers a record, paces it, places it in a curd or counts its
loss, and how curds close (01_unit_anatomy R20-R23, 05_records R118-R128, 06_admission R136-R138, R154).
-/

namespace Sys2Proof.Machine

/-! ## Settings read by admission -/

/-- The device identity when the device is a member of a node: 8 x BOARD + SLOT (13_node R306, 05_records R116). -/
def State.devId (s : State) : Option Nat :=
  if s.rb Kx.synId 31 && !s.node.estranged then some (s.rf Kx.synId 5 0) else none

/-- The time quality in force at station n (02_fabric_time R53). -/
def State.tqNow (s : State) (n : Nat) : BitVec 2 :=
  BitVec.ofNat 2 (tqOf (s.stn n).servo.st.toNat (s.stn n).devTq.toNat)

/-- The flush interval of station n, in ticks (01_unit_anatomy R22). -/
def State.flush (s : State) (n : Nat) : Nat := clamp1 400 (s.rf (Kx.stnCurdCfg n) 8 0) * 2000

/-- The largest flush interval in force at any station (01_unit_anatomy R22). -/
def State.flushMax (s : State) : Nat := (s.dies.map s.flush).foldl max 2000

/-- The journal runs (06_admission Table 6.2). -/
def State.jrnOn (s : State) : Bool := s.rb Kx.hubJrnCfg 31

/-! ## Counters -/

/-- A counter that software loads with `w` in a die cycle in which it held `old` and hardware adds `inc`: the value written plus the
increment, or plus one where the increment would have wrapped it (00_scope R14). Answers the sum, and whether it wrapped. -/
def loadedSum (old w inc : Nat) : Nat × Bool :=
  let v := if old + inc < 2 ^ 48 then w + inc else w + 1
  (v % 2 ^ 48, decide (2 ^ 48 ≤ old + inc ∨ 2 ^ 48 ≤ v))

/-- The sum of an increment: of a counter that software loaded in this die cycle, of any other (00_scope R14, 03_counters R67). -/
def Stn.counted (st : Stn) (key d : Nat) : Nat × Bool :=
  let add := fun (v : Nat) => (v % 2 ^ 48, decide (2 ^ 48 ≤ v))
  if key < 256 then
    match st.loads.find? fun x => x.1 == key with
    | some (_, old, w) => loadedSum old w (sgetD st.incs key 0 + d)
    | none => add (sgetD st.cnt key 0 + d)
  else add (sgetD st.ao key 0 + d)

/-- Add to a counter of station n: key k for counter k, 256 + j for AOj. Counters wrap at 2^48 and set their sticky bit
(03_counters R67, Table 3.9). -/
def State.bump (s : State) (n key d : Nat) : State :=
  let st := s.stn n
  let (w, wraps) := st.counted key d
  let st := if key < 256 then { st with cnt := snum st.cnt key w, incs := sadd st.incs key d } else { st with ao := snum st.ao key w }
  let st := if wraps then { st with wrap := insertNew st.wrap key } else st
  let s := s.setStn n st
  if wraps then s.setB (Kx.stnCovf n (key / 32)) (key % 32) true else s

/-- Add to always-on counter j of station n (03_counters R69). -/
def State.bumpAo (s : State) (n j d : Nat) : State := s.bump n (256 + j) d

/-! ## Curds of a station -/

/-- Record-buffer slots free for ordinary curds: one of the 64 is the reserve (01_unit_anatomy R23). -/
def freeSlots (st : Stn) : Nat := 64 - st.closed.length - b1 st.cur.isSome - b1 (st.rsv.isSome || st.rsvOk)

/-- A closed curd's header (05_records R116). -/
def State.sealHeader (s : State) (n : Nat) (c : Curd) (cause : BitVec 2) : Curd :=
  { c with close := cause, dev := s.devId, tq := if c.tq < s.tqNow n then s.tqNow n else c.tq }

/-- Close the open curd of station n (01_unit_anatomy R21). -/
def State.closeCur (s : State) (n : Nat) (cause : BitVec 2) : State :=
  let st := s.stn n
  match st.cur with
  | none => s
  | some c => s.setStn n { st with cur := none, closed := st.closed ++ [{ curd := s.sealHeader n c cause }] }

/-- Close the open reserve curd; the next slot to free becomes the reserve (05_records R119). -/
def State.closeRsv (s : State) (n : Nat) (cause : BitVec 2) : State :=
  let st := s.stn n
  match st.rsv with
  | none => s
  | some c =>
    s.setStn n { st with rsv := none, rsvOk := false, closed := st.closed ++ [{ curd := s.sealHeader n c cause }] }

/-- A curd opened by a record. -/
def State.openCurd (s : State) (n : Nat) (rsv : Bool) (r : Record) : Curd :=
  { unit := n, rsv := rsv, tq := s.tqNow n, firstSeq := r.seq, ftBase := r.ft, epoch := (s.stn n).epoch, recs := [r] }

/-- A change of time quality is kept by the open curds (02_fabric_time R53). -/
def State.raiseTq (s : State) (n : Nat) : State :=
  let q := s.tqNow n
  let up := fun c : Curd => if c.tq < q then { c with tq := q } else c
  s.modStn n fun st => { st with cur := st.cur.map up, rsv := st.rsv.map up }

/-- Store an ordinary record; false when it got no place. A record that does not fit closes the open curd (R118). -/
def State.storeOrd (s : State) (n : Nat) (r : Record) : State × Bool :=
  match (s.stn n).cur with
  | some c =>
    if fits c r then (s.modStn n fun st => { st with cur := some (c.push r) }, true)
    else
      let s := s.closeCur n closeFull
      if freeSlots (s.stn n) = 0 then (s, false)
      else (s.modStn n fun st => { st with cur := some (s.openCurd n false r), curAt := s.stnFt n }, true)
  | none =>
    if freeSlots (s.stn n) = 0 then (s, false)
    else (s.modStn n fun st => { st with cur := some (s.openCurd n false r), curAt := s.stnFt n }, true)

/-- The open curd takes a record (05_records R118). -/
def Stn.takes (st : Stn) (r : Record) : Bool := match st.cur with | some c => fits c r | none => false

/-- A record finds a place: in the open curd, or in a slot free to open the next (04_markers R91). -/
def Stn.placeable (st : Stn) (r : Record) : Bool := st.takes r || decide (0 < freeSlots st)

/-- Store a GAP or STALL record in the reserve curd; false when the reserve is unavailable (05_records R119). -/
def State.storeRsv (s : State) (n : Nat) (r : Record) : State × Bool :=
  match (s.stn n).rsv with
  | some c =>
    if fits c r then (s.modStn n fun st => { st with rsv := some (c.push r) }, true)
    else (s.closeRsv n closeFull, false)
  | none =>
    if (s.stn n).rsvOk then (s.modStn n fun st => { st with rsv := some (s.openCurd n true r), rsvAt := s.stnFt n }, true)
    else (s, false)

/-! ## Admission at a station -/

/-- Number a record with the timestamp that Table 2.5 of 02_fabric_time gives it: it takes the station's next sequence number and counts
as offered (R20, AO42). -/
def State.numberAt (s : State) (n : Nat) (r : Record) (ft : Nat) : State × Record :=
  let st := s.stn n
  let r := { r with seq := st.seq, ft := ft }
  ((s.setStn n { st with seq := st.seq + 1, offer := st.offer.add false r }).bumpAo n 42 1, r)

/-- Number a record with the present edge as its timestamp. -/
def State.number (s : State) (n : Nat) (r : Record) : State × Record := s.numberAt n r (s.stnFt n)

/-- The tokens of a pacer at an instant: it gains allowance x ticks, in 1/80,000 byte, up to allowance / 10 (R154). -/
def Pacer.refill (p : Pacer) (now : Nat) : Pacer :=
  { p with tok := min (p.allow * 8000) (p.tok + p.allow * (now - p.at_)), at_ := now }

/-- Pacing of one record: the pacer after it, and whether the record is refused (R154). -/
def Pacer.take (p : Pacer) (now : Nat) (r : Record) : Pacer × Bool :=
  if !p.on then (p, false)
  else
    let p := p.refill now
    let need := recBytes r * 80000
    if need ≤ p.tok then ({ p with tok := p.tok - need }, false)
    else if exempt r then ({ p with tok := 0 }, false)
    else (p, true)

/-- Station n's pacer takes a record's tokens; true where it refuses the record (R154). -/
def State.pace (s : State) (n : Nat) (r : Record) : State × Bool :=
  let (p, refused) := (s.stn n).pace.take s.now r
  (s.modStn n fun st =>
    { st with pace := p
              offer := if refused then { st.offer with refused := st.offer.refused + recBytes r } else st.offer }, refused)

/-- Admit one pending GAP record into the reserve curd, with its tokens, which pacing never refuses it (06_admission R154); it stays
pending when it cannot be stored (R128). -/
def State.admitGap (s : State) (n : Nat) (g : GapAcc) : State :=
  let same := fun h : GapAcc => h.src == g.src && h.lkind == g.lkind && h.cause == g.cause && h.prior == g.prior
  let (s1, r) := s.number n (gapRecord g)
  let (s2, ok) := s1.storeRsv n r
  if ok then (((s2.pace n r).1).modStn n fun st => { st with gaps := removeFirst same st.gaps }).bumpAo n 43 g.count
  else
    -- not admitted: the sequence number is not taken, and the reserve closes if the record did not fit it
    let s3 := (s.storeRsv n { r with ft := s.stnFt n }).1
    s3.modStn n fun st => { st with gaps := replaceFirst same (fun h => { h with due := true }) st.gaps }

/-- Admit the pending GAP records that pass a test (R128). -/
def State.flushGaps (s : State) (n : Nat) (p : GapAcc → Bool) : State :=
  ((s.stn n).gaps.filter p).foldl (fun s g => s.admitGap n g) s

/-- Count the loss of an admitted record; a sample also counts as LOST (03_counters Table 3.16). A count that reaches its top is
admitted at once (R128). -/
def State.lose (s : State) (n : Nat) (r : Record) (cause : Nat) : State :=
  let s := if r.ty = .pcs then s.incF (Kx.stnPcsStat n) 7 0 1 else s
  let s := s.modStn n fun st => { st with gaps := countGap st.gaps r.src (lkind r.ty) cause r.seq (s.stnFt n) }
  s.flushGaps n fun g => g.count == 2 ^ 40 - 1

/-- The cause of a loss for want of a place (06_admission R136). -/
def State.placeCause (s : State) (n : Nat) : Nat := if (s.stn n).noBuf then cNoBuf else cNoSlot

/-- The cause a loss that is already certain is counted under: a marker that would get no place is lost for that, not for its queue
(04_markers R91). -/
def State.certain (s : State) (n : Nat) (r : Record) (cause : Nat) : Nat :=
  if cause = cQueue && !((s.stn n).placeable r) then s.placeCause n else cause

/-- Admit a record at station n: number it, pace it, store it or count its loss. `cause` names a loss that is already
certain. Answers the record as numbered, and whether it was stored. -/
def State.admitR (s : State) (n : Nat) (r : Record) (cause : Option Nat) (ft : Option Nat) : State × Record × Bool :=
  if !(s.stn n).offering then (s, r, false)
  else
    let (s, r) := match ft with
      | some f => s.numberAt n r f
      | none => s.number n r
    match cause with
    | some c => (s.lose n r (s.certain n r c), r, false)
    | none =>
      let (s, refused) := s.pace n r
      if refused then (s.lose n r cPace, r, false)
      else
        let (s, ok) := s.storeOrd n r
        if ok then (s.flushGaps n fun g => g.src == r.src && g.lkind.toNat == lkind r.ty && !g.prior, r, true)
        else (s.lose n r (s.placeCause n), r, false)

/-- Admit a record at station n. -/
def State.admitRec (s : State) (n : Nat) (r : Record) : State := (s.admitR n r none none).1

/-- Store a STALL record in the reserve curd, or keep it for the next one (05_records R119). -/
def State.storeStall (s : State) (n : Nat) (r : Record) : State :=
  let (s, ok) := s.storeRsv n r
  if ok then s else s.modStn n fun st => { st with rsvWait := st.rsvWait ++ [r] }

/-- Admit a STALL record at the end of its hold: it is numbered with that edge as its timestamp (02_fabric_time Table 2.5), paced as any
record (R98, 06_admission R154), and stored in the reserve curd, or in the next one to open. DESIGN CHOICE (log entry 49): a record
that waits for the next reserve curd keeps the number and the timestamp of its hold's end, so that timestamps follow numbers (R48). -/
def State.admitStall (s : State) (n : Nat) (r : Record) : State :=
  if !(s.stn n).offering then s
  else
    let (s, r) := s.number n r
    let (s, refused) := s.pace n r
    if refused then s.lose n r cPace
    else if (s.stn n).rsvWait.isEmpty then s.storeStall n r
    else s.modStn n fun st => { st with rsvWait := st.rsvWait ++ [r] }

/-- A slot of the record buffer frees: the reserve is restored, the STALL records that were numbered before it are stored, and the
pending GAP records are admitted (R23, R119, R133). -/
def State.slotFreed (s : State) (n : Nat) : State :=
  let s := s.modStn n fun st => if st.rsv.isNone then { st with rsvOk := true } else st
  let w := (s.stn n).rsvWait
  let s := s.modStn n fun st => { st with rsvWait := [] }
  let s := w.foldl (fun s r => s.storeStall n r) s
  s.flushGaps n fun g => g.due || g.cause.toNat == cNoSlot || g.cause.toNat == cNoBuf

/-! ## Admission at a hub internal source -/

/-- Requester number of hub internal source k (06_admission R134). -/
def reqOfSrc (k : Nat) : Nat := 40 + k

/-- Key of a unit's curds of one kind: 2 x requester + RSV (06_admission R132). -/
def kindKey (u : Nat) (rsv : Bool) : Nat := 2 * u + b1 rsv

/-- A curd of its kind that repeats one received before (06_admission R132). -/
def State.isDup (s : State) (u : Nat) (c : Curd) : Bool :=
  decide (c.firstSeq + 1 ≤ sgetD s.jrn.recv (kindKey u c.rsv) 0) && !((u, c.rsv, c.firstSeq) ∈ s.jrn.dropped)

/-- The token bucket's gain per tick, in 1/80,000 byte: the effective budget (06_admission R142, R151). -/
def State.budgetRate (s : State) : Nat := min (clamp1 400 (s.rf Kx.skmBudget 24 16) * s.rf Kx.skmHbmbw 15 0) 2560000

/-- One token, and the charge of one curd. -/
def tokUnit : Nat := 80000
def curdCharge : Nat := 4096 * tokUnit
def bucketTop : Nat := 262144 * tokUnit

/-- The bucket at this instant. -/
def State.tokNow (s : State) : Nat := min bucketTop (s.jrn.tok + s.budgetRate * (s.now - s.jrn.tokAt))

/-- Bring the bucket up to date; called before the budget changes and at a take. -/
def State.refill (s : State) : State := { s with jrn := { s.jrn with tok := s.tokNow, tokAt := s.now } }

/-- A curd waits in the pool for tokens (06_admission R154). -/
def State.curdWaits (s : State) : Bool := s.jrn.pool.any (·.jidx.isNone)

/-- Ticks of a hub cycle, rounded up (1.5 GHz). -/
def hubCycleTicks : Nat := 6

/-- A bucket that held 4096 tokens for longer than the cycle of a take broke the wait (06_admission R154). -/
def State.noteBreak (s : State) : State :=
  if curdCharge + hubCycleTicks * s.budgetRate < s.tokNow then { s with jrn := { s.jrn with fastAt := none } } else s

/-- Follow the unbroken wait for tokens (06_admission R154). -/
def State.noteWait (s : State) : State :=
  let w := s.curdWaits && decide (s.tokNow < curdCharge)
  { s with jrn := { s.jrn with fastAt := if w then some (s.jrn.fastAt.getD s.now) else none } }

/-- A curd fills a pool buffer (06_admission R132). -/
def State.fillPool (s : State) (u : Nat) (c : Curd) : State :=
  let j := s.jrn
  let s : State := { s with jrn := { j with
    pool := j.pool ++ [{ req := u, curd := c }]
    recv := sput j.recv (kindKey u c.rsv) (max (c.firstSeq + 1) (sgetD j.recv (kindKey u c.rsv) 0))
    dropped := j.dropped.filter (· != (u, c.rsv, c.firstSeq)) } }
  s.noteWait

/-- A closed assembly buffer of source k is copied into the pool once the source holds a grant; a curd that the journal
already has is not (06_admission R137, R138). -/
def State.pumpSrc (s : State) (k : Nat) : State :=
  match (s.src k).full with
  | [] => s
  | c :: l =>
    let u := reqOfSrc k
    let g := sgetD s.jrn.grants u 0
    if g = 0 then s
    else
      let s := s.modSrc k fun h => { h with full := l }
      if s.isDup u c then s
      else ({ s with jrn := { s.jrn with grants := snum s.jrn.grants u (g - 1) } }).fillPool u c

/-- The header of a hub source's curd as it closes (05_records R116). -/
def State.srcHeader (s : State) (c : Curd) (cause : BitVec 2) : Curd :=
  { c with close := cause, dev := s.devId, hubB := s.pair.active = .b, tq := if c.tq < s.clk.devTq then s.clk.devTq else c.tq }

/-- Close the assembly buffer of source k. -/
def State.closeSrc (s : State) (k : Nat) (cause : BitVec 2) : State :=
  match (s.src k).cur with
  | none => s
  | some c => (s.modSrc k fun h => { h with cur := none, full := h.full ++ [s.srcHeader c cause] }).pumpSrc k

/-- Store a record in an assembly buffer of source k; false when both are occupied (06_admission R137). -/
def State.storeSrc (s : State) (k : Nat) (r : Record) : State × Bool :=
  let new : Curd := { unit := 40 + k, tq := s.clk.devTq, hubB := s.pair.active = .b, firstSeq := r.seq, ftBase := r.ft,
                      epoch := if k = 0 then (s.src 0).epoch else s.plan.epoch, recs := [r] }
  let open_ := fun (s : State) =>
    if 2 ≤ (s.src k).full.length then (s, false) else (s.modSrc k fun h => { h with cur := some new, curAt := s.now }, true)
  match (s.src k).cur with
  | some c => if fits c r then (s.modSrc k fun h => { h with cur := some (c.push r) }, true) else open_ (s.closeSrc k closeFull)
  | none => open_ s

/-- Whether a hub record's timestamp names its admission (02_fabric_time Table 2.5). -/
def ftAtAdmission (ty : RecTy) : Bool := ty != .trig && ty != .flow

/-- Number a record of source k: at its admission, with the hub FT where its type says so (06_admission R138). -/
def State.numberSrc (s : State) (k : Nat) (r : Record) : State × Record :=
  let h := s.src k
  let r := { r with seq := h.seq, ft := if ftAtAdmission r.ty then s.now else r.ft, src := hubSrcId k }
  -- an EPOCH START record's BFT is its own timestamp (05_records R129)
  let r := if r.ty == .epoch && fld (r.tf.setWidth 32) 7 6 == 3 then { r with body := r.body.set 1 (BitVec.ofNat 64 s.now) } else r
  (s.modSrc k fun h => { h with seq := h.seq + 1, offer := h.offer.add true r,
                                unacc := if s.pair.stbyOk then h.unacc ++ [r] else h.unacc }, r)

/-- Admit the pending GAP records of source k in its ordinary curds (R119, R128). -/
def State.flushSrcGaps (s : State) (k : Nat) (p : GapAcc → Bool) : State :=
  ((s.src k).gaps.filter p).foldl (fun s g =>
    let same := fun h : GapAcc => h.src == g.src && h.lkind == g.lkind && h.cause == g.cause && h.prior == g.prior
    let (s1, r) := s.numberSrc k (gapRecord g)
    let (s2, ok) := s1.storeSrc k r
    if ok then s2.modSrc k fun h => { h with gaps := removeFirst same h.gaps, pace := (h.pace.take s2.now r).1 }
    else s.modSrc k fun h => { h with gaps := replaceFirst same (fun a => { a with due := true }) h.gaps }) s

/-- LKIND of a lost hub record (05_records Table 5.10). -/
def lkindHub : Nat := 7

/-- The CLOSE cause with which an EPOCH record ends the epoch before it: a job restart closes with RESTART, any other boundary with EPOCH; a START record ends
none (05_records R118, R129). -/
def epochClose (r : Record) : Option (BitVec 2) :=
  match fld (r.tf.setWidth 32) 7 6 with
  | 2 => some closeRestart
  | 3 => none
  | _ => some closeEpoch

/-- A pending GAP record of source k goes into the curd of the epoch that ends; one that it does not fit closes under the boundary's
cause, which precedes FULL (05_records R118, R128). -/
def State.leaveGap (cause : BitVec 2) (k : Nat) (s : State) (g : GapAcc) : State :=
  let r := { gapRecord g with seq := (s.src k).seq, ft := s.now }
  let s := if (s.src k).cur.any fun c => !(fits c r) then s.closeSrc k cause else s
  s.flushSrcGaps k fun h => h.src == g.src && h.lkind == g.lkind && h.cause == g.cause && h.prior == g.prior

/-- Pending GAP records of source k at the end of its epoch: they are admitted into its curd; those that find no place are admitted in
the new epoch with PRIOR set (05_records R128). -/
def State.leaveSrc (s : State) (k : Nat) (cause : BitVec 2) : State :=
  (((s.src k).gaps.foldl (State.leaveGap cause k) s).closeSrc k cause).modSrc k fun h =>
    { h with gaps := h.gaps.map fun g => { g with prior := true, due := true } }

/-- Source 0 enters the epoch that an EPOCH record names: the records it admitted before end the old one (05_records R129). -/
def State.enterEpoch (s : State) (k : Nat) (r : Record) : State :=
  if k != 0 || r.ty != .epoch then s
  else
    let s := match epochClose r with
      | some cause => s.leaveSrc 0 cause
      | none => s
    s.modSrc 0 fun h => { h with epoch := (r.body.getD 0 0).setWidth 32 }

/-- Admit a record at source k: number, pace, store or count. An EPOCH record goes ahead of the GAP records in wait: it is the first
record of its epoch (05_records R128, R129). -/
def State.acceptSrc (s : State) (k : Nat) (r : Record) : State :=
  let s := s.enterEpoch k r
  let s := if r.ty == .epoch then s else s.flushSrcGaps k (·.due)
  let (s, r) := s.numberSrc k r
  let lose := fun (s : State) (c : Nat) =>
    (s.modSrc k fun h => { h with gaps := countGap h.gaps (hubSrcId k) lkindHub c r.seq s.now }).flushSrcGaps k
      fun g => g.count == 2 ^ 40 - 1
  let (p, refused) := (s.src k).pace.take s.now r
  let s := s.modSrc k fun h => { h with pace := p }
  if refused then
    lose (s.modSrc k fun h => { h with offer := { h.offer with refused := h.offer.refused + recBytes r } }) cPace
  else
    let (s, ok) := s.storeSrc k r
    if ok then s.flushSrcGaps k fun _ => true else lose s cNoBuf

/-- Form a record at source k. While a standby is present it waits for the standby's confirmation (06_admission R138).
No record is formed while the journal has not been enabled (log entry 9). -/
def State.hubRec (s : State) (k : Nat) (r : Record) : State :=
  if !s.jrnOn then s
  else if s.pair.stbyOk then s.modSrc k fun h => { h with wait := h.wait ++ [r] }
  else s.acceptSrc k r

/-! ## Records the hub forms -/

/-- FAULT classes (05_records Table 5.12). -/
def fcTrigger : Nat := 0x01
def fcHold : Nat := 0x02
def fcRefloss : Nat := 0x03
def fcSram : Nat := 0x04
def fcChannel : Nat := 0x05
def fcRoute : Nat := 0x06
def fcTakeover : Nat := 0x07
def fcLease : Nat := 0x08
def fcCore : Nat := 0x09
def fcStraggler : Nat := 0x0A
def fcAnomaly : Nat := 0x0B
def fcJrnCopy : Nat := 0x0C
def fcCurdCrc : Nat := 0x0D
def fcSwapMissed : Nat := 0x0E
def fcNode : Nat := 0x0F

/-- A FAULT record of triage (05_records Table 5.11). -/
def faultRec (cls chan wh d0 evft d1 d2 : Nat) (pinned : Bool) (fkind : Nat) : Record :=
  mkRec .fault (tflags [(b1 pinned, 7), (fkind, 5)]) 0
    [word64 [(cls, 56), (chan, 40), (wh, 32), (d0 % 2 ^ 32, 0)], BitVec.ofNat 64 evft, BitVec.ofNat 64 d1,
      BitVec.ofNat 64 d2]

/-- Admit a FAULT record of triage. -/
def State.fault (s : State) (cls chan wh d0 evft d1 d2 : Nat) (pinned : Bool) (fkind : Nat) : State :=
  s.hubRec 6 (faultRec cls chan wh d0 evft d1 d2 pinned fkind)

/-- A pinned EVENT fault (01_unit_anatomy R27). -/
def State.faultEvent (s : State) (cls chan wh d0 evft d1 d2 : Nat) : State := s.fault cls chan wh d0 evft d1 d2 true 0

/-- A SKIM record (05_records Table 5.9). -/
def State.skimRec (s : State) (lever stn idx old new eff offered budget : Nat) : State :=
  s.hubRec 0 (mkRec .skim 0 0 [word64 [(lever, 56), (stn, 48), (idx, 40), (old % 65536, 16), (new % 65536, 0)],
    BitVec.ofNat 64 eff, word64 [(offered % 2 ^ 32, 32), (budget % 2 ^ 32, 0)]])

/-- An EPOCH record body (05_records Table 5.9). -/
def epochBody (from_ to_ : BitVec 32) (bft missed : Nat) : List (BitVec 64) :=
  [word64 [(from_.toNat, 32), (to_.toNat, 0)], BitVec.ofNat 64 bft, BitVec.ofNat 64 missed]

/-- EPOCH kinds (05_records Table 5.9). -/
def ekCommit : Nat := 0
def ekRollback : Nat := 1
def ekRestart : Nat := 2
def ekStart : Nat := 3

/-- An EPOCH record of hub internal source 0. -/
def State.epochHub (s : State) (kind : Nat) (failed : Bool) (from_ to_ : BitVec 32) (bft missed : Nat) : State :=
  s.hubRec 0 (mkRec .epoch (tflags [(kind, 6), (b1 failed, 5)]) 0 (epochBody from_ to_ bft missed))

/-- TSYNC events (05_records Table 5.11). -/
def tsPeriodic : Nat := 0
def tsServo : Nat := 1
def tsDevState : Nat := 2
def tsStep : Nat := 3
def tsPpsLock : Nat := 4
def tsPpsLost : Nat := 5
def tsRefLoss : Nat := 6

/-- A device TSYNC record (02_fabric_time R51). -/
def State.tsyncDev (s : State) (event : Nat) (value : Int) (at_ : Nat) : State :=
  s.hubRec 3 (mkRec .tsync (tflags [(1, 7)]) 0
    [word64 [(event, 60), (s.clk.devTq.toNat, 55), (b1 (s.clk.pps.lock || s.clk.pps2.lock), 54)],
      BitVec.ofInt 64 value, BitVec.ofNat 64 at_])

/-- A station TSYNC record (02_fabric_time R51). -/
def State.tsyncStn (s : State) (n event : Nat) : State :=
  let st := s.stn n
  s.admitRec n (mkRec .tsync 0 (srcId n 0 0)
    [word64 [(event, 60), (st.servo.st.toNat, 57), (st.devTq.toNat, 55), (b1 st.servo.alt, 53),
        (min 255 (st.servo.delay / 4), 32)], BitVec.ofInt 64 (st.servo.resid.tdiv 2), 0])

/-- The pacer of a unit that begins to offer records: while pacing is in force its allowance is the fair level of the last division,
within LINKPCT (06_admission R154, R155). -/
def State.fairPacer (s : State) : Pacer :=
  let a := min s.skim.fair (clampN 10 100 (s.rf Kx.skmBudget 15 8) * 1600)
  if s.skim.pacing then { on := true, allow := a, base := a, tok := a * 8000, at_ := s.now, level := a } else {}

/-- Station n begins to offer records once its servo is LOCKED or better, the journal runs and the hub has reloaded it: an
EPOCH START record, then a TSYNC SERVO record (05_records R129, 02_fabric_time R51, 14_startup R338). Where pacing is in force its
allowance is the fair level of the last division (06_admission R155). -/
def State.startOffering (s : State) (n : Nat) : State :=
  let st := s.stn n
  if s.stnOn n && !st.offering && 2 ≤ st.servo.st.toNat && s.jrnOn && st.reload then
    let p := s.fairPacer
    -- it takes no capture for an instant before it offered (03_counters R75)
    let s := s.modStn n fun st => { st with offering := true, tsyncAt := s.stnFt n, pace := p, lastTry := s.stnFt n }
    let s := s.admitRec n (mkRec .epoch (tflags [(ekStart, 6)]) (srcId n 0 0) (epochBody st.epoch st.epoch (s.stnFt n) 0))
    s.tsyncStn n tsServo
  else s

end Sys2Proof.Machine
end

