-- ==== Sys2Proof/Machine/Complete.lean ====
section
/-!
DEFINITION. Completions, signals and notices of observation contexts (10_contexts R244-R247, R252-R254;
11_management R280).
-/

namespace Sys2Proof.Machine

/-! ## Result codes and opcodes -/

/-- RESULT codes (10_contexts Table 10.12, 11_management Table 11.4). -/
def rOk : Nat := 0x00
def rScope : Nat := 0x01
def rBadMetric : Nat := 0x02
def rBadScope : Nat := 0x03
def rNotLive : Nat := 0x04
def rNoExt : Nat := 0x05
def rNoHist : Nat := 0x06
def rTooSmall : Nat := 0x07
def rQBusy : Nat := 0x08
def rNoPriv : Nat := 0x09
def rBadOp : Nat := 0x0A
def rBadArg : Nat := 0x0B
def rBadFmt : Nat := 0x0C
def rNoKey : Nat := 0x0D
def rTidBusy : Nat := 0x0E
def rNoWatch : Nat := 0x0F
def rArmed : Nat := 0x10
def rDone : Nat := 0x11
def rRemoved : Nat := 0x12
def rStnReset : Nat := 0x13
def rScrubbed : Nat := 0x14
def rTooSoon : Nat := 0x15
def rSnapBusy : Nat := 0x16
def rTimeRej : Nat := 0x17
def rAborted : Nat := 0x18
def rAbortLate : Nat := 0x19
def rNotFound : Nat := 0x1A
def rStaleSeq : Nat := 0x1B
def rSeqGap : Nat := 0x1C
def rDupBusy : Nat := 0x1D
def rCtxBusy : Nat := 0x1E
def rSemBusy : Nat := 0x20
def rTxnOpen : Nat := 0x21
def rNoTxn : Nat := 0x22
def rBadReg : Nat := 0x23
def rNotReady : Nat := 0x24
def rSwapMiss : Nat := 0x25
def rCommitting : Nat := 0x26
def rNoLease : Nat := 0x27
def rListErr : Nat := 0x28
def rTooFar : Nat := 0x29

/-- OPCODE of a descriptor (10_contexts Table 10.7). -/
def opNop : Nat := 0x0000
def opAbort : Nat := 0x0001
def opSubscribe : Nat := 0x0010
def opUnsubscribe : Nat := 0x0011
def opSnapshot : Nat := 0x0020
def opTrigger : Nat := 0x0021
def opTimeSet : Nat := 0x0022
def opHostAnchor : Nat := 0x0023
def opWatch : Nat := 0x0030
def opQuery : Nat := 0x0031
def opPlanBegin : Nat := 0x0040
def opPlanStage : Nat := 0x0041
def opPlanCommit : Nat := 0x0042
def opPlanRollback : Nat := 0x0043
def opCtxOpen : Nat := 0x0050
def opCtxModify : Nat := 0x0051
def opCtxClose : Nat := 0x0052

def opKeyRegister : Nat := 0x0060
def opKeyRevoke : Nat := 0x0061
def opSealPubkey : Nat := 0x0062
def opDisclose : Nat := 0x0063
def opTenantAttach : Nat := 0x0064
def opTenantDetach : Nat := 0x0065

/-- RESULT codes 0x30-0x3F (12_isolation Table 12.10). -/
def rZeroScalar : Nat := 0x30
def rBadCoord : Nat := 0x31
def rNotOnCurve : Nat := 0x32
def rAtInfinity : Nat := 0x33
def rBadSig : Nat := 0x34
def rNoTenant : Nat := 0x35
def rTenantBusy : Nat := 0x36
def rScrubbing : Nat := 0x37
def rKeyFull : Nat := 0x38
def rKeyInUse : Nat := 0x39
def rPartInUse : Nat := 0x3A
def rBufErr : Nat := 0x3B

/-- A measurement value changes: SERIAL increments and MCHG is raised (12_isolation R294). -/
def State.measChange (s : State) : State :=
  { s with sec := { s.sec with serial := s.sec.serial + 1, mchg := true } }

/-! ## Context states -/

/-- STATE codes (10_contexts Table 10.1). -/
def csClosed : BitVec 3 := 0
def csStopped : BitVec 3 := 1
def csRunning : BitVec 3 := 2
def csStopping : BitVec 3 := 3
def csFaulted : BitVec 3 := 4

/-- An operator context (10_contexts R230). -/
def State.isOper (s : State) (c : Nat) : Bool := (s.ctx c).perm = 0

/-! ## Signals -/

/-- Send the message of an MSI-X vector, or set its pending bit while it is masked (10_contexts R252). -/
def State.msixSend (s : State) (v : Nat) : State :=
  if v ∈ s.msix.unmasked then s.emit (.msix v)
  else { s with msix := { s.msix with pending := insertNew s.msix.pending v } }

/-- Send a NOTICE to DEST. One stays unanswered per SRC; what comes meanwhile, or while ENABLE is clear, coalesces
(11_management R280). -/
def State.sendNotice (s : State) (src kind : Nat) : State :=
  let p := s.portB
  let on := p.enable.getLsbD (if src < 0x100 then 0 else 1)
  if !on || p.notices.any (fun x => x.1 == src) then
    if p.held.any fun x => x.1 == src then s
    else { s with portB := { p with held := p.held ++ [(src, BitVec.ofNat 8 kind)] } }
  else
    ({ s with portB := { p with notices := p.notices ++ [(src, BitVec.ofNat 8 kind, true, s.now)] } }).emit
      (.notice p.dest src kind)

/-- A signal of context c: kind 0 completion signal, 1 STATUS notice (10_contexts R253, R254; 11_management R280). -/
def State.ctxSignal (s : State) (c kind : Nat) : State :=
  let s := s.modCtx c fun x => { x with unsig := 0 }
  if (s.ctx c).ringloc then s.sendNotice c kind else s.msixSend c

/-- Set a STATUS bit of context c; a change from 0 to 1 sends one message (10_contexts R254). -/
def State.ctxStatus (s : State) (c bit : Nat) : State :=
  if s.rb (Kx.ctxStatus c) bit then s else (s.setB (Kx.ctxStatus c) bit true).ctxSignal c 1

/-- STATUS bits (10_contexts Table 10.5). -/
def sbCplFull : Nat := 15
def sbDbErr : Nat := 14
def sbFault : Nat := 13
def sbCfgErr : Nat := 12

/-! ## Rings -/

/-- Positions of a ring with a LOG2 field (10_contexts Table 10.5). -/
def ringSize (log2 : Nat) : Nat := 2 ^ clampN 4 16 log2

/-- PHASE of the entry at a producer index (10_contexts R244). -/
def phaseBit (idx size : Nat) : Nat := b1 (idx / size % 2 == 0)

/-- The T bit of DMA on behalf of context c: set for a tenant context while the TDI is LOCKED or RUN (12_isolation R292). -/
def State.dmaTee (s : State) (c : Nat) : Bool := !(s.isOper c) && (s.sec.tdi == .locked || s.sec.tdi == .run)

/-- The PASID of DMA of context c (10_contexts Table 10.2). -/
def State.dmaPasid (s : State) (c : Nat) : Option (BitVec 20) := if (s.ctx c).pasiden then some (s.ctx c).pasid else none

/-- Write words at an address of context c's rings: host memory, or hub SRAM with RINGLOC (10_contexts R255). -/
def State.ringWrite (s : State) (c addr : Nat) (ws : List (BitVec 64)) : State :=
  if (s.ctx c).ringloc then { s with sramW := s.sramW ++ [.write addr (ws.flatMap bytesOf64)] }
  else s.emit (.host c addr (s.dmaTee c) (s.dmaPasid c) ws)

/-- Size of the completion ring of context c. -/
def State.cplSize (s : State) (c : Nat) : Nat := ringSize (s.rf (Kx.ctxCplCfg c) 4 0)

/-- Whether the completion ring of context c is full (10_contexts R246). -/
def State.cplFull (s : State) (c : Nat) : Bool :=
  let x := s.ctx c
  s.cplSize c ≤ (x.cplPi + 2 ^ 32 - x.cplCi) % 2 ^ 32

/-- The words of a completion (10_contexts Table 10.11). -/
def cplWords (x : Completion) (head phase : Nat) : List (BitVec 64) :=
  [BitVec.ofNat 64 x.seq,
    word64 [(x.op, 48), (x.result, 40), (b1 x.final, 34), (b1 x.more, 33), (b1 x.dup, 32), (head % 2 ^ 32, 0)],
    BitVec.ofNat 64 x.v0, word64 [(x.v1 % 2 ^ 32, 32), (x.v2 % 2 ^ 16, 16), (phase, 0)]]

/-! ## Completions -/

/-- Completions that follow the first completion of a command: the parked duplicates, then the aborts that came too late
(10_contexts R240, R247). -/
def followUps (e : LogEnt) (x : Completion) : List Completion :=
  List.replicate e.parked { x with dup := true } ++
    e.aborts.map fun a => { seq := a.1, op := opAbort, result := rAbortLate, v0 := e.seq, irq := a.2 }

/-- Write one completion into the ring, which has room; answers what is to be posted next. -/
def State.cplWrite (s : State) (c : Nat) (x : Completion) : State × List Completion :=
  let k := s.ctx c
  let size := s.cplSize c
  let base := s.rd64 (Kx.ctxCplBaseLo c) (Kx.ctxCplBaseHi c)
  let s := s.ringWrite c (base + 32 * (k.cplPi % size)) (cplWords x k.fetch (phaseBit k.cplPi size))
  let first := fun (e : LogEnt) => e.seq == x.seq && e.first.isNone && !x.dup && !x.final
  let next := (k.log.filter first).flatMap fun e => followUps e x
  let unsig := k.unsig + 1
  let s := s.modCtx c fun k =>
    { k with
      cplPi := (k.cplPi + 1) % 2 ^ 32
      cpls := k.cpls ++ [x]
      unsig := unsig
      unsigAt := if k.unsig = 0 then s.now else k.unsigAt
      log := k.log.map fun e => if first e then { e with first := some x, parked := 0, aborts := [] } else e }
  (if x.irq || max 1 (s.rf (Kx.ctxCplCfg c) 15 8) ≤ unsig then s.ctxSignal c 0 else s, next)

/-- Post completions in order; once the ring is full, or the context cannot post, the rest are held (10_contexts R246).
The fuel bounds the completions posted. -/
def State.postList : Nat → State → Nat → List Completion → State
  | 0, s, c, l => s.modCtx c fun k => { k with held := k.held ++ l }
  | _ + 1, s, _, [] => s
  | fuel + 1, s, c, x :: l =>
    let k := s.ctx c
    if k.st = csClosed then s
    else if k.st = csStopped || !k.held.isEmpty then s.modCtx c fun k => { k with held := k.held ++ x :: l }
    else if s.cplFull c then (s.modCtx c fun k => { k with held := x :: l }).ctxStatus c sbCplFull
    else let (s, next) := s.cplWrite c x; State.postList fuel s c (next ++ l)

/-- A command of context c has not posted its first completion (10_contexts R240). -/
def inProgress (x : CtxS) : Bool := x.log.any (·.first.isNone)

/-- STOPPING ends once nothing is in progress (10_contexts Table 10.1). -/
def State.ctxIdle (s : State) (c : Nat) : State :=
  let x := s.ctx c
  if x.st = csStopping && !(inProgress x) && x.held.isEmpty then s.modCtx c fun x => { x with st := csStopped } else s

/-- Post a list of completions to context c. -/
def State.postMany (s : State) (c : Nat) (l : List Completion) : State :=
  (s.postList (64 + 4 * (l.length + ((s.ctx c).log.map fun e => 1 + e.parked + e.aborts.length).sum)) c l).ctxIdle c

/-- Post what is held, as far as there is room (10_contexts R246). -/
def State.postHeld (s : State) (c : Nat) : State :=
  let l := (s.ctx c).held
  if l.isEmpty then s else (s.modCtx c fun k => { k with held := [] }).postMany c l

/-- Post the completion of a command. -/
def State.post (s : State) (q : CmdRef) (op res v0 v1 v2 : Nat) : State :=
  s.postMany q.ctx [{ seq := q.seq, op := op, result := res, v0 := v0, v1 := v1, v2 := v2, irq := q.irq }]

/-- Post a first completion that a FINAL one will follow. -/
def State.postMore (s : State) (q : CmdRef) (op res v0 v1 v2 : Nat) : State :=
  s.postMany q.ctx [{ seq := q.seq, op := op, result := res, more := true, v0 := v0, v1 := v1, v2 := v2, irq := q.irq }]

/-- Post a FINAL completion. -/
def State.postFinal (s : State) (q : CmdRef) (op res v0 v1 v2 : Nat) : State :=
  s.postMany q.ctx [{ seq := q.seq, op := op, result := res, final := true, v0 := v0, v1 := v1, v2 := v2, irq := q.irq }]

/-- A command of context q.ctx, which an operator alone may issue when `oper` (10_contexts R237, R239 step 4). -/
def State.issue (s : State) (q : CmdRef) (op : Nat) (oper : Bool) (f : State → State) : State :=
  if oper && !(s.isOper q.ctx) then s.post q op rNoPriv 0 0 0 else f s

/-- A command stands in its context's log, both copies written, and NEXTSEQ is past it; the log keeps 64 entries
(10_contexts R241, R242). -/
def State.enterLog (s : State) (q : CmdRef) : State :=
  s.modCtx q.ctx fun x =>
    if x.log.any fun e => e.seq == q.seq then x
    else
      let l := x.log ++ [{ seq := q.seq, words := [BitVec.ofNat 64 q.seq, word64 [(b1 q.irq, 47)]], logged := true }]
      { x with log := l.drop (l.length - 64), nextSeq := if x.nextSeq = q.seq then (q.seq + 1) % 2 ^ 64 else x.nextSeq }

/-- A descriptor command from its LOG step on: the hub serves and the context is open (10_contexts R241, log entry 44). -/
def onCmd (t : Nat) (q : CmdRef) (f : State → State) (s : State) : Host.Outcome State Fault Refusal :=
  onHub t (fun s => if (s.ctx q.ctx).st = csClosed then s else f (s.enterLog q)) s

end Sys2Proof.Machine
end

