-- ==== Sys2Proof/Machine/Flags.lean ====
section
/-!
DEFINITION. Register access rights and the error bits that a register access sets (17_setup_registers R381-R386,
11_management R261).
-/

namespace Sys2Proof.Machine

/-- OWNKIND codes (11_management Table 11.1). -/
def okPortA : BitVec 3 := 1
def okPortB : BitVec 3 := 2
def okCtx : BitVec 3 := 3
def okFw : BitVec 3 := 4

/-- LASTPORT code of a port (17_setup_registers Table 17.5). -/
def portCode : Port → Nat
  | .a => 1
  | .b => 2
  | .dbg => 3

/-- Bits of KX_GLB_ACCERR (17_setup_registers Table 17.5). -/
def aeHeld : Nat := 0
def aeDbgWr : Nat := 1
def aeUnmapped : Nat := 2
def aeWide : Nat := 3
def aePartial : Nat := 4
def aeStnAbsent : Nat := 5
def aeStnUnreach : Nat := 6
def aeCommitting : Nat := 7

/-- Set an access-error bit, with the offset and the port (17_setup_registers R381). -/
def State.accErr (s : State) (bit : Nat) (p : Port) (off : Nat) : State :=
  ((s.setB Kx.glbAccerr bit true).setF Kx.glbAccerr 9 8 (portCode p)).wr Kx.glbAccaddr (BitVec.ofNat 32 (off % 2 ^ 26))

/-- A register path holds the lease (11_management R258), its time has not run out, and no fence drops its writes
(14_startup Table 14.7). -/
def State.holdsLease (s : State) (p : Port) : Bool :=
  let l := s.lease
  let pinned := s.plan.phase != .idle && s.plan.phase != .opened
  let live := pinned || l.frozenAt.isSome || decide (s.now < l.ends)
  live && !(p ∈ l.fence) &&
    match p with
    | .a => l.kind == okPortA
    | .b => l.kind == okPortB
    | .dbg => false

/-- An RWS or RWP write was dropped for want of the lease (11_management R261). -/
def State.denied (s : State) : State := s.setB Kx.semStatus 1 true

/-- An RWS write of a field: `f` with the lease; without it the field is dropped, and DENIED is set where `changes`
(11_management R261). An RWS write changes the disclosure (12_isolation R294). -/
def State.rwsWrite (s : State) (p : Port) (changes : Bool) (f : State → State) : State :=
  if s.holdsLease p then (f s).measChange else if changes then s.denied else s

/-- A station whose primary and alternate routes are both out of service (14_startup R352). A route being restored is still out: it
stays retired unless its 16 retries succeed (R351). -/
def State.isolated (s : State) (n : Nat) : Bool :=
  (sgetD s.chans (0x1000 + n) {}).st != 0 && (sgetD s.chans (0x2000 + n) {}).st != 0

/-- The hub reaches station n over its link (17_setup_registers R385). -/
def State.reach (s : State) (n : Nat) : Bool := s.present n && !(s.stn n).inReset && !s.isolated n

/-- The offset of a register of station n's window (17_setup_registers Table 17.1). -/
def stnOff (n y : Nat) : Nat := 0x2000000 + 0x10000 * n + y

/-- An access to station n at a window offset: `f` where the station answers; else its error bit (R385). -/
def State.stnAccess (s : State) (p : Port) (n y : Nat) (f : State → State) : State :=
  if !(s.present n) then s.accErr aeStnAbsent p (stnOff n y)
  else if !(s.reach n) then s.accErr aeStnUnreach p (stnOff n y)
  else f s

/-- A read of station n at a window offset; zero where the station does not answer (R385). -/
def State.stnRead (s : State) (p : Port) (n y : Nat) (f : State → State × Word) : State × Word :=
  if !(s.present n) then (s.accErr aeStnAbsent p (stnOff n y), 0)
  else if !(s.reach n) then (s.accErr aeStnUnreach p (stnOff n y), 0)
  else f s

/-- A register write from a port. During a warm reset it is dropped (14_startup R336). During a takeover it is held, and sets
HELD as it completes (17_setup_registers R384, log entry 13). -/
def onWrite (t : Nat) (p : Port) (off : Nat) (f : State → State) (s : State) : Host.Outcome State Fault Refusal :=
  always t (fun s =>
    if !s.isOn || !s.pair.ready || s.pair.warm then s
    else f (if s.pair.takeover.isSome then s.accErr aeHeld p off else s)) s

/-- A register read from a port; its value goes out. During a warm reset a global register reads zero (R336). -/
def onRead (t : Nat) (p : Port) (off : Nat) (f : State → State × Word) (s : State) : Host.Outcome State Fault Refusal :=
  always t (fun s =>
    if !s.isOn then s
    else if !s.pair.ready || s.pair.warm then s.emit (.read p 0)
    else
      let (s, v) := f (if s.pair.takeover.isSome then s.accErr aeHeld p off else s)
      s.emit (.read p v)) s

/-- A write from the debug port outside the KX_DBG registers is dropped (17_setup_registers R383). -/
def State.notDbg (s : State) (p : Port) (off : Nat) (f : State → State) : State :=
  if p = .dbg then s.accErr aeDbgWr p off else f s

/-- A write of a whole register under the access type of each of its bits (00_scope Table 0.5, 11_management R261). A bit that hardware
has set in the same cycle is not cleared (R12). RWP, RO and WO bits are left to their own rules. -/
def State.writeRow (s : State) (p : Port) (off : Nat) (r : Kx.Row) (v : Word) : State :=
  let m := fun (x : Nat) => BitVec.ofNat 32 x
  let reg : Reg := ⟨off, r.rst⟩
  let old := s.rd reg
  let lease := s.holdsLease p
  let new := ((old &&& ~~~(m r.rw)) ||| (v &&& m r.rw)) &&& ~~~(v &&& m r.w1c &&& ~~~(s.hwSet reg))
  let new := if lease then ((new &&& ~~~(m r.rws)) ||| (v &&& m r.rws)) ||| (v &&& m r.w1s) else new
  let s := (s.softWrite reg (m r.rw ||| (if lease then m r.rws ||| (v &&& m r.w1s) else 0))).wr reg new
  let s := if lease && r.rws != 0 then s.measChange else s
  if !lease && (((old ^^^ v) &&& m r.rws) != 0 || (v &&& m r.w1s) != 0) then s.denied else s

/-- A write may have started the capture of PPS_IN anew, or changed TRIM (02_fabric_time R58, R61; log entry 64). -/
def State.noteClock (s before : State) : State :=
  let s := if s.rb Kx.timPpsCfg 0 && !(before.rb Kx.timPpsCfg 0) then { s with clk := { s.clk with pps := {} } } else s
  if s.rf Kx.rtcCtl 25 16 = before.rf Kx.rtcCtl 25 16 then s else { s with clk := { s.clk with trimAt := s.now } }

/-- A write to a register of the global space under its access types. -/
def State.writeHub (s : State) (p : Port) (off : Nat) (v : Word) : State :=
  match Kx.findRow Kx.hubRows off with
  | some r => (s.writeRow p off r v).noteClock s
  | none => s.accErr aeUnmapped p off

end Sys2Proof.Machine
end

