-- ==== Sys2Proof/Machine/Float.lean ====
section
/-!
DEFINITION. FP64 arithmetic with round-to-nearest-even, computed exactly on integers and then rounded once
(08_tensor R196, 09_churn R217), and the element formats of tensor watch (08_tensor Table 8.1).
-/

namespace Sys2Proof.Machine

/-- Bit length of a number. -/
def bitLen (n : Nat) : Nat := if n = 0 then 0 else Nat.log2 n + 1

/-- The FP64 nearest to num x 2^e, ties to even; `sticky` says that a little was cut off below num. -/
def fpRound (neg : Bool) (num : Nat) (e : Int) (sticky : Bool) : BitVec 64 :=
  let sgn := b1 neg * 2 ^ 63
  if num = 0 then BitVec.ofNat 64 sgn
  else
    let q : Int := max (e + Int.ofNat (bitLen num) - 53) (-1074)
    let sh : Int := q - e
    let m0 : Nat :=
      if sh ≤ 0 then num <<< (-sh).toNat
      else
        let k := sh.toNat
        let m := num >>> k
        let r := num % 2 ^ k
        let half := 2 ^ (k - 1)
        if half < r || (r == half && (sticky || m % 2 == 1)) then m + 1 else m
    let (m, q) : Nat × Int := if 2 ^ 53 ≤ m0 then (m0 / 2, q + 1) else (m0, q)
    if m < 2 ^ 52 then BitVec.ofNat 64 (sgn + m)
    else if 972 ≤ q then BitVec.ofNat 64 (sgn + 0x7FF * 2 ^ 52)
    else BitVec.ofNat 64 (sgn + (q + 1075).toNat * 2 ^ 52 + (m - 2 ^ 52))

/-- An FP64 as an exact value m x 2^e; Inf and NaN give none. -/
def fpExact (x : BitVec 64) : Option (Int × Int) :=
  let n := x.toNat
  let ex := bitsOf n 62 52
  let fr : Nat := n % 2 ^ 52
  let sg : Int := if x.getLsbD 63 then -1 else 1
  if ex = 2047 then none
  else if ex = 0 then some (sg * Int.ofNat fr, -1074)
  else some (sg * Int.ofNat (fr + 2 ^ 52), Int.ofNat ex - 1075)

/-- The FP64 of m x 2^e. -/
def fpOf (m e : Int) : BitVec 64 := fpRound (m < 0) m.natAbs e false

/-- The FP64 of an integer. -/
def fpOfInt (m : Int) : BitVec 64 := fpOf m 0

/-- The quiet NaN an operation on Inf or NaN gives here; no rule of the unit forms one. -/
def fpNan : BitVec 64 := 0x7FF8000000000000

/-- Both operands over the lesser exponent. -/
def fpAlign (a b : Int × Int) : Int × Int × Int :=
  let e := min a.2 b.2
  (a.1 * 2 ^ (a.2 - e).toNat, b.1 * 2 ^ (b.2 - e).toNat, e)

/-- FP64 sum. -/
def fpAdd (x y : BitVec 64) : BitVec 64 :=
  match fpExact x, fpExact y with
  | some a, some b => let (p, q, e) := fpAlign a b; fpOf (p + q) e
  | _, _ => fpNan

/-- FP64 negation. -/
def fpNeg (x : BitVec 64) : BitVec 64 := x ^^^ 0x8000000000000000

/-- FP64 difference. -/
def fpSub (x y : BitVec 64) : BitVec 64 := fpAdd x (fpNeg y)

/-- FP64 magnitude. -/
def fpAbs (x : BitVec 64) : BitVec 64 := x &&& 0x7FFFFFFFFFFFFFFF

/-- FP64 product. -/
def fpMul (x y : BitVec 64) : BitVec 64 :=
  match fpExact x, fpExact y with
  | some a, some b => fpRound ((a.1 < 0) != (b.1 < 0)) (a.1.natAbs * b.1.natAbs) (a.2 + b.2) false
  | _, _ => fpNan

/-- FP64 quotient. -/
def fpDiv (x y : BitVec 64) : BitVec 64 :=
  match fpExact x, fpExact y with
  | some a, some b =>
    if b.1 = 0 then fpNan
    else
      let n := a.1.natAbs * 2 ^ 1200
      let d := b.1.natAbs
      fpRound ((a.1 < 0) != (b.1 < 0)) (n / d) (a.2 - b.2 - 1200) (n % d != 0)
  | _, _ => fpNan

/-- x < y. -/
def fpLt (x y : BitVec 64) : Bool :=
  match fpExact x, fpExact y with
  | some a, some b => let (p, q, _) := fpAlign a b; p < q
  | _, _ => false

/-- Integer square root, rounded down, by bits from the top. -/
def isqrtGo : Nat → Nat → Nat → Nat
  | 0, n, r => if (r + 1) * (r + 1) ≤ n then r + 1 else r
  | k + 1, n, r => isqrtGo k n (if (r + 2 ^ (k + 1)) * (r + 2 ^ (k + 1)) ≤ n then r + 2 ^ (k + 1) else r)

/-- Integer square root, rounded down. -/
def isqrt (n : Nat) : Nat := isqrtGo (bitLen n / 2 + 1) n 0

/-- FP64 square root of a non-negative value, correctly rounded. -/
def fpSqrt (x : BitVec 64) : BitVec 64 :=
  match fpExact x with
  | some a =>
    let e := if a.2 % 2 = 0 then a.2 - 200 else a.2 - 201
    let n := a.1.natAbs * 2 ^ (a.2 - e).toNat
    let r := isqrt n
    fpRound false r (e / 2) (r * r != n)
  | none => fpNan

/-! ## Element formats -/

/-- What an element encodes. -/
inductive Elem where
  | zero | nan | inf
  /-- A finite nonzero value m x 2^e, and whether it is subnormal. -/
  | fin (m : Int) (e : Int) (sub : Bool)
  deriving DecidableEq, Repr

/-- Width, exponent bits, mantissa bits and bias of a floating format (08_tensor Table 8.1). -/
def fmtFloat : Nat → Option (Nat × Nat × Nat × Nat)
  | 0 => some (32, 8, 23, 127)
  | 1 => some (16, 8, 7, 127)
  | 2 => some (16, 5, 10, 15)
  | 3 => some (8, 4, 3, 7)
  | 4 => some (8, 5, 2, 15)
  | 5 => some (6, 3, 2, 3)
  | 6 => some (6, 2, 3, 1)
  | 7 => some (4, 2, 1, 1)
  | _ => none

/-- Bits of an element (08_tensor Table 8.1). -/
def fmtBits (f : Nat) : Nat :=
  match fmtFloat f with
  | some (w, _, _, _) => w
  | none => if f = 9 then 4 else 8

/-- EXPLO's default (08_tensor Table 8.1). -/
def fmtExplo : Nat → Int
  | 0 => -40 | 1 => -40 | 2 => -24 | 3 => -9 | 4 => -16 | 5 => -4 | 6 => -3 | 7 => -1 | 10 => -32 | _ => 0

/-- Decode one element (08_tensor Table 8.1). -/
def decodeElem (f c : Nat) : Elem :=
  match fmtFloat f with
  | some (w, eb, mb, bias) =>
    let sg : Int := if c.testBit (w - 1) then -1 else 1
    let ex := bitsOf c (w - 2) mb
    let fr : Nat := c % 2 ^ mb
    let ones := 2 ^ eb - 1
    if ex = 0 then (if fr = 0 then .zero else .fin (sg * Int.ofNat fr) (1 - Int.ofNat bias - Int.ofNat mb) true)
    else if ex = ones && f ≤ 4 && f != 3 then (if fr = 0 then .inf else .nan)
    else if ex = ones && f == 3 && fr == 7 then .nan
    else .fin (sg * Int.ofNat (fr + 2 ^ mb)) (Int.ofNat ex - Int.ofNat bias - Int.ofNat mb) false
  | none =>
    if f = 10 then (if c = 255 then .nan else .fin 1 (Int.ofNat c - 127) false)
    else
      let v := signedOf (fmtBits f) c
      if v = 0 then .zero else .fin v 0 false

/-- Whole elements in a burst of `len` bytes (08_tensor R185). -/
def elemCount (f len : Nat) : Nat := if fmtBits f = 6 then len / 3 * 4 else len * 8 / fmtBits f

/-- A burst that ends inside an element or a 3 B group (08_tensor R185). -/
def oddLen (f len : Nat) : Bool := if fmtBits f = 6 then len % 3 != 0 else len * 8 % fmtBits f != 0

/-- The elements of a burst's bytes (08_tensor R185). -/
def elemsOf (f : Nat) (data : List Byte) : List Elem :=
  let n := natOfBytes data
  (List.range (elemCount f data.length)).map fun i => decodeElem f (bitsOf n (fmtBits f * i + fmtBits f - 1) (fmtBits f * i))

/-- floor(log2 |m x 2^e|) (08_tensor R196). -/
def elemExp (m : Int) (e : Int) : Int := Int.ofNat (Nat.log2 m.natAbs) + e

end Sys2Proof.Machine
end

