-- ==== Sys2Proof/Machine/Operands.lean ====
section
/-!
DEFINITION. What the configuration of a station says of an observation: lines, filters, windows, counters, comparators and
funnel entries (03_counters, 04_markers).
-/

namespace Sys2Proof.Machine

/-! ## Integration of the A40 (log entry 8) -/

/-- Whether the A40 has a tap at an engine index, and whether it is a port tap (18_integration R401). -/
def a40Tap (n e : Nat) : Option Bool :=
  if n < 28 then (if e < 24 then some false else if e < 28 then some true else none)
  else if n < 32 then (if e < 8 then some true else none)
  else if n < 40 then (if e < 18 then some true else none)
  else none

/-- LINFO of a line on the A40: PULSE [7], WIRED [6], CLASS [5:0] (03_counters Tables 3.2, 3.3). -/
def a40Line (n e l : Nat) : BitVec 8 :=
  match a40Tap n e with
  | none => 0
  | some port =>
    if l = 0 then 0x41 else if l = 1 then 0x42 else if l = 2 then 0xCA else if l = 3 then 0xCB
    else if port && 16 ≤ l then 0x4F else 0

/-- LINFO of line l of engine e on die n (03_counters R63). -/
def State.linfo (s : State) (n e l : Nat) : BitVec 8 :=
  (sget s.integ.lines (n * 2048 + 64 * e + l)).getD (a40Line n e l)

/-- The slice a tap is wired to (01_unit_anatomy R16). -/
def State.sliceOf (s : State) (n e : Nat) : Nat := (sget s.integ.slices (n * 32 + e)).getD (e / 4)

/-- A line that can match a LINE or CLASS source: wired and not of class 0x0F (03_counters R66). -/
def State.lineOk (s : State) (n e l : Nat) : Bool :=
  let i := s.linfo n e l
  i.getLsbD 6 && (i.toNat % 64 != 0x0F)

/-- The class of a line. -/
def State.lineClass (s : State) (n e l : Nat) : Nat := (s.linfo n e l).toNat % 64

/-- An engine with a wired line. -/
def State.wiredEng (s : State) (n e : Nat) : Bool := (List.range 64).any fun l => (s.linfo n e l).getLsbD 6

/-- Wired engines of a die (09_churn Table 9.5). -/
def State.wiredEngs (s : State) (n : Nat) : List Nat := (List.range 32).filter fun e => s.wiredEng n e

/-- Whether tap e is a port tap (03_counters R64). -/
def State.isPortTap (s : State) (n e : Nat) : Bool := (s.linfo n e 16).toNat % 128 == 0x4F

/-- Bytes of a port field in an event-line sample: field 0 or 1, RX or TX (03_counters Table 3.2). -/
def portBytes (lines : BitVec 64) (f : Nat) (tx : Bool) : Nat := bitsOf lines.toNat (27 + 24 * f + 12 * b1 tx) (16 + 24 * f + 12 * b1 tx)

/-- Asserted lines of a tap that pass a test, by index. -/
def linesWhere (lines : BitVec 64) (p : Nat → Bool) : List Nat := (List.range 64).filter fun l => lines.getLsbD l && p l

/-! ## Filters -/

/-- Window w matches an address of a type (03_counters R66): 0 command list, 1 write address. -/
def State.winMatch (s : State) (n w ty addr : Nat) : Bool :=
  let c := s.rd (Kx.stnWinCfg n w)
  let base := s.rd64 (Kx.stnWinBaseLo n w) (Kx.stnWinBaseHi n w)
  let limit := s.rd64 (Kx.stnWinLimitLo n w) (Kx.stnWinLimitHi n w)
  c.getLsbD 31 && (fld c 1 1 == ty) && ((base ≤ addr && addr ≤ limit) != c.getLsbD 0)

/-- A window mask passes when it is zero or a selected window matches (03_counters R65). -/
def State.winPass (s : State) (n mask ty addr : Nat) : Bool :=
  mask == 0 || (List.range 16).any fun w => mask.testBit w && s.winMatch n w ty addr

/-- Every enabled type-0 window that matches an address, as a map (03_counters Table 3.14 WINHIT). -/
def State.winHits (s : State) (n addr : Nat) : Nat :=
  ((List.range 16).filter fun w => s.winMatch n w 0 addr).foldl (fun a w => a + 2 ^ w) 0

/-- A 2-bit privilege mask takes a privilege (03_counters Filters). -/
def privPass (mask : Nat) (p1 : Bool) : Bool := mask.testBit (b1 p1)

/-- The listed registers of an indexed station group whose bit 31 (EN) is set: their indices. EN resets to 0, so an enabled
one is listed. -/
def State.enabledIn (s : State) (base count : Nat) : List Nat :=
  s.regs.filterMap fun (off, w) =>
    if base ≤ off && off < base + 4 * count && off % 4 == 0 && w.getLsbD 31 then some ((off - base) / 4) else none

/-- Enabled programmable counters of station n. -/
def State.counters (s : State) (n : Nat) : List Nat := s.enabledIn (Kx.stnCsel n 0).off 256

/-- Enabled comparators of station n. -/
def State.comparators (s : State) (n : Nat) : List Nat := s.enabledIn (Kx.stnCmpCfg n 0).off 16

/-- Enabled funnel entries of station n. -/
def State.funnel (s : State) (n : Nat) : List Nat := s.enabledIn (Kx.stnMkSrc n 0).off 64

/-! ## Observations -/

/-- What a tap presents on one die cycle. -/
inductive Obs where
  /-- Event lines now and at the last sample. -/
  | lines (now prev : BitVec 64)
  /-- A retirement: command index, list address, latency, LATV. -/
  | retire (idx : BitVec 32) (addr : Nat) (lat : Nat) (latv : Bool)
  /-- A marker beat; `first` for beat 0. -/
  | marker (first : Bool) (port code : Nat)
  /-- A flow event. -/
  | flow (handle code arg : Nat)
  /-- A tensor tag burst. -/
  | tag (tid addr len : Nat)
  deriving DecidableEq, Repr

/-- A line's rising edge; on a pulse line, its assertion (03_counters R67). -/
def State.rises (s : State) (n e l : Nat) (now prev : BitVec 64) : Bool :=
  now.getLsbD l && (!(prev.getLsbD l) || (s.linfo n e l).getLsbD 7)

/-- EVENT, EDGE and WEIGHT increments of counter k for an observation of tap e (03_counters R65, R67, R68, Table 3.7). -/
def State.increments (s : State) (n e k : Nat) (p1 : Bool) (o : Obs) : Nat × Nat × Nat :=
  let c := s.rd (Kx.stnCsel n k)
  let src := fld c 29 27
  let sel := fld c 22 17
  let cm := fld c 16 11
  let pm := privPass (fld c 24 23) p1 && (s.rd (Kx.stnCmst n k)).getLsbD e
  let wm := s.rf (Kx.stnCwin n k) 15 0
  let one := fun (w : Nat) => ((1 : Nat), (1 : Nat), w)
  match o with
  | .lines now prev =>
    if src = 0 then
      if pm && s.lineOk n e sel && now.getLsbD sel then (1, b1 (s.rises n e sel now prev), 1) else (0, 0, 0)
    else if src = 1 then
      if pm then
        let ls := linesWhere now fun l => s.lineOk n e l && (s.lineClass n e l &&& cm) == (sel &&& cm)
        (ls.length, (ls.filter fun l => s.rises n e l now prev).length, ls.length)
      else (0, 0, 0)
    else if src = 6 || src = 7 then
      if s.isPortTap n e && sel / 2 = e then
        let b := portBytes now (sel % 2) (src == 7)
        if b = 0 then (0, 0, 0) else one b
      else (0, 0, 0)
    else (0, 0, 0)
  | .retire _ addr lat latv =>
    if src = 2 && pm && s.winPass n wm 0 addr then one (if latv then lat else 0) else (0, 0, 0)
  | .marker _ _ _ => if src = 3 && pm then one 16 else (0, 0, 0)
  | .flow _ code arg =>
    if src = 4 && pm && (code &&& (cm % 16)) == ((sel % 16) &&& (cm % 16)) then one arg else (0, 0, 0)
  | .tag _ addr len => if src = 5 && pm && s.winPass n wm 1 addr then one len else (0, 0, 0)

/-- Comparator c is true for an observation of tap e (04_markers R99, Table 4.7). COUNTER comparators are evaluated where
counters count. -/
def State.cmpTrue (s : State) (n e c : Nat) (p1 : Bool) (o : Obs) : Bool :=
  let g := s.rd (Kx.stnCmpCfg n c)
  let ty := fld g 30 28
  let opt := g.getLsbD 20
  let idx := fld g 19 12
  let val := (s.rd (Kx.stnCmpVal n c)).toNat
  let mask := (s.rd (Kx.stnCmpMask n c)).toNat
  let pm := privPass (fld g 27 26) p1 && (s.rd (Kx.stnCmpMst n c)).getLsbD e
  let win := fun (t addr : Nat) => !(g.getLsbD 25) || s.winMatch n (fld g 24 21) t addr
  let eq := fun (x : Nat) => (x &&& mask) == (val &&& mask)
  match o with
  | .lines now prev =>
    if ty = 0 then pm && s.lineOk n e (idx % 64) && (if opt then s.rises n e (idx % 64) now prev else now.getLsbD (idx % 64))
    else if ty = 6 then
      s.isPortTap n e && (idx % 64) / 2 == e &&
        val % 8192 ≤ portBytes now (idx % 2) false + portBytes now (idx % 2) true
    else false
  | .retire i addr lat latv =>
    ty == 4 && pm && win 0 addr && (if opt then latv && val ≤ lat else eq i.toNat)
  | .marker first port code => ty == 1 && pm && first && eq (port * 65536 + code)
  | .flow handle code _ => ty == 2 && pm && eq ((handle * 16 + code) % 2 ^ 32)
  | .tag tid addr _ => ty == 3 && pm && win 1 addr && eq tid

/-- COUNTER comparators of counter k that pass from below VAL to VAL or above (04_markers Table 4.7). -/
def State.counterCmp (s : State) (n k old new : Nat) : BitVec 16 :=
  (s.comparators n).foldl (fun (m : BitVec 16) c =>
    let g := s.rd (Kx.stnCmpCfg n c)
    let val := (s.rd (Kx.stnCmpVal n c)).toNat
    if fld g 30 28 = 5 && fld g 19 12 = k && old % 2 ^ 32 < val && val ≤ new % 2 ^ 32 then m ||| ((1 : BitVec 16) <<< c) else m) 0

/-- Counter k has moved outside the increments of a cycle: the comparators it has taken past VAL are true in the next one. -/
def State.noteLate (s : State) (n k old new : Nat) : State :=
  s.modStn n fun st => { st with late := st.late ||| s.counterCmp n k old new }

/-- Funnel entry i matches an engine, port and privilege (04_markers R90). -/
def State.mkMatch (s : State) (n i eng port : Nat) (p1 : Bool) : Bool :=
  let g := s.rd (Kx.stnMkSrc n i)
  let em := fld g 15 11
  let pm := fld g 5 1
  g.getLsbD 31 && (eng &&& em) == (fld g 20 16 &&& em) && (port &&& pm) == (fld g 10 6 &&& pm) &&
    privPass (fld g 27 26) p1

/-- The lowest-numbered entry that matches (04_markers R90). -/
def State.mkEntry (s : State) (n eng port : Nat) (p1 : Bool) : Option Nat :=
  (s.funnel n).find? fun i => s.mkMatch n i eng port p1

end Sys2Proof.Machine
end

