-- ==== Sys2Proof/Machine/Sequencer.lean ====
section
/-!
DEFINITION. Repeat runs, snapshot requests, mesh raises and the trigger sequencer: what observations and commits share
(04_markers R92-R94, R100-R109; 03_counters R77).
-/

namespace Sys2Proof.Machine

/-! ## Repeat runs -/

/-- RPT causes (04_markers Table 4.4). -/
def rcChange : Nat := 0
def rcCap : Nat := 1
def rcAge : Nat := 2
def rcEpoch : Nat := 3
def rcGate : Nat := 4
def rcReset : Nat := 5

/-- The reference of funnel entry i at station n. -/
def State.mkRef (s : State) (n i : Nat) : Option MkRef :=
  ((s.stn n).refs.find? fun x => x.1 == i).map (·.2)

/-- Set or drop the reference of funnel entry i. -/
def State.setRef (s : State) (n i : Nat) (r : Option MkRef) : State :=
  s.modStn n fun st =>
    let l := st.refs.filter fun x => x.1 != i
    { st with refs := match r with | some m => l ++ [(i, m)] | none => l }

/-- The RPT record of a run (05_records Table 5.5, 04_markers R93). -/
def rptRecord (m : MkRef) (run : RptRun) (cause : Nat) : Record :=
  let code := (m.beats.headD 0).toNat / 2 ^ 112
  mkRec .rpt (tflags [(b1 m.p1, 7), (cause, 0)]) m.src
    [word64 [(m.src.toNat, 48), (code, 32), (run.count, 16)], BitVec.ofNat 64 run.first, BitVec.ofNat 64 run.last]

/-- Admit an RPT record whose closing edge is `ft`. That of a RESET close is lost under RESET where the open curd cannot take it
(04_markers R93). -/
def State.admitRpt (s : State) (n : Nat) (r : Record) (cause ft : Nat) : State :=
  let lost := cause = rcReset && !((s.stn n).takes { r with seq := (s.stn n).seq, ft := ft })
  (s.admitR n r (if lost then some cReset else none) (some ft)).1

/-- Close the run of entry i, if one is open, at edge `ft`, and take in its RPT record (04_markers R92, R93). -/
def State.closeRun (s : State) (n i cause ft : Nat) : State :=
  match s.mkRef n i with
  | none => s
  | some m =>
    match m.run with
    | none => s
    | some run => (s.setRef n i (some { m with run := none })).admitRpt n (rptRecord m run cause) cause ft

/-- Close every run for a cause and drop every reference: an epoch boundary or a reset (04_markers R94). DESIGN CHOICE (log entry 50): the
RPT records of several runs that close on one edge are admitted in the order in which their references were last set. -/
def State.dropRuns (s : State) (n cause : Nat) : State :=
  let s := ((s.stn n).refs.map (·.1)).foldl (fun s i => s.closeRun n i cause (s.stnFt n)) s
  s.modStn n fun st => { st with refs := [] }

/-! ## Snapshots -/

/-- The least permitted snapshot instant (03_counters R77): 4 µs ahead, 4 µs from every other. -/
def State.snapEarliest (s : State) : Nat :=
  let lead := 4 * usT
  let ok := fun t : Nat => s.snaps.all fun x => t + lead ≤ x.t || x.t + lead ≤ t
  let cands := (s.now + lead) :: (s.snaps.map fun x => x.t + lead).filter fun t => s.now + lead ≤ t
  (cands.filter ok).foldl (fun a t => if t < a then t else a) ((cands.filter ok).headD (s.now + lead))

/-- Completion status codes of a snapshot request; the numbers are those of 10_contexts Table 10.7. -/
inductive SnapRes where
  | ok (id : BitVec 32) (t : Nat)
  | tooSoon
  | busy
  deriving DecidableEq, Repr

/-- Request a device snapshot at T; none asks for the earliest permitted (03_counters R77). -/
def State.requestSnap (s : State) (tq : Option Nat) (asker : Option (Nat × Nat × Bool)) (node : BitVec 32) :
    State × SnapRes :=
  let lead := 4 * usT
  let t := tq.getD s.snapEarliest
  if t < s.now + lead then (s, .tooSoon)
  else if s.snaps.any fun x => !(t + lead ≤ x.t || x.t + lead ≤ t) then (s, .busy)
  else
    let id := s.snapId + 1
    ({ s with snapId := id, snaps := s.snaps ++ [{ id := id, t := t, asker := asker, node := node }] }, .ok id t)

/-- A snapshot requested by a trigger: refused while one is scheduled (04_markers R109). True when refused. -/
def State.triggerSnap (s : State) : State × Bool :=
  if s.snaps.any fun x => s.now < x.t then (s, true) else ((s.requestSnap none none 0).1, false)

/-! ## The mesh -/

/-- TRIG origins (04_markers Table 4.14). -/
def orSeq : Nat := 0
def orCtx : Nat := 1
def orPortB : Nat := 2
def orPin : Nat := 3
def orHold : Nat := 4
def orNode : Nat := 5
def orDet : Nat := 6

/-- Channel identifier of station n's mesh leg (14_startup Table 14.4). -/
def meshLeg (n : Nat) : Nat := 0x3000 + n

/-- Whether a channel is retired (14_startup Table 14.5). -/
def State.chanRetired (s : State) (ch : Nat) : Bool := (sgetD s.chans ch {}).st == 1

/-- Station n's mesh leg carries no events: retired, or not yet restored. The hub relays them over the station link (04_markers R108). -/
def State.legOut (s : State) (n : Nat) : Bool := s.chanRetired (meshLeg n) || (sgetD s.chans (meshLeg n) {}).st == 2

/-- First slot at or after an instant in the mesh domain (04_markers R106). -/
def slotAt (enter : Nat) : Nat := gridUp 16 enter

/-- An instant of a die or hub clock enters the mesh domain at the second reference edge strictly after it (01_unit_anatomy R32,
Table 1.8). -/
def meshEnter (x : Nat) : Nat := (x / 8 + 2) * 8

/-- A pin's change enters the mesh domain two pin-clock cycles later (01_unit_anatomy Table 1.8). -/
def pinEnter (x : Nat) : Nat := meshEnter (x + 160)

/-- Raise mesh lines: the event is in the mesh domain at `enter` and takes the first slot at or after that
(04_markers R106, R107). -/
def State.raise (s : State) (lines : BitVec 8) (origin origId enter evft : Nat) (relayed holdEnd : Bool) : State :=
  if lines = 0 then s
  else
    let e : MeshEv := {
      lines := lines, slot := slotAt enter, origin := BitVec.ofNat 3 origin, origId := BitVec.ofNat 16 origId,
      relayed := relayed, holdEnd := holdEnd, at_ := evft }
    { s with mesh := s.mesh ++ [e] }

/-- A TRIG record body (05_records Table 5.11). -/
def trigBody (origin origId lines fromSt toSt inputs : Nat) : List (BitVec 64) :=
  [word64 [(origin, 61), (origId % 65536, 45), (lines, 37), (fromSt, 34), (toSt, 31), (bitsOf inputs 27 27, 27),
    (inputs % 2 ^ 27, 0)]]

/-- Lines of a mask that partition `part` owns (04_markers Table 4.13). -/
def State.ownsLine (s : State) (part l : Nat) : Bool :=
  !(s.rb (Kx.hubMeshOwn l) 31) && s.rf (Kx.hubMeshOwn l) 7 0 == part

/-- Whether a partition is defined (12_isolation R286). -/
def State.partDefined (s : State) (p : Nat) : Bool := (s.rd (Kx.secPartdef (p / 32))).getLsbD (p % 32)

/-- Whether a permission and partition may raise line l: OPERATOR any, PARTITION its own, TENANT those of the partitions
defined (04_markers R109, 10_contexts R230). -/
def State.lineBy (s : State) (perm : BitVec 2) (part l : Nat) : Bool :=
  if perm = 0 then true
  else if perm = 2 then s.ownsLine part l
  else !(s.rb (Kx.hubMeshOwn l) 31) && s.partDefined (s.rf (Kx.hubMeshOwn l) 7 0)

/-- What the mesh root lets a station raise (04_markers R109); the rest counts as BLOCKED. -/
def State.rootFilter (s : State) (n : Nat) (lines : BitVec 8) : State × BitVec 8 :=
  let by_ := sgetD s.plan.seqBy n (0, 0)
  if by_.1 = 0 then (s, lines)
  else
    let keep := (List.range 8).filter fun l => lines.getLsbD l && s.lineBy by_.1 by_.2.toNat l
    let drop := popcount 8 lines.toNat - keep.length
    (s.incF Kx.hubMeshStat 7 0 drop, BitVec.ofNat 8 (keep.foldl (fun a l => a + 2 ^ l) 0))

/-! ## The sequencer -/

/-- The inputs of the present die cycle, in Table 4.9's places. -/
def seqInputs (st : Stn) : Nat :=
  st.cmpIn.toNat + st.meshIn.toNat * 2 ^ 16 + b1 st.seqr.done0 * 2 ^ 25 + b1 st.seqr.done1 * 2 ^ 26 +
    b1 st.seqr.tmrDone * 2 ^ 27

/-- A condition word over the inputs (04_markers Table 4.9). -/
def condTrue (c : Word) (inputs : Nat) : Bool :=
  let sel := c.toNat % 2 ^ 28 &&& 0xEFFFFFF
  sel != 0 && (if c.getLsbD 31 then sel &&& inputs == sel else sel &&& inputs != 0)

/-- The sequencer works: it is enabled, and the hub has reloaded the station since its reset, which disables it (04_markers R105). -/
def State.seqOn (s : State) (n : Nat) : Bool := s.rb (Kx.stnSeqCfg n) 31 && (s.stn n).reload

/-- The state a transition now due leads to (04_markers R101). -/
def State.seqDue (s : State) (n : Nat) : Option Nat :=
  let st := s.stn n
  let cur := st.seqr.cur.toNat
  let a := s.rd (Kx.stnSeqAct n cur)
  if !(s.seqOn n) then none
  else if condTrue (s.rd (Kx.stnSeqCa n cur)) (seqInputs st) then some (fld a 30 28)
  else if condTrue (s.rd (Kx.stnSeqCb n cur)) (seqInputs st) then some (fld a 26 24)
  else none

/-- The trace gates an admission sees: those of the state that the edge's inputs lead to (R103). Bit 0 MK, 1 PCS,
2 TCAP; all open while the sequencer is disabled. -/
def State.gates (s : State) (n : Nat) : Nat :=
  if s.seqOn n then
    s.rf (Kx.stnSeqAct n ((s.seqDue n).getD (s.stn n).seqr.cur.toNat)) 22 20
  else 7

/-- Load value of occurrence counter i (04_markers Table 4.11). -/
def State.ocLoad (s : State) (n i : Nat) : Nat := max 1 (s.rf (Kx.stnSeqOc n i) 23 0)

/-- The timer's length in ticks (04_markers Table 4.11). -/
def State.tmrLoad (s : State) (n : Nat) : Nat := max 1 (s.rd (Kx.stnSeqTmr n)).toNat * nsT

/-- The MK gate closes as the sequencer goes from one state to another: the runs of its entries close at edge `e` and they drop their
references (04_markers R92, R94). -/
def State.gateClose (s : State) (n fromSt toSt e : Nat) : State :=
  let mk := fun (k : Nat) => (s.rf (Kx.stnSeqAct n k) 22 20).testBit 0
  if mk fromSt && !(mk toSt) then
    ((s.stn n).refs.map (·.1)).foldl (fun s i =>
      if s.rb (Kx.stnMkSrc n i) 30 then (s.closeRun n i rcGate e).setRef n i none else s) s
  else s

/-- Enter a sequencer state from another: the entry actions in their order (04_markers R101). `e` is the firing edge, which the TRIG record
names, and the state changes `delay` ticks after it: two die cycles in a transition (R103). -/
def State.seqEnter (s : State) (n fromSt toSt e delay : Nat) : State :=
  let st := s.stn n
  let inputs := seqInputs st
  let act := s.rd (Kx.stnSeqAct n toSt)
  let q := st.seqr
  let q := { q with cur := BitVec.ofNat 3 toSt, done0 := false, done1 := false, tmrDone := false }
  let q := if act.getLsbD 9 then { q with oc1 := s.ocLoad n 1 } else q
  let q := if act.getLsbD 8 then { q with oc0 := s.ocLoad n 0 } else q
  let q := if act.getLsbD 7 then { q with tmr := some (e + delay + s.tmrLoad n) } else q
  let s := s.setStn n { st with seqr := q, cmpIn := 0, meshIn := 0 }
  let s := s.gateClose n fromSt toSt e
  let (s, out) := s.rootFilter n (BitVec.ofNat 8 (fld act 19 12))
  let relayed := s.legOut n
  let s := s.raise out orSeq n (meshEnter (s.now + delay)) e relayed false
  let (s, refused) := if act.getLsbD 10 then s.triggerSnap else (s, false)
  if act.getLsbD 11 then
    (s.admitR n (mkRec .trig (tflags [(b1 relayed, 7), (b1 refused, 6)]) (srcId n 0 0)
      (trigBody orSeq n (fld act 19 12) fromSt toSt inputs)) none (some e)).1
  else s

/-- Take the transition that the edge's inputs make due (04_markers R101, R103). -/
def State.seqStep (s : State) (n : Nat) : State :=
  match s.seqDue n with
  | none => s
  | some t =>
    (s.incF (Kx.stnSeqStat n) 31 24 1).seqEnter n (s.stn n).seqr.cur.toNat t (s.stn n).inAt (2 * (s.stn n).cyc)

/-- The input an occurrence counter counts is true (04_markers Table 4.11). -/
def ocInput (st : Stn) (src : Nat) : Bool :=
  if src < 16 then st.cmpIn.getLsbD src else if src < 24 then st.meshIn.getLsbD (src - 16) else false

/-- Comparator and mesh inputs true at edge e; the occurrence counters count them once a cycle (04_markers R102, R103). -/
def State.latchInputs (s : State) (n : Nat) (cmp : BitVec 16) (mesh : BitVec 8) : State :=
  let st := s.stn n
  let st := { st with cmpIn := st.cmpIn ||| cmp, meshIn := st.meshIn ||| mesh }
  if !(s.seqOn n) then s.setStn n st
  else
    let hit0 := !st.ocHit0 && ocInput st (s.rf (Kx.stnSeqOc n 0) 31 27)
    let hit1 := !st.ocHit1 && ocInput st (s.rf (Kx.stnSeqOc n 1) 31 27)
    let q := st.seqr
    let q := if hit0 then { q with oc0 := q.oc0 - 1, done0 := q.done0 || q.oc0 == 1 } else q
    let q := if hit1 then { q with oc1 := q.oc1 - 1, done1 := q.done1 || q.oc1 == 1 } else q
    s.setStn n { st with seqr := q, ocHit0 := st.ocHit0 || hit0, ocHit1 := st.ocHit1 || hit1 }

/-- Mesh events that the receiver of station n, which takes 3 die cycles (04_markers R107), has by now. -/
def State.meshHere (s : State) (n : Nat) : BitVec 8 :=
  ((s.stn n).meshQ.filter fun x => x.1 + 2 * (s.stn n).cyc < s.now).foldl (fun (m : BitVec 8) x => m ||| x.2) 0

/-- A new die cycle at edge e: the inputs of the cycle before end (R103), and those that no observation brings are true in this one:
comparators of counters that have passed VAL since (Table 4.7), mesh events that have arrived, and the timer at its end (R102). -/
def State.newCycle (s : State) (n e : Nat) : State :=
  let late := (s.stn n).late
  let mesh := s.meshHere n
  let q := (s.stn n).seqr
  let done := s.seqOn n && q.tmr.any (· ≤ e)
  (s.modStn n fun st =>
    { st with
      inAt := e, cmpIn := 0, meshIn := 0, ocHit0 := false, ocHit1 := false, late := 0,
      meshQ := st.meshQ.filter fun x => !(x.1 + 2 * st.cyc < s.now),
      seqr := { st.seqr with done0 := false, done1 := false, tmrDone := done, tmr := if done then none else st.seqr.tmr } }).latchInputs n
    late mesh

/-- The sequencer enters INIT at edge `e`: at enable, and at a commit that changed its registers (04_markers R102, R105). -/
def State.seqInit (s : State) (n e : Nat) : State :=
  let s := s.modStn n fun st =>
    { st with
      seqr := { cur := st.seqr.cur, oc0 := s.ocLoad n 0, oc1 := s.ocLoad n 1, tmr := some (e + s.tmrLoad n) },
      cmpIn := 0, meshIn := 0 }
  if s.seqOn n then s.seqEnter n (s.stn n).seqr.cur.toNat (s.rf (Kx.stnSeqCfg n) 2 0) e 0
  else s.modStn n fun st => { st with seqr := { st.seqr with tmr := none } }

end Sys2Proof.Machine
end

