-- ==== Sys2Proof/Machine/Tensor.lean ====
section
/-!
DEFINITION. Tensor watch at a station: openings, bursts, reads, numeric reports, closes, and their records
(08_tensor R185-R201). The commands of the tensor-tag port and of the reader.
-/

namespace Sys2Proof.Machine

/-! ## Places in curds -/

/-- Write the contents of the record with sequence number q, wherever its curd is (01_unit_anatomy R405). -/
def State.fillRec (s : State) (n q : Nat) (f : Record → Record) : State :=
  let onC := fun c : Curd => { c with recs := c.recs.map fun r => if r.seq == q then f r else r }
  s.modStn n fun st =>
    { st with
      cur := st.cur.map onC, closed := st.closed.map fun h => { h with curd := onC h.curd } }

/-- Close causes of accumulations (08_tensor Table 8.6). -/
def ccEnd : Nat := 0
def ccStep : Nat := 1
def ccIdle : Nat := 2
def ccRemove : Nat := 3
def ccRestart : Nat := 4

/-! ## Watches -/

/-- The watch with a WID. -/
def State.watch (s : State) (w : Nat) : Option Watch := sget s.watches w

/-- The step matches the watch's STEPMODE (08_tensor Table 8.3). -/
def stepMatch (a : WatchArgs) (step : BitVec 32) : Bool :=
  if a.stepMode = 0 then step == a.step0
  else if a.stepMode = 1 then a.step0 ≤ step && (step.toNat - a.step0.toNat) % a.step1.toNat == 0
  else a.step0 ≤ step && step ≤ a.step1

/-- The tensor is the watch's: some true for its scale tensor. -/
def watchTid (a : WatchArgs) (tid : BitVec 24) : Option Bool :=
  if tid = 0 then none
  else if tid = a.tid then some false
  else if a.sfmt = 0xA && tid == a.stid then some true
  else none

/-- WIDs in effect at station n that take part for tap e, ascending. -/
def State.watchesAt (s : State) (n e : Nat) : List Nat :=
  (s.stn n).armed.filter fun w =>
    match s.watch w with
    | some x => x.args.dieMask.getLsbD n && x.args.master.getLsbD e
    | none => false

/-- Change the accumulation with a number. -/
def State.modAcc (s : State) (n id : Nat) (f : Accum → Accum) : State :=
  s.modStn n fun st => { st with accs := replaceFirst (fun a => a.id == id) f st.accs }

/-- The open accumulation of a watch. -/
def openAcc (st : Stn) (w : Nat) : Option Accum := st.accs.find? fun a => a.wid == w && a.cause.isNone

/-- Cipher units in use: open streams, and closed ones whose reads are out (08_tensor R191). -/
def State.ciphers (s : State) (n : Nat) : Nat :=
  ((s.stn n).accs.filter fun a => match s.watch a.wid with | some x => x.args.capture | none => false).length

/-- The source of a tensor record of tap e. -/
def State.tensorSrc (_s : State) (n e : Nat) : BitVec 16 := srcId n e 0

/-! ## Statistics -/

/-- EXPLO of a watch (08_tensor Table 8.3). -/
def exploOf (a : WatchArgs) : Int := if a.explo = 0x80 then fmtExplo a.fmt.toNat else a.explo.toInt

/-- Add one to a bin. -/
def addBin (h : List (Nat × Nat)) (b : Nat) : List (Nat × Nat) := sadd h b 1

/-- Take one element of the element tensor (08_tensor R196). -/
def Stats.elem (a : WatchArgs) (t : Stats) : Elem → Stats
  | .zero => { t with zero := t.zero + 1 }
  | .nan => { t with nan := t.nan + 1 }
  | .inf => { t with inf := t.inf + 1 }
  | .fin m e sub =>
    let b := min 63 (max 0 (elemExp m e - exploOf a)).toNat
    { t with exph := addBin t.exph b, subn := t.subn + b1 sub }

/-- Take one scale value (08_tensor R196). -/
def Stats.scale (a : WatchArgs) (t : Stats) (v : Byte) : Stats :=
  let b := if v = 0xFF then 63 else min 62 (v.toNat - min 192 a.sblo.toNat)
  { t with bsh := addBin t.bsh b }

/-- Fold the bytes of a readable burst (08_tensor R196). -/
def Stats.fold (a : WatchArgs) (t : Stats) (scale : Bool) (data : List Byte) : Stats :=
  if scale then data.foldl (Stats.scale a) t else (elemsOf a.fmt.toNat data).foldl (Stats.elem a) t

/-- MIN, MAX and L2 over the finite elements, in presentation order (08_tensor R196). -/
def valueStats (a : WatchArgs) (vals : List (Nat × List Byte)) : BitVec 64 × BitVec 64 × BitVec 64 :=
  let es := vals.flatMap fun v => elemsOf a.fmt.toNat v.2
  let fs := es.filterMap fun x => match x with | .zero => some (0 : BitVec 64) | .fin m e _ => some (fpOf m e) | _ => none
  let lo := fs.foldl (fun (o : Option (BitVec 64)) x => match o with | none => some x | some y => some (if fpLt x y then x else y)) none
  let hi := fs.foldl (fun (o : Option (BitVec 64)) x => match o with | none => some x | some y => some (if fpLt y x then x else y)) none
  let sq := fs.foldl (fun acc x => fpAdd acc (fpMul x x)) 0
  (lo.getD 0x7FF0000000000000, hi.getD 0xFFF0000000000000, fpSqrt sq)

/-- 64 bins of 48 bits as 48 words (05_records Table 5.7). -/
def binWords (h : List (Nat × Nat)) : List (BitVec 64) :=
  let n := h.foldl (fun a b => a + b.2 * 2 ^ (48 * b.1)) 0
  (List.range 48).map fun i => BitVec.ofNat 64 (n >>> (64 * i))

/-- The body of a TSTAT record (05_records Table 5.7). -/
def tstatBody (a : WatchArgs) (x : Accum) (values : Bool) : List (BitVec 64) :=
  let t := x.stats
  [word64 [(a.tid.toNat, 40), (x.step.toNat, 8), (a.sfmt.toNat, 4)], BitVec.ofNat 64 x.first] ++
    ([t.nelem, t.zero, t.subn, t.nan, t.inf, t.sat, t.flush].map (BitVec.ofNat 64)) ++ binWords t.exph ++ binWords t.bsh ++
    (if values then let v := valueStats a x.vals; [v.1, v.2.1, v.2.2] else [])

/-! ## Captures -/

/-- Bytes as 64-bit words, zero-padded. -/
def padWords (bs : List Byte) : List (BitVec 64) :=
  (List.range ((bs.length + 7) / 8)).map fun i => BitVec.ofNat 64 (natOfBytes ((bs.drop (8 * i)).take 8))

/-- Round up to a multiple of 16. -/
def up16 (n : Nat) : Nat := (n + 15) / 16 * 16

/-- A TCAP record (05_records Table 5.7). -/
def tcapRec (src : BitVec 16) (a : WatchArgs) (step : BitVec 32) (capId : BitVec 32) (chunk off : Nat) (data : List Byte)
    (tag : Option (BitVec 128)) : Record :=
  mkRec .tcap (tflags [(b1 (chunk == 0), 7), (b1 tag.isSome, 6)]) src
    ([word64 [(a.tid.toNat, 40), (step.toNat, 8)], word64 [(capId.toNat, 32), (chunk, 0)],
      word64 [(off, 32), (data.length, 0)]] ++ padWords data ++
      (match tag with | some g => [g.setWidth 64, (g >>> 64).setWidth 64] | none => []))

/-- The header of a segment (08_tensor Table 8.6): why is 0 for a read burst, 1 MISSED, 2 OVERWRITTEN, 3 EXCLUDED. -/
def segHeader (b : Burst) (scale : Bool) (idx why : Nat) : List Byte :=
  bytesOf64 (word64 [(b.addr, 16), (b.len, 0)]) ++
    bytesOf64 (word64 [(b.engine, 59), (b1 scale, 58), (b1 (why == 1), 57), (b1 (why == 2), 56), (b1 (why == 3), 55),
      (idx, 0)])

/-- The low `n` bytes of a number, most significant first. -/
def beBytes (n w : Nat) : List Byte := (bytesOfNat n w).reverse

/-- Bytes as a number, most significant first. -/
def natOfBe (l : List Byte) : Nat := natOfBytes l.reverse

/-- HMAC-SHA-384 (RFC 2104), for keys of at most one block of 128 B. -/
def hmac384 (key msg : List Byte) : BitVec 384 :=
  let k := key ++ List.replicate (128 - key.length) 0
  Config.sha384 (k.map (· ^^^ 0x5C#8) ++
    beBytes 48 (Config.sha384 (k.map (· ^^^ 0x36#8) ++ msg)).toNat)

/-- Key and IV of a capture: HKDF-SHA-384 with 44 B of output, which lie in its first block (08_tensor R199). -/
def captureOkm (keyId : BitVec 32) (z : BitVec 384) (capId : BitVec 32) (die : Nat) : BitVec 352 :=
  let prk := hmac384 (beBytes 4 keyId.toNat) (beBytes 48 z.toNat)
  let info : List Byte := [0x4B, 0x58, 0x34, 0x30, 0x20, 0x54, 0x43, 0x41, 0x50] ++ beBytes 4 capId.toNat ++ beBytes 1 die
  (hmac384 (beBytes 48 prk.toNat) (info ++ [1]) >>> 32).setWidth 352

/-- The additional data of a capture (08_tensor R199). -/
def captureAad (w : Watch) (step : BitVec 32) (die : Nat) : List Byte :=
  beBytes 4 w.capId.toNat ++ beBytes 4 w.args.keyId.toNat ++ beBytes 4 step.toNat ++ beBytes 3 w.args.tid.toNat ++
    beBytes 1 die

/-- Key and IV of a capture stream. -/
def capKey (x : Accum) : BitVec 256 := (x.okm >>> 96).setWidth 256
def capIv (x : Accum) : BitVec 96 := x.okm.setWidth 96

/-- Who a tensor record is for (08_tensor R198). -/
def State.watchOwn (s : State) (w : Watch) : Option (Nat × BitVec 2 × BitVec 8) :=
  if w.oper then none else some (w.ctx, (s.ctx w.ctx).perm, (s.ctx w.ctx).part)

/-- Write the ciphertext of a segment into its records (08_tensor R201). -/
def State.fillSeg (s : State) (n : Nat) (b : Burst) (why : Nat) (data : List Byte) (g : Seg) : State :=
  match (s.stn n).accs.find? fun x => x.id == g.acc with
  | none => s
  | some x =>
    match s.watch x.wid with
    | none => s
    | some _ =>
      let body := if why = 0 then data.take b.len else List.replicate b.len 0
      let plain := segHeader b ((g.acc, true) ∈ b.accs) g.idx why ++ body ++ List.replicate (up16 b.len - body.length) 0
      let ct := Config.aesGcm (capKey x) (capIv x) g.off plain
      let s := s.modAcc n x.id fun y => { y with plain := sput y.plain g.off plain }
      (g.seqs.zip (List.range g.seqs.length)).foldl (fun s (q, i) =>
        s.fillRec n q fun r =>
          let part := (ct.drop (960 * i)).take 960
          let want := r.body.length - 3
          { r with body := r.body.take 3 ++ (padWords part ++ List.replicate (want - (padWords part).length) 0).take want,
                   filled := true }) s

/-- Write what waits for the last read of a closed accumulation, and forget it (08_tensor R197, R201). -/
def State.finishAcc (s : State) (n id : Nat) : State :=
  let st := s.stn n
  match st.accs.find? fun a => a.id == id with
  | none => s
  | some x =>
    if x.cause.isNone || x.lastDue || st.bursts.any fun b => b.accs.any fun a => a.1 == id then s
    else
      match s.watch x.wid with
      | none => s.modStn n fun st => { st with accs := removeFirst (fun a => a.id == id) st.accs }
      | some w =>
        let s := (x.recs.zip (List.range x.recs.length)).foldl (fun s (q, i) =>
          s.fillRec n q fun r => { r with body := tstatBody w.args x (i == 1), filled := true }) s
        let s := match x.lastc with
          | none => s
          | some q =>
            let total := x.offset + 16
            let trailer := bytesOf64 (word64 [(total, 16)]) ++
              bytesOf64 (word64 [(1, 54), (x.cause.getD 0, 51), (b1 (0 < x.past), 50), (min x.past (2 ^ 32 - 1), 0)])
            let ct := Config.aesGcm (capKey x) (capIv x) x.offset trailer
            let tag := Config.aesTag (capKey x) (capIv x) (captureAad w x.step n) ((x.plain.flatMap fun (p : Nat × List Byte) => p.2) ++ trailer)
            s.fillRec n q fun r =>
              { r with body := (tcapRec r.src w.args x.step w.capId x.chunk x.offset ((ct ++ List.replicate 16 0).take 16)
                          (some tag)).body, filled := true }
        s.modStn n fun st => { st with accs := removeFirst (fun a => a.id == id) st.accs }

/-- A tensor record with its place still empty, for whom the watch says (08_tensor R197, R198). -/
def State.tensorHold (s : State) (w : Watch) (r : Record) : Record := { r with filled := false, own := s.watchOwn w }

/-- Close an accumulation at an edge (08_tensor R195, R197, R201): its TSTAT records, and a close counted for the watch. The LASTC record
of a capture follows every TSTAT record of the edge (`admitLastc`), and the hub and the station forget its key but for the stream that
is still to be finished (R199). -/
def State.closeAcc (s : State) (n id cause : Nat) : State :=
  match (s.stn n).accs.find? fun a => a.id == id && a.cause.isNone with
  | none => s
  | some x =>
    match s.watch x.wid with
    | none => s
    | some w =>
      let src := s.tensorSrc n ((x.contrib.headD (0, false)).1)
      let s := s.modAcc n id fun a => { a with cause := some cause, lastDue := w.args.capture }
      let s :=
        if w.args.capture then s.modStn n fun st => { st with keys := sdel st.keys x.wid }
        else
          let one := fun (s : State) (v : Bool) =>
            let (s, r, ok) := s.admitR n (s.tensorHold w (mkRec .tstat (tflags [(b1 v, 7), (w.args.fmt.toNat, 0)]) src
              (List.replicate (if v then 108 else 105) 0))) none none
            s.modAcc n id fun a => { a with recs := a.recs ++ (if ok then [r.seq] else []) }
          let s := one s false
          if w.args.values then one s true else s
      let s := { s with watches := sput s.watches x.wid { w with closes := sadd w.closes n 1, okm := 0 } }
      s.finishAcc n id

/-- The LASTC records of the captures that closed on this edge, after the TSTAT records of the edge (08_tensor R201). -/
def State.admitLastc (s : State) (n : Nat) : State :=
  ((s.stn n).accs.filter (·.lastDue)).foldl (fun s x =>
    match s.watch x.wid with
    | none => s.modAcc n x.id fun a => { a with lastDue := false }
    | some w =>
      let src := s.tensorSrc n ((x.contrib.headD (0, false)).1)
      let (s, r, ok) := s.admitR n (s.tensorHold w (tcapRec src w.args x.step w.capId x.chunk x.offset (List.replicate 16 0)
        (some 0))) none none
      (s.modAcc n x.id fun a => { a with lastDue := false, lastc := if ok then some r.seq else none }).finishAcc n x.id) s

/-- A queued burst leaves the reader: its data, or why it is unreadable (08_tensor R192, R200). -/
def State.resolveBurst (s : State) (n : Nat) (b : Burst) (why : Nat) (data : List Byte) : State :=
  let s := s.modStn n fun st => { st with bursts := removeFirst (fun x => x.id == b.id) st.bursts }
  let s :=
    if why = 0 then
      b.accs.foldl (fun s (id, scale) =>
        match (s.stn n).accs.find? fun a => a.id == id with
        | none => s
        | some x =>
          match s.watch x.wid with
          | none => s
          | some w =>
            if w.args.capture then s
            else s.modAcc n id fun a =>
              { a with
                stats := a.stats.fold w.args scale data,
                vals := if w.args.values && !scale then sput a.vals b.id data else a.vals }) s
    else s
  let s := b.segs.foldl (fun s g => s.fillSeg n b why data g) s
  b.accs.foldl (fun s a => s.finishAcc n a.1) s

/-- Count an unreadable burst (08_tensor Table 8.7). -/
def State.countBad (s : State) (n why : Nat) : State :=
  if why = 1 then s.incF (Kx.stnTwStat0 n) 31 16 1
  else if why = 2 then s.incF (Kx.stnTwStat0 n) 15 8 1
  else s.incF (Kx.stnTwStat0 n) 7 0 1

/-- Two byte ranges overlap. -/
def overlaps (a la b lb : Nat) : Bool := a < b + lb && b < a + la

/-- The burst touches an enabled exclusion range (08_tensor R188). -/
def State.excluded (s : State) (addr len : Nat) : Bool :=
  (List.range 8).any fun i =>
    s.rb Kx.hubTwExclCtl i &&
      (let base := s.rd64 (Kx.hubTwExclBaseLo i) (Kx.hubTwExclBaseHi i)
       let lim := s.rd64 (Kx.hubTwExclLimitLo i) (Kx.hubTwExclLimitHi i)
       addr ≤ lim && base < addr + len)

/-! ## Bursts -/

/-- A burst feeds an open accumulation: contributor, element count, and in a capture its segment's TCAP records
(08_tensor R191, R200, R201). Once one burst has passed CAPMAX, no later one has a segment. Answers the state and the segment. -/
def State.feed (s : State) (n e id : Nat) (scale : Bool) (len ft : Nat) : State × Option Seg :=
  match (s.stn n).accs.find? fun a => a.id == id with
  | none => (s, none)
  | some x =>
    match s.watch x.wid with
    | none => (s, none)
    | some w =>
      let s := s.modAcc n id fun a => { a with contrib := insertNew a.contrib (e, scale), last := ft }
      if !w.args.capture then
        let f := if scale then 10 else w.args.fmt.toNat
        let s := if oddLen f len then s.incF (Kx.stnTwStat1 n) 7 0 1 else s
        (if scale then s else s.modAcc n id fun a => { a with stats := { a.stats with nelem := a.stats.nelem + elemCount f len } },
          none)
      else if scale && !w.args.capScale then (s, none)
      else
        let seg := 16 + up16 len
        if 0 < x.past || clamp1 64 w.args.capMax.toNat * 2 ^ 20 - 16 < x.offset + seg then
          (s.modAcc n id fun a => { a with past := min (2 ^ 32 - 1) (a.past + 1) }, none)
        else
          let nch := (seg + 959) / 960
          let (s, seqs) := (List.range nch).foldl (fun (acc : State × List Nat) i =>
            let dlen := if i + 1 = nch then seg - 960 * i else 960
            let r := acc.1.tensorHold w (tcapRec (s.tensorSrc n e) w.args x.step w.capId (x.chunk + i) (x.offset + 960 * i)
              (List.replicate dlen 0) none)
            let (s, r, ok) := acc.1.admitR n r none none
            (s, acc.2 ++ (if ok then [r.seq] else [2 ^ 64]))) (s, [])
          (s.modAcc n id fun a => { a with chunk := a.chunk + nch, offset := a.offset + seg, nburst := a.nburst + 1 },
            some { acc := id, idx := x.nburst, off := x.offset, seqs := seqs })

/-- Watch w would take a burst of this tensor and step at station n, were no accumulation of it open: EN, STEPMODE, and the closes it may
still make (08_tensor R190, R191). -/
def State.wants (s : State) (n : Nat) (x : Watch) (step : BitVec 32) : Bool :=
  stepMatch x.args step && s.rb (Kx.stnTwCfg n) 31 && s.rb Kx.hubTwCfg 31 &&
    (if x.args.capture then sgetD x.closes n 0 == 0 else x.args.count == 0 || decide (sgetD x.closes n 0 < x.args.count.toNat))

/-- A later tag of this cycle opens capture w (08_tensor R191). -/
def State.rival (s : State) (n w : Nat) (rest : List TapOp) : Bool :=
  match s.watch w with
  | none => false
  | some x => x.args.capture && (openAcc (s.stn n) w).isNone && rest.any fun o =>
      match o with
      | .tag e tid step _ _ ends _ _ =>
        !ends && x.args.dieMask.getLsbD n && x.args.master.getLsbD e && (watchTid x.args tid).isSome && s.wants n x step
      | _ => false

/-- A cipher unit is free for capture w: lower WIDs that match in the same cycle take theirs first (08_tensor R191). -/
def State.cipherFree (s : State) (n w : Nat) (rest : List TapOp) : Bool :=
  s.ciphers n + ((s.stn n).armed.filter fun k => decide (k < w) && s.rival n k rest).length < 2

/-- A burst may open an accumulation of watch w (08_tensor R191). Answers its number. `rest`: the tags of the cycle after this one. -/
def State.openWatch (s : State) (n w : Nat) (step : BitVec 32) (ft : Nat) (rest : List TapOp) : State × Option Nat :=
  match s.watch w with
  | none => (s, none)
  | some x =>
    if !(s.wants n x step) then (s, none)
    else if x.args.capture && s.rb (Kx.stnSeqCfg n) 29 && !((s.gates n).testBit 2) then (s, none)
    else if x.args.capture && !(s.cipherFree n w rest) then (s.incF (Kx.stnTwStat1 n) 23 16 1, none)
    else if (s.stn n).defer then (s.incF (Kx.stnTwStat1 n) 31 24 1, none)
    else
      let id := (s.stn n).nburst
      (s.modStn n fun st =>
        { st with
          nburst := id + 1
          accs := st.accs ++ [{ id := id, wid := w, step := step, first := ft, last := ft, okm := sgetD st.keys w 0 }] },
        some id)

/-- The end tag of a contributor stands among the tags of this cycle (08_tensor R195). -/
def endsIn (a : WatchArgs) (step : BitVec 32) (rest : List TapOp) (c : Nat × Bool) : Bool :=
  rest.any fun o =>
    match o with
    | .tag e tid st _ _ ends _ _ => ends && e == c.1 && watchTid a tid == some c.2 && st == step
    | _ => false

/-- Every contributor of an accumulation has ended, or ends in this cycle: an END closes it even where a STEP falls in the same cycle
(08_tensor R195). -/
def Accum.endsNow (x : Accum) (a : WatchArgs) (rest : List TapOp) : Bool :=
  x.contrib.all fun c => decide (c ∈ x.ended) || endsIn a x.step rest c

/-- One watch sees a burst: it closes under STEP, opens, and takes the burst. Answers what it adds to the read. -/
def State.watchBurst (s : State) (n e w : Nat) (tid : BitVec 24) (step : BitVec 32) (len ft : Nat) (rest : List TapOp) :
    State × Option (Nat × Bool × Option Seg) :=
  match s.watch w with
  | none => (s, none)
  | some x =>
    match watchTid x.args tid with
    | none => (s, none)
    | some scale =>
      let s := match openAcc (s.stn n) w with
        | some a =>
          if a.step != step && (e, scale) ∈ a.contrib then
            s.closeAcc n a.id (if a.endsNow x.args rest then ccEnd else ccStep)
          else s
        | none => s
      let (s, id) := match openAcc (s.stn n) w with
        | some a => (s, if a.step = step then some a.id else none)
        | none => s.openWatch n w step ft rest
      match id with
      | none => (s, none)
      | some id => let (s, g) := s.feed n e id scale len ft; (s, some (id, scale, g))

/-- Bytes a station may read in a die cycle (08_tensor Table 8.7 RDB). -/
def State.rdb (s : State) (n : Nat) : Nat := 8 * 2 ^ s.rf (Kx.stnTwCfg n) 25 24

/-- The reader takes a burst into its queue and gives it its place behind the reads it holds: they leave at RDB bytes a die cycle, and
one that would leave later than 1 µs after its presentation is not issued (08_tensor R192, R202; log entry 51). -/
def State.queueBurst (s : State) (n : Nat) (b : Burst) : State :=
  s.modStn n fun st =>
    let start := max b.at_ st.rdFree
    let late := decide (b.at_ + usT < start)
    { st with
      bursts := st.bursts ++ [{ b with issueAt := start }]
      rdFree := if late then st.rdFree else start + (b.len + s.rdb n - 1) / s.rdb n * st.cyc }

/-- A burst is presented to tensor watch (08_tensor R191-R193). `rest`: the tags of the cycle after this one. -/
def State.tensorBurst (s : State) (n e : Nat) (tid : BitVec 24) (step : BitVec 32) (addr len ft : Nat) (rest : List TapOp) : State :=
  -- queued bursts that this write overwrites
  let hit := (s.stn n).bursts.filter fun b => overlaps b.addr b.len addr len
  let s := hit.foldl (fun s b => (s.countBad n 2).resolveBurst n b 2 []) s
  let (s, got) := (s.watchesAt n e).foldl (fun (acc : State × List (Nat × Bool × Option Seg)) w =>
    let (s, g) := acc.1.watchBurst n e w tid step len ft rest
    (s, acc.2 ++ g.toList)) (s, [])
  if got.isEmpty then s
  else
    let st := s.stn n
    let b : Burst := {
      id := st.nburst, engine := e, addr := addr, len := len, at_ := ft,
      accs := got.map (fun g => (g.1, g.2.1)), segs := got.filterMap (·.2.2) }
    let s := s.setStn n { st with nburst := st.nburst + 1 }
    if s.excluded addr len then (s.countBad n 3).resolveBurst n b 3 []
    else if 256 ≤ st.bursts.length then (s.countBad n 1).resolveBurst n b 1 []
    else s.queueBurst n b

/-- An end tag (08_tensor R195): a contributor ends; the accumulation closes once every contributor has. -/
def State.tensorEnd (s : State) (n e : Nat) (tid : BitVec 24) (step : BitVec 32) (ft : Nat) : State :=
  (s.watchesAt n e).foldl (fun s w =>
    match s.watch w, openAcc (s.stn n) w with
    | some x, some a =>
      match watchTid x.args tid with
      | none => s
      | some scale =>
        if a.step != step || !((e, scale) ∈ a.contrib) then s
        else
          let ended := insertNew a.ended (e, scale)
          let s := s.modAcc n a.id fun a => { a with ended := ended, last := ft }
          if a.contrib.all fun c => c ∈ ended then s.closeAcc n a.id ccEnd else s
    | _, _ => s) s

/-- A numeric report of tap e: beats 0 and 1 of a marker of code 0xFFF0 (08_tensor R194). It is late where its engine contributes to no
open accumulation, a capture's included, of the tensor and the step. -/
def State.numericReport (s : State) (n e : Nat) (beat0 beat1 : BitVec 128) : State :=
  let tid := BitVec.ofNat 24 (bitsOf beat0.toNat 95 72)
  let step := BitVec.ofNat 32 (bitsOf beat0.toNat 71 40)
  let sat := bitsOf beat1.toNat 127 80
  let flush := bitsOf beat1.toNat 79 32
  let hit := (s.stn n).accs.filter fun a =>
    a.cause.isNone && a.step == step && a.contrib.any (fun c => c.1 == e) &&
      (match s.watch a.wid with | some x => x.args.tid == tid | none => false)
  let s :=
    if hit.isEmpty then s.incF (Kx.stnTwStat1 n) 15 8 1
    else hit.foldl (fun s a => s.modAcc n a.id fun a =>
      { a with stats := { a.stats with sat := a.stats.sat + sat, flush := a.stats.flush + flush } }) s
  -- OVF, UNF, INX, INV from bit 31 down, WRAP in bit 27: sticky bits 0 to 4
  (List.range 5).foldl (fun s i => if beat1.getLsbD (31 - i) then s.setB (Kx.stnTwNflag n) i true else s) s

/-- An accumulation idle for IDLE µs, with no burst or end tag, closes (08_tensor R195, Table 8.7). -/
def State.idleClose (s : State) (n w : Nat) : State :=
  match openAcc (s.stn n) w with
  | none => s
  | some a =>
    let idle := clampN 10 1000000 (s.rf (Kx.stnTwCfg n) 19 0) * usT
    if a.last + idle ≤ s.stnFt n then s.closeAcc n a.id ccIdle else s

/-! ## Commands of the reader -/

/-- The reader has issued, or will issue, the burst's read within 1 µs of its presentation (08_tensor R192). -/
def Burst.issued (b : Burst) : Bool := decide (b.issueAt ≤ b.at_ + usT)

/-- TENSOR_READ_COMPLETE: a read that was issued returns and its burst is folded and encrypted (08_tensor R192, R196, R200). -/
def execTensorReadComplete (t : Nat) (die : Fin 40) (burst : Nat) (data : List Byte) (s : State) :
    Host.Outcome State Fault Refusal :=
  onStn t die (fun s =>
    match (s.stn die).bursts.find? fun b => b.id == burst && b.issued && decide (b.issueAt ≤ s.stnFt die) with
    | none => s
    | some b =>
      (s.modStn die fun st => { st with offer := { st.offer with reads := st.offer.reads + b.len } }).resolveBurst die b 0
        ((data ++ List.replicate b.len 0).take b.len)) s

/-- TENSOR_READ_DEADLINE: a read not issued within 1 µs of the burst; the burst is MISSED (08_tensor R192). -/
def execTensorReadDeadline (t : Nat) (die : Fin 40) (burst : Nat) (s : State) : Host.Outcome State Fault Refusal :=
  onStn t die (fun s =>
    match (s.stn die).bursts.find? fun b => b.id == burst && !b.issued with
    | none => s
    | some b =>
      if b.at_ + usT ≤ s.stnFt die then (s.countBad die 1).resolveBurst die b 1 [] else s) s

end Sys2Proof.Machine
end

