-- ==== Sys2Proof/Machine/Taps.lean ====
section
/-!
DEFINITION. What the observations of a station's tap ports do: event lines, retirements, markers, flow events and tensor tags
(01_unit_anatomy R16-R19, 03_counters, 04_markers, 07_sequence_ledger R161, 08_tensor R187). The commands of the tap ports, and how the
events of one die edge act together, stand in Cycle.lean.
-/

namespace Sys2Proof.Machine

/-! ## TIME increments and what follows every observation -/

/-- The analysis slice of a tap (03_counters, Windowed per-port bandwidth). -/
def State.anSlice (s : State) (n e : Nat) : Nat := s.sliceOf n e / 2

/-- Window of analysis slice a of station n in force, in ticks (03_counters Table 3.13). -/
def State.bwWin (s : State) (n a : Nat) : Nat :=
  min 60000000 (clampN 1 60000000 (s.rf (Kx.stnBwcfg n a) 25 0) * 2 ^ sgetD (s.stn n).levBw a 0) * usT

/-- Change the row of port p in the BW window that holds instant `ft`, which opens with it (03_counters R79). -/
def State.bwRow (s : State) (n p ft : Nat) (f : BwPort → BwPort) : State :=
  let w := gridAt (s.bwWin n (s.anSlice n (p / 2))) ft
  s.modStn n fun st =>
    let rows := if st.bw.any fun b => b.port == p && b.start == w then st.bw
      else st.bw ++ [{ port := p, start := w, subAt := gridAt usT ft }]
    { st with bw := replaceFirst (fun b => b.port == p && b.start == w) f rows }

/-- Add a TIME increment of `v` for the ticks from `edge` on: keys below 320 are counters, 1000 + p the active ticks of port p, which fall
in the window of their tick (03_counters R67, R79). -/
def State.addTime (s : State) (n key v edge : Nat) : State :=
  if v = 0 then s
  else if key < 256 then
    let old := sgetD (s.stn n).cnt key 0
    (s.bump n key v).noteLate n key old (old + v)
  else if key < 320 then s.bump n key v
  else
    let p := key - 1000
    let stop := gridUp (s.bwWin n (s.anSlice n (p / 2))) (edge + 1)
    let first := min v (stop - edge)
    let s := s.bwRow n p edge fun b => { b with act := b.act + first }
    if first = v then s else s.bwRow n p stop fun b => { b with act := b.act + (v - first) }

/-- Give what TIME increments are for the ticks of their die cycles before instant `upto`: the cycles that have ended by then and, with
`split`, the part of the one in hand (03_counters R67, R73). `keys` says for what. -/
def State.settlePend (s : State) (n upto : Nat) (split : Bool) (keys : Nat → Bool) : State :=
  let takes := fun (p : TimePend) => keys p.key && (decide (p.edge + p.cyc ≤ upto) || (split && decide (p.edge < upto)))
  let ps := (s.stn n).pend
  let s := s.modStn n fun st =>
    { st with pend := ps.filterMap fun p =>
        if !(takes p) then some p
        else if p.edge + p.cyc ≤ upto then none
        else some { p with cyc := p.edge + p.cyc - upto, edge := upto } }
  (ps.filter takes).foldl (fun s p => s.addTime n p.key (p.mult * (min p.cyc (upto - p.edge))) p.edge) s

/-- Every TIME increment of a die cycle that has ended by an instant (03_counters R67). -/
def State.settleEnded (s : State) (n upto : Nat) : State := s.settlePend n upto false fun _ => true

/-- Every tick before an instant that takes the place of T in the capture rule (03_counters R73). -/
def State.settleTime (s : State) (n upto : Nat) : State := s.settlePend n upto true fun _ => true

/-- Queue a TIME increment of the die cycle that begins now. With `once`, a second one for the same counter and edge is
dropped. -/
def State.pendTime (s : State) (n key mult edge cyc : Nat) (once : Bool) : State :=
  if mult = 0 then s
  else s.modStn n fun st =>
    if once && st.pend.any (fun p => p.key == key && p.edge == edge) then st
    else { st with pend := st.pend ++ [{ key := key, mult := mult, edge := edge, cyc := cyc }] }

/-- The counters and comparators see an observation of tap e at this edge, whose die cycle is `cyc` ticks long. -/
def State.observe (s : State) (n e : Nat) (p1 : Bool) (o : Obs) (cyc : Nat) : State :=
  let ft := s.stnFt n
  let s := s.modStn n fun st => { st with cyc := cyc }
  let (s, cc) := (s.counters n).foldl (fun (acc : State × BitVec 16) k =>
    let s := acc.1
    let (ev, ed, wt) := s.increments n e k p1 o
    let mode := s.rf (Kx.stnCsel n k) 26 25
    let old := sgetD (s.stn n).cnt k 0
    if mode = 2 then (s.pendTime n k ev ft cyc false, acc.2)
    else
      let d := if mode = 0 then ev else if mode = 1 then ed else wt
      if d = 0 then acc else (s.bump n k d, acc.2 ||| s.counterCmp n k old (old + d))) (s, 0)
  let cmp := (s.comparators n).foldl (fun (m : BitVec 16) c => if s.cmpTrue n e c p1 o then m ||| ((1 : BitVec 16) <<< c) else m) cc
  s.latchInputs n cmp 0

/-! ## Event lines -/

/-- Bytes of a port enter the BW window of their presentation (03_counters R79). -/
def State.bwBytes (s : State) (n e f rx tx cyc : Nat) : State :=
  let ft := s.stnFt n
  let p := 2 * e + f
  let upd := fun (b : BwPort) =>
    let b := if b.subAt = gridAt usT ft then b else { b with peak := max b.peak b.sub, sub := 0, subAt := gridAt usT ft }
    { b with rx := b.rx + rx, tx := b.tx + tx, sub := b.sub + rx + tx }
  if !(s.rb (Kx.stnBwcfg n (s.anSlice n e)) 31) then s
  else (s.bwRow n p ft upd).pendTime n (1000 + p) (if rx + tx = 0 then 0 else 1) ft cyc true

/-- The event lines of a tap, and the bytes of a port tap's fields (03_counters R62, R64, R69, R79). DESIGN CHOICE (log entry 52): AO57
counts the rising edges of class-0x09 level lines and the assertions of its pulse lines; Table 3.8 says 'NUMERIC indications'. -/
def State.seeLines (s : State) (n e : Nat) (lines : BitVec 64) (p1 : Bool) (cyc : Nat) : State :=
  let ft := s.stnFt n
  let prev := sgetD (s.stn n).prev e 0
  let s := s.observe n e p1 (.lines lines prev) cyc
  let s := s.modStn n fun st => { st with prev := sput st.prev e lines }
  -- the always-on set
  let wired := fun l => (s.linfo n e l).getLsbD 6
  let on := fun l => lines.getLsbD l && wired l
  let s := s.pendTime n (256 + e) (b1 (on 0)) ft cyc false
  let s := s.pendTime n (256 + 32 + s.sliceOf n e) (b1 (on 1)) ft cyc false
  let s := if on 2 then s.bumpAo n 40 1 else s
  let s := if on 3 then s.bumpAo n 41 1 else s
  let cls := fun c => linesWhere lines fun l => s.lineOk n e l && s.lineClass n e l == c
  let s := s.pendTime n (256 + 55) (b1 !(cls 0x0D).isEmpty) ft cyc true
  let s := s.pendTime n (256 + 56) (b1 !(cls 0x0E).isEmpty) ft cyc true
  let s := s.bumpAo n 57 ((cls 0x09).filter fun l => s.rises n e l lines prev).length
  if !(s.isPortTap n e) then s
  else
    [0, 1].foldl (fun s f =>
      let rx := portBytes lines f false
      let tx := portBytes lines f true
      ((s.bumpAo n 53 rx).bumpAo n 54 tx).bwBytes n e f rx tx cyc) s

/-! ## Commands -/

/-- The engine's issue-table entry takes the index and the FT (03_counters R80). -/
def State.noteIssue (s : State) (n e : Nat) (idx : BitVec 32) : State :=
  let k := 16 * e + idx.toNat % 16
  s.modStn n fun st => { st with issue := (st.issue.filter fun x => x.1 != k) ++ [(k, idx, s.stnFt n)] }

/-- The latency of a retirement, where the issue table still holds its issue (03_counters R80). -/
def State.latency (s : State) (n e : Nat) (idx : BitVec 32) : Option Nat :=
  match (s.stn n).issue.find? fun x => x.1 == 16 * e + idx.toNat % 16 with
  | some (_, i, ft0) => if i = idx then some (min (2 ^ 32 - 1) (s.stnFt n - ft0)) else none
  | none => none

/-- One LFSR step (03_counters R81). -/
def lfsrStep (l : BitVec 32) : BitVec 32 := (l >>> 1) ^^^ (if l.getLsbD 0 then 0x80200003 else 0)

/-- `draw` of R81: the value, and the LFSR after it. -/
def lfsrDraw : Nat → BitVec 32 → Nat → Nat × BitVec 32
  | 0, l, v => (v, l)
  | k + 1, l, v => let l := lfsrStep l; lfsrDraw k l (2 * v + b1 (l.getLsbD 0))

/-- LOG2N of the plan, held to 4-20 (03_counters R82). -/
def State.planLog2n (s : State) (n : Nat) : Nat := clampN 4 20 (s.rf (Kx.stnPcsCfg n) 29 25)

/-- LOG2N in force after Skim (03_counters R86). -/
def State.log2n (s : State) (n : Nat) : Nat := max (s.planLog2n n) (min 20 ((s.stn n).levPcs.getD 0))

/-- Load the sampler's countdown (03_counters R81, R82). -/
def State.nextInterval (s : State) (n : Nat) : State :=
  let st := s.stn n
  let k := s.log2n n
  let n' := 2 ^ k
  if s.rb (Kx.stnPcsCfg n) 30 then s.setStn n { st with pcs := n', pcsN := k }
  else
    let (a, l) := lfsrDraw (k - 2) st.lfsr 0
    let (b, l) := lfsrDraw 1 l 0
    s.setStn n { st with pcs := n' - n' / 8 + a + b, pcsN := k, lfsr := l }

/-- The sampler is enabled: seed and first interval (03_counters R81). -/
def State.samplerEnable (s : State) (n : Nat) : State :=
  let seed := s.rd (Kx.stnPcsSeed n)
  (s.modStn n fun st => { st with lfsr := if seed = 0 then 1 else seed }).nextInterval n

/-- A passing retirement counts down; the one that reaches zero is due a sample: its PCS record (03_counters R81-R84). -/
def State.sampler (s : State) (n e : Nat) (p1 : Bool) (idx : BitVec 32) (addr : Nat) (stall : BitVec 16) (lat : Option Nat) :
    State × Option Record :=
  let c := s.rd (Kx.stnPcsCfg n)
  if !(c.getLsbD 31 && privPass (fld c 24 23) p1 && (s.rd (Kx.stnPcsMst n)).getLsbD e && s.winPass n (fld c 15 0) 0 addr) then (s, none)
  else
    let st := s.stn n
    if 1 < st.pcs then (s.setStn n { st with pcs := st.pcs - 1 }, none)
    else
      (s.nextInterval n, some (mkRec .pcs (tflags [(b1 p1, 7), (b1 lat.isSome, 6), (e, 0)]) (srcId n e 0)
        [word64 [(st.pcsN, 59), (addr, 0)], word64 [(idx.toNat, 32), (lat.getD 0, 0)],
          word64 [(stall.toNat, 48), (s.winHits n addr, 32)]]))

/-- The PCS gate lets a sample that is due be taken (04_markers R104). -/
def State.pcsOpen (s : State) (n : Nat) : Bool := !(s.rb (Kx.stnSeqCfg n) 30) || (s.gates n).testBit 1

/-- A sample of tap e is admitted through its slice: the slice stores the first of a die cycle and counts the others (03_counters R83). -/
def State.admitPcs (s : State) (n e : Nat) (r : Record) : State :=
  let ft := s.stnFt n
  let sl := s.sliceOf n e
  let before := match (s.stn n).pcsAt with | some x => if x.1 = ft then x.2 else 0 | none => 0
  let s := s.modStn n fun st => { st with pcsAt := some (ft, before ||| 2 ^ sl) }
  (s.admitR n r (if before.testBit sl then some cPcsDup else none) none).1

/-! ## Markers -/

/-- Beats held in a slice's marker queue, arrived or awaited (04_markers R91, R406). -/
def State.queueUsed (s : State) (n sl : Nat) : Nat :=
  (((s.stn n).queue.filter fun q => q.slice == sl).map fun q => q.beats.length + q.left).sum

/-- A marker of b beats fits the queue (04_markers R91). -/
def State.queueFits (s : State) (n sl b : Nat) : Bool := s.queueUsed n sl + b ≤ 32

/-- Fields of beat 0 (04_markers Table 4.1). -/
def mkCode (d : BitVec 128) : Nat := d.toNat / 2 ^ 112
def mkXb (d : BitVec 128) : Nat := bitsOf d.toNat 111 110

/-- The source ID the station builds (04_markers R87). -/
def mkSrcId (n e : Nat) (src : BitVec 16) : BitVec 16 := srcId n e (src.toNat % 32)

/-- Words of a MARK record from its beats; missing beats read zero (05_records Table 5.5, R115). -/
def markBody (src : BitVec 16) (beats : List (BitVec 128)) (xb : Nat) : List (BitVec 64) :=
  let d := beats.headD 0
  [word64 [(src.toNat, 48), (mkCode d, 32), (bitsOf d.toNat 95 64, 0)], BitVec.ofNat 64 (d.toNat % 2 ^ 64)] ++
    ((List.range xb).flatMap fun k =>
      let b := beats.getD (k + 1) 0
      [BitVec.ofNat 64 (b.toNat / 2 ^ 64), BitVec.ofNat 64 (b.toNat % 2 ^ 64)])

/-- A MARK record with its places still empty (05_records Table 5.5, 01_unit_anatomy R405). -/
def markRecord (src : BitVec 16) (p1 : Bool) (xb : Nat) : Record :=
  { mkRec .mark (tflags [(b1 p1, 7), (xb, 4)]) src (List.replicate (2 + 2 * xb) 0) with filled := false }

/-- Write beat k of a marker into its record (01_unit_anatomy R405, 05_records Table 5.5). -/
def putBeat (k : Nat) (b : BitVec 128) (r : Record) : Record :=
  let lo := BitVec.ofNat 64 (b.toNat % 2 ^ 64)
  let w0 := word64 [(r.src.toNat, 48), (mkCode b, 32), (bitsOf b.toNat 95 64, 0)]
  if k = 0 then { r with body := [w0, lo] ++ r.body.drop 2 }
  else { r with body := (r.body.set (2 * k) (BitVec.ofNat 64 (b.toNat / 2 ^ 64))).set (2 * k + 1) lo }

/-- Admit a marker: its place and its queue space, or the loss it is counted under (04_markers R91, R97, R406). -/
def State.admitMark (s : State) (n e : Nat) (src : BitVec 16) (p1 : Bool) (beats : List (BitVec 128)) (xb : Nat)
    (cause : Option Nat) (ft : Nat) : State × Option Nat :=
  let sl := s.sliceOf n e
  let cause := match cause with
    | some c => some c
    | none => if s.queueFits n sl (1 + xb) then none else some cQueue
  let (s, r, ok) := s.admitR n (markRecord src p1 xb) cause (some ft)
  if ok then
    (s.modStn n fun st =>
      { st with queue := st.queue ++ [{ slice := sl, seq := r.seq, beats := beats, left := xb + 1 - beats.length }] },
      some r.seq)
  else (s, none)

/-- What is compared of a beat: beat 0 without its reserved bits (04_markers Table 4.1, R92). -/
def mkMask (x : BitVec 128) : BitVec 128 := x &&& ~~~((0x3FFF : BitVec 128) <<< 96)

/-- The beats so far repeat the last marker of entry i from the same source (04_markers R92). -/
def State.sameMark (s : State) (n i : Nat) (src : BitVec 16) (p1 : Bool) (beats : List (BitVec 128)) : Bool :=
  match s.mkRef n i with
  | some m => m.src == src && m.p1 == p1 && (m.beats.headD 0).toNat / 2 ^ 110 == (beats.headD 0).toNat / 2 ^ 110 &&
      ((m.beats.take beats.length).map mkMask == beats.map mkMask)
  | none => false

/-- Beats that a list of later events brings to a marker of tap e and port `port` whose beat 0 came at `at0`, and whether the marker ends
with them: at another port's beat, or at its bound (04_markers R88, R406). -/
def nextBeats (e port at0 : Nat) : List (Nat × TapOp) → List (BitVec 128) × Bool
  | [] => ([], false)
  | (t, o) :: l =>
    match o with
    | .beat e' src data _ _ =>
      if e' != e then nextBeats e port at0 l
      else if src.toNat % 32 = port then let r := nextBeats e port at0 l; (data :: r.1, r.2)
      else ([], true)
    | .late e' => if e' = e && at0 + 48 ≤ t then ([], true) else nextBeats e port at0 l
    | _ => nextBeats e port at0 l

/-- What becomes of a marker at its entry. -/
inductive MarkFate where
  /-- Its gate is closed (04_markers R104). -/
  | gated
  /-- It repeats the reference (04_markers R92). -/
  | again
  /-- So far it repeats the reference; beats are still to come (log entry 12). -/
  | perhaps
  /-- It is admitted. -/
  | new
  deriving DecidableEq, Repr

/-- The fate of a marker of entry i, of which `d` is beat 0 and `later` what the taps present after it: the MK gate, then the comparison of
all its beats; a marker that ends short of beats is no repeat (04_markers R92, R104, log entry 12). -/
def State.markFate (s : State) (n e i : Nat) (src : BitVec 16) (p1 : Bool) (d : BitVec 128) (later : List (Nat × TapOp)) : MarkFate :=
  let g := s.rd (Kx.stnMkSrc n i)
  let xb := mkXb d
  let (bs, ends) := nextBeats e (src.toNat % 32) s.now later
  let bs := bs.take xb
  if g.getLsbD 30 && !((s.gates n).testBit 0) then .gated
  else if !(g.getLsbD 29) then .new
  else if !(s.sameMark n i src p1 (d :: bs)) then .new
  else if bs.length = xb then .again
  else if ends then .new
  else .perhaps

/-- Longest run in ticks (04_markers Table 4.3 RPTMAX). -/
def State.rptMax (s : State) (n : Nat) : Nat := clamp1 100000 (s.rf (Kx.stnMkCfg n) 19 0) * usT

/-- The run of entry i is at or over its longest span at an instant. -/
def State.runAged (s : State) (n i ft : Nat) : Bool :=
  match s.mkRef n i with
  | some m => (match m.run with | some r => decide (r.first + s.rptMax n ≤ ft) | none => false)
  | none => false

/-- A repeat presented at `ft` is counted into the entry's run, which it opens or goes on (04_markers R92). -/
def State.countRepeat (s : State) (n i ft : Nat) : State :=
  match s.mkRef n i with
  | none => s
  | some m =>
    let run : RptRun := match m.run with
      | some r => { r with count := r.count + 1, last := ft }
      | none => { count := 1, first := ft, last := ft }
    s.setRef n i (some { m with run := some run })

/-- The repeat presented at `ft` closes the run under CAP or AGE where it is the last (04_markers R92). -/
def State.lastRepeat (s : State) (n i ft : Nat) : State :=
  match s.mkRef n i with
  | none => s
  | some m =>
    match m.run with
    | none => s
    | some run =>
      if run.count = 65535 then s.closeRun n i rcCap ft
      else if run.first + s.rptMax n ≤ ft then s.closeRun n i rcAge ft else s

/-- A marker presented at `ft` that is no repeat: the run before it closes, it becomes the reference where the entry compresses, and it is
admitted (04_markers R92-R94). -/
def State.newMark (s : State) (n e i : Nat) (src : BitVec 16) (p1 : Bool) (beats : List (BitVec 128)) (xb : Nat) (cause : Option Nat)
    (ft : Nat) : State × Option Nat :=
  if s.rb (Kx.stnMkSrc n i) 29 then
    let s := s.closeRun n i (if s.runAged n i ft then rcAge else rcChange) ft
    (s.setRef n i (some { src := src, p1 := p1, beats := beats })).admitMark n e src p1 beats xb cause ft
  else s.admitMark n e src p1 beats xb cause ft

/-- A marker counted as a repeat proves none, by a beat or by its end, at an edge that its presentation at `t0` cannot be worked anew from
(log entry 12): its count is taken back, the run closes under CHANGE and the marker is admitted with its presentation as its timestamp; a
curd whose FTBASE is later closes first. -/
def State.refuteRepeat (s : State) (n e i : Nat) (src : BitVec 16) (p1 : Bool) (beats : List (BitVec 128)) (xb t0 : Nat) :
    State × Option Nat :=
  let s := match s.mkRef n i with
    | some m =>
      (match m.run with
       | some r => s.setRef n i (some { m with run := if r.count ≤ 1 then none else some { r with count := r.count - 1 } })
       | none => s)
    | none => s
  let s := if (s.stn n).cur.any fun c => decide (t0 < c.ftBase) then s.closeCur n closeFull else s
  s.newMark n e i src p1 beats xb none t0

/-- Extend the reference of an entry by a later beat of the marker it was taken from. -/
def State.extendRef (s : State) (n i : Nat) (src : BitVec 16) (beats : List (BitVec 128)) : State :=
  match s.mkRef n i with
  | some m => if m.src == src && m.run.isNone && m.beats == beats.dropLast then s.setRef n i (some { m with beats := beats }) else s
  | none => s

/-- The place of a marker that ends short of beats: TRUNC, and its unused queue space is free (04_markers R88, R406). -/
def State.truncPlace (s : State) (n q : Nat) : State :=
  let s := s.fillRec n q fun r => { r with tf := r.tf ||| 0x40 }
  let qs := (s.stn n).queue
  let s := s.modStn n fun st => { st with queue := replaceFirst (fun x => x.seq == q) (fun x => { x with left := 0 }) st.queue }
  -- all beats it has may already have drained
  if qs.any fun x => x.seq == q && x.beats.isEmpty then
    (s.fillRec n q fun r => { r with filled := true }).modStn n fun st =>
      { st with queue := removeFirst (fun x => x.seq == q) st.queue }
  else s

/-- End a marker short of beats: TRUNC counts it, whether it was admitted or not, and it is no repeat (04_markers R88, R406). -/
def State.endMarker (s : State) (n : Nat) (m : MkIn) : State :=
  let s := s.modStn n fun st => { st with mkIn := st.mkIn.filter fun x => x.tap != m.tap }
  let s := s.incF (Kx.stnMkStat n) 23 16 1
  let (s, q) := match m.entry with
    | some i =>
      let (s, q) := s.refuteRepeat n m.tap i (srcId n m.tap m.port.toNat) m.p1 m.beats (mkXb (m.beats.headD 0)) m.t0
      (s, q.or m.seq)
    | none => (s, m.seq)
  match q with
  | none => s
  | some q => s.truncPlace n q

/-- Whether STALL of an entry acts: set, armed, and stall-on-full not suspended (04_markers R97, R98). -/
def State.stallArmed (s : State) (n key : Nat) (set : Bool) : Bool :=
  set && !((s.stn n).disarm.any fun d => d.1 == key) && !(s.stn n).susp

/-- A marker of xb extra beats keeps its tap's place for them (04_markers R88). -/
def State.expectBeats (s : State) (n e : Nat) (src : BitVec 16) (data : BitVec 128) (p1 : Bool) (seq entry : Option Nat) : State :=
  if mkXb data = 0 then s
  else s.modStn n fun st =>
    { st with mkIn := st.mkIn ++ [{ tap := e, port := BitVec.ofNat 5 (src.toNat % 32), seq := seq, slice := s.sliceOf n e, p1 := p1,
                                    beats := [data], need := mkXb data, entry := entry, t0 := s.stnFt n }] }

/-- Beat 0 of a marker, as it is admitted: funnel, gate, repeats, place (04_markers R90-R94, R104). `cause`: a loss already certain. -/
def State.takeBeat0 (s : State) (n e : Nat) (src : BitVec 16) (data : BitVec 128) (p1 : Bool) (cause : Option Nat)
    (later : List (Nat × TapOp)) : State :=
  let sid := mkSrcId n e src
  let ft := s.stnFt n
  match s.mkEntry n e (src.toNat % 32) p1 with
  | none => (s.incF (Kx.stnMkStat n) 31 24 1).expectBeats n e src data p1 none none
  | some i =>
    match s.markFate n e i sid p1 data later with
    | .gated => s.expectBeats n e src data p1 none none
    | .again => ((s.countRepeat n i ft).lastRepeat n i ft).expectBeats n e src data p1 none none
    | .perhaps => (s.countRepeat n i ft).expectBeats n e src data p1 none (some i)
    | .new =>
      let (s, q) := s.newMark n e i sid p1 [data] (mkXb data) cause ft
      s.expectBeats n e src data p1 q none

/-- A beat 0 that its entry would hold not-ready: STALL acts, the marker is to be admitted and does not fit its queue (04_markers R97). -/
def State.wouldHold (s : State) (n e : Nat) (src : BitVec 16) (data : BitVec 128) (p1 : Bool) (later : List (Nat × TapOp)) : Bool :=
  match s.mkEntry n e (src.toNat % 32) p1 with
  | none => false
  | some i =>
    s.stallArmed n i (s.rb (Kx.stnMkSrc n i) 28) && (s.stn n).offering && !(s.queueFits n (s.sliceOf n e) (1 + mkXb data)) &&
      s.markFate n e i (mkSrcId n e src) p1 data later == .new

/-- A later beat of a marker, as it is admitted: it takes its place, and shows whether the marker was a repeat (04_markers R88, R92, R406). -/
def State.takeBeatMore (s : State) (n e : Nat) (m : MkIn) (data : BitVec 128) : State :=
  let beats := m.beats ++ [data]
  let d := beats.headD 0
  let sid := srcId n e m.port.toNat
  let s := match m.seq with
    | some q =>
      let up := fun (x : QEnt) => { x with beats := x.beats ++ [data], left := x.left - 1 }
      s.modStn n fun st => { st with queue := replaceFirst (fun x => x.seq == q) up st.queue }
    | none => s
  let s := (s.funnel n).foldl (fun s i => s.extendRef n i sid beats) s
  let bad := match m.entry with
    | some i => (match s.mkRef n i with | some r => r.beats.getD m.beats.length 0 != data | none => true)
    | none => false
  let (s, q) := match m.entry with
    | some i => if bad then s.refuteRepeat n e i sid m.p1 beats (mkXb d) m.t0 else (s, m.seq)
    | none => (s, m.seq)
  let s := s.modStn n fun st =>
    if m.need ≤ 1 then { st with mkIn := st.mkIn.filter fun x => x.tap != e }
    else
      let up := fun (x : MkIn) =>
        { x with beats := beats, need := m.need - 1, seq := q, entry := if bad then none else x.entry }
      { st with mkIn := replaceFirst (fun x => x.tap == e) up st.mkIn }
  -- a repeat that stays one closes its run under CAP or AGE
  match m.entry with
  | some i => if bad || 1 < m.need then s else s.lastRepeat n i m.t0
  | none => s

/-- The marker that a beat of tap e goes on with; none: it is a beat 0 (04_markers R88). -/
def Stn.goesOn (st : Stn) (e : Nat) (src : BitVec 16) : Option MkIn :=
  (st.mkIn.find? fun m => m.tap == e).filter fun m => m.port == BitVec.ofNat 5 (src.toNat % 32)

/-- The tap's marker or flow-event port is held not-ready. -/
def State.held (s : State) (n e : Nat) (flow : Bool) : Option Hold :=
  (s.stn n).holds.find? fun h => h.tap == e && h.flow == flow

/-- A marker still short of beats 16 die cycles after beat 0 is ended (04_markers R406). A die cycle is at least 3 ticks, so the bound is
not reached before 16 x 3 ticks. -/
def State.lateMarker (s : State) (n e : Nat) : State :=
  match (s.stn n).mkIn.find? fun m => m.tap == e with
  | some m => if m.t0 + 48 ≤ s.stnFt n then s.endMarker n m else s
  | none => s

/-- A run reaches FIRST + RPTMAX with no further repeat (04_markers R92). -/
def State.ageRun (s : State) (n i : Nat) : State :=
  if s.runAged n i (s.stnFt n) then s.closeRun n i rcAge (s.stnFt n) else s

/-- Drain one beat of the slice's queue into its place (04_markers R91). -/
def State.drainOne (s : State) (n sl : Nat) : State :=
  match (s.stn n).queue.find? fun q => q.slice == sl with
  | none => s
  | some q =>
    match q.beats with
    | [] => s
    | b :: rest =>
      let done := rest.isEmpty && q.left == 0
      let s := s.fillRec n q.seq fun r => let r := putBeat q.idx b r; if done then { r with filled := true } else r
      s.modStn n fun st =>
        { st with queue := if done then removeFirst (fun x => x.seq == q.seq) st.queue
            else replaceFirst (fun x => x.seq == q.seq) (fun x => { x with beats := rest, idx := q.idx + 1 }) st.queue }

/-! ## Flow events -/

/-- Flow events the slice has taken at this edge (07_sequence_ledger R161). -/
def State.flowsAt (s : State) (n sl ft : Nat) : Nat :=
  ((s.stn n).flowAt.find? fun x => x.1 == sl && x.2.1 == ft).elim 0 (·.2.2)

/-- The FLOW record of an event (05_records Table 5.5). -/
def flowRecord (n e : Nat) (handle : BitVec 21) (code : BitVec 4) (arg : BitVec 32) (p1 : Bool) : Record :=
  mkRec .flow (tflags [(b1 p1, 6), (e, 0)]) (srcId n e 0) [word64 [(handle.toNat, 43), (code.toNat, 39), (arg.toNat, 0)]]

/-- A flow event passes its port's enable and privilege (07_sequence_ledger R161). -/
def State.flowPass (s : State) (n e : Nat) (p1 : Bool) : Bool :=
  (s.rd (Kx.stnFlEn n)).getLsbD e && privPass (s.rf (Kx.stnFlCfg n) 1 0) p1

/-- A flow event as it is admitted: a slice takes 2 of a die cycle (07_sequence_ledger R161). A station that offers no records admits, and
counts, none. -/
def State.takeFlow (s : State) (n e : Nat) (handle : BitVec 21) (code : BitVec 4) (arg : BitVec 32) (p1 : Bool) (cause : Option Nat) :
    State :=
  if !(s.flowPass n e p1 && (s.stn n).offering) then s
  else
    let ft := s.stnFt n
    let sl := s.sliceOf n e
    let k := s.flowsAt n sl ft
    let cause := match cause with
      | some c => some c
      | none => if k < 2 then none else some cPortBusy
    let s := if cause = some cPortBusy then s.incF (Kx.stnFlStat n) 31 16 1 else s
    let s := s.modStn n fun st => { st with flowAt := (st.flowAt.filter fun x => x.1 != sl) ++ [(sl, ft, k + 1)] }
    (s.admitR n (flowRecord n e handle code arg p1) cause none).1

/-- A flow event that its port would hold not-ready (04_markers R98). -/
def State.flowHolds (s : State) (n e : Nat) (p1 : Bool) : Bool :=
  s.flowPass n e p1 && (s.stn n).offering && s.stallArmed n (64 + e) ((s.rd (Kx.stnFlStall n)).getLsbD e) &&
    decide (2 ≤ s.flowsAt n (s.sliceOf n e) (s.stnFt n))

/-! ## Stall-on-full -/

/-- A hold ends: the STALL record, AO44 and Skim's stall account (04_markers R98, 06_admission R152). -/
def State.endHold (s : State) (n : Nat) (h : Hold) (timeout : Bool) : State :=
  let dur := s.stnFt n - h.since
  let sid := if h.flow then srcId n h.tap 0 else mkSrcId n h.tap h.src
  let s := s.modStn n fun st =>
    { st with
      holds := st.holds.filter fun x => !(x.tap == h.tap && x.flow == h.flow),
      offer := { st.offer with stall := st.offer.stall + dur } }
  let s := s.bumpAo n 44 dur
  s.admitStall n (mkRec .stall (tflags [(b1 timeout, 7), (b1 h.flow, 6)]) sid [word64 [(sid.toNat, 48), (min dur (2 ^ 32 - 1), 0)]])

/-- A marker port that is held from this edge on (04_markers R97). -/
def State.holdMark (s : State) (n e : Nat) (src : BitVec 16) (data : BitVec 128) (p1 : Bool) (cyc : Nat) : State :=
  let i := (s.mkEntry n e (src.toNat % 32) p1).getD 0
  s.modStn n fun st =>
    { st with holds := st.holds ++ [{ tap := e, flow := false, since := s.stnFt n, src := src, entry := i, p1 := p1,
                                      data := data, cyc := cyc }] }

/-- A flow-event port that is held from this edge on (04_markers R98). -/
def State.holdFlow (s : State) (n e : Nat) (handle : BitVec 21) (code : BitVec 4) (arg : BitVec 32) (p1 : Bool) (cyc : Nat) : State :=
  s.modStn n fun st =>
    { st with holds := st.holds ++ [{ tap := e, flow := true, since := s.stnFt n, src := srcId n e 0, entry := 0, p1 := p1,
                                      data := (handle.setWidth 128 <<< 40) ||| (code.setWidth 128 <<< 32) |||
                                        arg.setWidth 128, cyc := cyc }] }

/-- What a held port presents when its hold ends (04_markers R97). -/
def Hold.op (h : Hold) : TapOp :=
  if h.flow then
    .flow h.tap (BitVec.ofNat 21 (h.data.toNat / 2 ^ 40)) (BitVec.ofNat 4 (bitsOf h.data.toNat 35 32)) (h.data.setWidth 32) h.p1 h.cyc
  else .beat h.tap h.src h.data h.p1 h.cyc

/-- There is room for what a hold holds (04_markers R97, R98). -/
def State.holdRoom (s : State) (n : Nat) (h : Hold) : Bool :=
  let sl := s.sliceOf n h.tap
  if h.flow then s.flowsAt n sl (s.stnFt n) < 2 else s.queueFits n sl (1 + mkXb h.data)

/-- A hold's timeout: STALLTO, and the entry or port is disarmed at the slice of its tap (04_markers R97, R98). -/
def State.holdExpire (s : State) (n : Nat) (h : Hold) : State :=
  (s.incF (Kx.stnMkStat n) 15 8 1).modStn n fun st =>
    { st with disarm := insertNew st.disarm ((if h.flow then 64 + h.tap else h.entry), s.sliceOf n h.tap) }

/-- A disarmed entry or port arms again where the queue of its slice has 4 free beats (04_markers R97). Keys 0-63 are funnel entries,
64 + e flow ports. -/
def State.rearm (s : State) (n key : Nat) : State :=
  s.modStn n fun st => { st with disarm := st.disarm.filter fun d => !(d.1 == key && s.queueFits n d.2 4) }

end Sys2Proof.Machine
end

