-- ==== Sys2Proof/Machine/Time.lean ====
section
/-!
DEFINITION. Fabric time and the calendar clock: the servos, device-wide steps, the RTC, PPS and anchors (02_fabric_time).
-/

namespace Sys2Proof.Machine

/-! ## Servo states -/

/-- STATE codes of a servo (02_fabric_time Table 2.4). -/
def svOff : BitVec 3 := 0
def svAcquire : BitVec 3 := 1
def svLocked : BitVec 3 := 2
def svHoldover : BitVec 3 := 3
def svDrift : BitVec 3 := 4

/-- Change the servo of station n. -/
def State.modServo (s : State) (n : Nat) (f : Servo → Servo) : State :=
  s.modStn n fun st => { st with servo := f st.servo }

/-- Station n begins to be able to capture: the snapshots whose T it has missed list it (03_counters R78). -/
def State.missSnaps (s : State) (n : Nat) : State :=
  { s with snaps := s.snaps.map fun x =>
      if x.t ≤ s.now && !(x.took.getLsbD n) && !(x.acc.getLsbD n) then { x with miss := x.miss ||| (1 <<< n) } else x }

/-- Station n's servo enters LOCKED, HOLDOVER or DRIFT (02_fabric_time Table 2.1, R51, R53; AO58). -/
def State.servoEnter (s0 : State) (n : Nat) (st : BitVec 3) : State :=
  let s := s0
  let ft := s.stnFt n
  let s := s.modServo n fun v =>
    { v with st := st, near := 0, far := 0, back := 0, since := if st = svHoldover then ft else v.since }
  let s := if (s0.stn n).servo.st = svAcquire then (s.modStn n fun x => { x with lockAt := s.now }).missSnaps n else s
  let s := if st = svDrift then s.setB (Kx.stnTstat n) 3 true else s
  let s := if st = svLocked then s else s.bumpAo n 58 1
  let s := (s.raiseTq n).tsyncStn n tsServo
  s.startOffering n

/-- The slew still due is counted from now, with `d` more whole ticks (02_fabric_time R40). -/
def Servo.addSlew (v : Servo) (now : Nat) (d : Int) : Servo :=
  let done := v.slewed now
  { v with off := v.off - done, slew := v.slew - done + d, slewAt := now }

/-- Correct by gain x offset: whole ticks of the accumulator slew, the rest is kept (02_fabric_time R44). `o` in half
ticks. -/
def Servo.correct (v : Servo) (now : Nat) (o : Int) : Servo :=
  let acc := v.acc + o * (if v.high then 32 else 1)
  let whole := acc.tdiv 128
  { v.addSlew now whole with acc := acc - 128 * whole }

/-- The exchange of a group with the smallest round trip, the first of equals (02_fabric_time R43). -/
def bestExchange (g : List (Nat × Int × Nat)) : Option (Nat × Int × Nat) :=
  g.foldl (fun (b : Option (Nat × Int × Nat)) x => match b with | none => some x | some y => some (if x.1 < y.1 then x else y)) none

/-- Counters of consecutive selected offsets after offset o, in half ticks (02_fabric_time R44, Table 2.1). -/
def Servo.count (v : Servo) (o : Int) : Servo :=
  { v with
    near := if o.natAbs ≤ 2 then v.near + 1 else 0, far := if 4 < o.natAbs then v.far + 1 else 0,
    back := if o.natAbs ≤ 4 then v.back + 1 else 0 }

/-- Gain of a LOCKED servo (02_fabric_time R44). -/
def Servo.gain (v : Servo) : Servo :=
  if !v.high && 4 ≤ v.far then { v with high := true, near := 0, far := 0 }
  else if v.high && 64 ≤ v.near then { v with high := false, near := 0, far := 0 }
  else v

/-- The state a servo enters after its counters moved, if any (02_fabric_time R44, Table 2.1). -/
def Servo.next (v : Servo) : Option (BitVec 3) :=
  if v.st = svAcquire && 64 ≤ v.near then some svLocked
  else if (v.st = svHoldover || v.st = svDrift) && 8 ≤ v.back then some svLocked
  else none

/-! ## Time exchanges -/

/-- Ticks of an exchange slot and of a group of 8 (02_fabric_time R43). -/
def slotTicks : Nat := 8000
def groupTicks : Nat := 64000

/-- TIME_EXCHANGE_REQUEST: the station takes t1, once in a slot of its FT copy (02_fabric_time R43). -/
def execTimeExchangeRequest (t : Nat) (die : Fin 40) (s : State) : Host.Outcome State Fault Refusal :=
  onStn t die (fun s =>
    let k := s.stnFt die / slotTicks + 1
    if (s.stn die).servo.slot = k then s
    else s.modServo die fun v => { v with t1 := some (s.stnFt die), t23 := none, slot := k }) s

/-- TIME_EXCHANGE_REPLY: the hub takes t2 and t3 with the master FT (02_fabric_time R43). -/
def execTimeExchangeReply (t : Nat) (die : Fin 40) (turn : Nat) (s : State) : Host.Outcome State Fault Refusal :=
  onHub t (fun s =>
    if (s.stn die).servo.t1.isNone || !(s.reach die) then s
    else s.modServo die fun v => { v with t23 := some (s.now - turn, s.now) }) s

/-- KX_STN_TASYM.ASYM in signed ticks (02_fabric_time Table 2.4). -/
def State.asym (s : State) (n : Nat) : Int := signedOf 8 (s.rf (Kx.stnTasym n) 7 0)

/-- TIME_REPLY_RECEIVED: the station takes t4, and the exchange joins its group (02_fabric_time R43). -/
def execTimeReplyReceived (t : Nat) (die : Fin 40) (s : State) : Host.Outcome State Fault Refusal :=
  onStn t die (fun s =>
    let v := (s.stn die).servo
    match v.t1, v.t23 with
    | some t1, some (t2, t3) =>
      let t4 := s.stnFt die
      let i := fun n : Nat => Int.ofNat n
      let off := ((i t2 - i t1) - (i t4 - i t3)) - s.asym die
      let delay := ((i t4 - i t1) - (i t3 - i t2)).tdiv 2
      -- an exchange of a group that has ended did not complete in it
      let mine := t1 / groupTicks == v.grp
      s.modServo die fun v =>
        { v with t1 := none, t23 := none, group := if mine then v.group ++ [(t4 - t1, off, delay.toNat)] else v.group }
    | _, _ => s) s

/-- A group without a selection: the count toward LOCKED restarts, and a LOCKED servo enters HOLDOVER (02_fabric_time Table 2.1). -/
def State.noSelection (s : State) (n : Nat) : State :=
  let s := s.modServo n fun v => { v with back := 0 }
  if (s.stn n).servo.st = svLocked then s.servoEnter n svHoldover else s

/-- The selected exchange of a group: the initial step of ACQUIRE, or the counters, the gain and the correction (02_fabric_time R44). -/
def State.selection (s : State) (n : Nat) (o : Int) (delay : Nat) : State :=
  let now := s.now
  let v := (s.stn n).servo
  let s := s.modServo n fun v => { v with resid := o, delay := delay }
  if v.st = svAcquire && !v.stepped then
    s.modServo n fun v =>
      let step := o.tdiv 2
      { v.addSlew now 0 with off := v.lag now - max 0 step, stepped := true }
  else
    let v := (s.stn n).servo.count o
    let s := s.modServo n fun _ => v
    let s := match v.next with
      | some st =>
        let s := s.servoEnter n st
        if v.st = svAcquire then s.modServo n fun v => { v with high := false } else s
      | none => if v.st = svLocked then s.modServo n fun v => v.gain else s
    s.modServo n fun v => v.correct now o

/-- SERVO_GROUP_END: once at each multiple of 64,000 ticks of the station's FT copy (02_fabric_time R43, R44, Table 2.1). -/
def execServoGroupEnd (t : Nat) (die : Fin 40) (s : State) : Host.Outcome State Fault Refusal :=
  onStn t die (fun s =>
    let v := (s.stn die).servo
    if s.stnFt die / groupTicks = v.grp then s
    else
      let s := s.modServo die fun v => { v with group := [] }
      let s := match bestExchange v.group with
        | none => s.noSelection die
        | some (_, o, delay) => s.selection die o delay
      s.modServo die fun v => { v with grp := s.stnFt die / groupTicks }) s

/-- HOLDOVER_TIMEOUT: HOLDOVER has lasted 1 ms (02_fabric_time Table 2.1). -/
def execHoldoverTimeout (t : Nat) (die : Fin 40) (s : State) : Host.Outcome State Fault Refusal :=
  onStn t die (fun s =>
    let v := (s.stn die).servo
    if v.st = svHoldover && v.since + msT ≤ s.stnFt die then s.servoEnter die svDrift else s) s

/-- TSYNC_PERIODIC: 1 ms after the last one, while the station offers records (02_fabric_time R51). -/
def execTsyncPeriodic (t : Nat) (die : Fin 40) (s : State) : Host.Outcome State Fault Refusal :=
  onStn t die (fun s =>
    let st := s.stn die
    if st.offering && st.tsyncAt + msT ≤ s.stnFt die then
      (s.tsyncStn die tsPeriodic).modStn die fun st => { st with tsyncAt := s.stnFt die }
    else s) s

/-- The route of a station's traffic changes: a LOCKED servo enters HOLDOVER, and the count toward LOCKED restarts
(02_fabric_time R45). -/
def State.routeSwitch (s : State) (n : Nat) (alt : Bool) : State :=
  let s := s.modServo n fun v => { v with alt := alt, back := 0 }
  if (s.stn n).servo.st = svLocked then s.servoEnter n svHoldover else s

/-! ## Device time -/

/-- The device time state changes: a TSYNC record, and every station hears of it (02_fabric_time R51, R54). -/
def State.setDevTq (s : State) (q : BitVec 2) (event : Nat) (value : Int) : State :=
  if s.clk.devTq = q then s
  else
    let s := { s with clk := { s.clk with devTq := q } }
    let s := s.dies.foldl (fun s n => (s.modStn n fun st => { st with devTq := q }).raiseTq n) s
    let up := fun c : Curd => if c.tq < q then { c with tq := q } else c
    let s := (List.range 8).foldl (fun s k => s.modSrc k fun h => { h with cur := h.cur.map up }) s
    s.tsyncDev event value 0

/-- The reference is absent: the clock holds FT, and the device time is unverified from here (02_fabric_time R40). -/
def State.clkLost (s : State) : State := { s with clk := { s.clk with lostAt := some s.now, suspect := true } }

/-- REFCLK_LOSS: no reference edge for 100 ns; FT stands still (02_fabric_time R40, 14_startup R355). -/
def execRefclkLoss (t : Nat) (s : State) : Host.Outcome State Fault Refusal :=
  onHub t (fun s =>
    if s.clk.lostAt.isSome then s
    else
      let s := (s.clkLost.setB Kx.timStatus 1 true).faultEvent fcRefloss 0 0x40 0 s.now 0 0
      if s.clk.devTq.toNat < 2 then s.setDevTq 2 tsRefLoss 0 else s.tsyncDev tsRefLoss 0 0) s

/-- Ticks of FT in a count of hub cycles at 1.5 GHz (01_unit_anatomy R28). -/
def ticksOfHub (cycles : Nat) : Nat := cycles * 16 / 3

/-- REFCLK_RETURN: a device-wide forward step of the counted duration is scheduled 4 µs ahead (02_fabric_time R40). -/
def execRefclkReturn (t : Nat) (cycles : Nat) (s : State) : Host.Outcome State Fault Refusal :=
  onHub t (fun s =>
    if s.clk.lostAt.isNone then s
    else
      let step := ticksOfHub cycles
      -- the RTC's crystal ran while FT stood still
      let s := { s with clk := { s.clk with
        lostAt := none, steps := s.clk.steps ++ [(s.now + 4 * usT, step)], rtcAt := s.clk.rtcAt - step, trimAt := s.clk.trimAt - step } }
      s.faultEvent fcRefloss 0 0x40 (2 ^ 31) s.now cycles step) s

/-- A device-wide step moves the time scale of a slew in progress, and nothing of it (02_fabric_time R40). -/
def Servo.moved (v : Servo) (step : Nat) : Servo := { v with slewAt := v.slewAt + step }

/-- FT_STEP_APPLY: the first step whose instant has come; every copy moves with the master (02_fabric_time R40, R51). -/
def execFtStepApply (t : Nat) (s : State) : Host.Outcome State Fault Refusal :=
  onUnit t (fun s =>
    match s.clk.steps.find? fun x => x.1 ≤ s.now with
    | none => s
    | some (at_, step) =>
      let s := s.dies.foldl (fun s n => (s.settleTime n (s.stnFt n)).modStn n fun st =>
        { st with pend := st.pend.map (fun p => { p with edge := p.edge + step }), servo := st.servo.moved step }) s
      let s := { s with
        clk := { s.clk with
          now := s.clk.now + step, steps := removeFirst (fun x => x.1 == at_) s.clk.steps, stby := s.clk.stby.moved step
          rtcAt := s.clk.rtcAt + step, trimAt := s.clk.trimAt + step }
        node := { s.node with servo := s.node.servo.moved step } }
      (s.setB Kx.timStatus 7 true).tsyncDev tsStep (Int.ofNat step) at_) s

/-- Read KX_TIM_FT_LO: the port's latch takes FT[63:32] (17_setup_registers R390). -/
def State.readFtLo (s : State) (p : Port) : State × Word :=
  (s.setLatch p Kx.timFtHi.off (BitVec.ofNat 32 (s.now / 2 ^ 32)), BitVec.ofNat 32 s.now)

/-- FT_READ (17_setup_registers R390). -/
def execFtRead (t : Nat) (port : Port) (s : State) : Host.Outcome State Fault Refusal :=
  onRead t port Kx.timFtLo.off (fun s => s.readFtLo port) s

/-! ## The calendar clock -/

/-- TRIM: periods added to every 2^20 of the crystal (02_fabric_time R56). -/
def State.trim (s : State) : Int := signedOf 10 (s.rf Kx.rtcCtl 25 16)

/-- The periods counted within the second: those of the crystal at the nominal rate, with TRIM added or skipped evenly
(02_fabric_time R55, R56; log entry 63). -/
def State.rtcPeriods (s : State) : Nat :=
  min 32767 (((Int.ofNat s.now - s.clk.rtcAt) * 32768 * (2 ^ 20 + s.trim) / (Int.ofNat secT * 2 ^ 20)).toNat)

/-- Read KX_RTC_SEC_LO: SEC_HI and SUB are latched for the port (02_fabric_time R55). -/
def State.readRtcLo (s : State) (p : Port) : State × Word :=
  ((s.setLatch p Kx.rtcSecHi.off (BitVec.ofNat 32 (s.clk.rtcSec / 2 ^ 32))).setLatch p Kx.rtcSub.off
    (BitVec.ofNat 32 s.rtcPeriods), BitVec.ofNat 32 s.clk.rtcSec)

/-- RTC_SEC_READ (02_fabric_time R55). -/
def execRtcSecRead (t : Nat) (port : Port) (s : State) : Host.Outcome State Fault Refusal :=
  onRead t port Kx.rtcSecLo.off (fun s => s.readRtcLo port) s

/-- RTC_LOAD: a write of KX_RTC_CTL; LOAD stays pending until the next RTC period (02_fabric_time R55, Table 2.7). -/
def execRtcLoad (t : Nat) (port : Port) (value : Word) (s : State) : Host.Outcome State Fault Refusal :=
  onWrite t port Kx.rtcCtl.off (fun s => s.notDbg port Kx.rtcCtl.off fun s => s.writeHub port Kx.rtcCtl.off value) s

/-! ## Anchors -/

/-- ANCSRC codes (02_fabric_time Table 2.9). -/
def anPps : Nat := 1
def anTrig : Nat := 2
def anHost : Nat := 3
def anRtc : Nat := 4

/-- Admit an ANCHOR record (05_records Table 5.11). -/
def State.anchorRec (s : State) (a : Anchor) (rep : Bool) : State :=
  s.hubRec 3 (mkRec .anchor (tflags [(b1 a.disc, 7), (b1 a.inval, 6), (b1 rep, 5), (a.src.toNat, 0)]) 0
    [BitVec.ofNat 64 a.ft, word64 [(a.sec % 2 ^ 48, 16)], word64 [(a.bound % 2 ^ 32, 32), (a.ns % 2 ^ 30, 0)]])

/-- A new anchor: recorded, and kept as the latest of its source (02_fabric_time R60). -/
def State.anchor (s : State) (a : Anchor) : State :=
  ({ s with clk := { s.clk with anchors := sput s.clk.anchors a.src.toNat a } }).anchorRec a false

/-- The latest anchor of the best source present (02_fabric_time R60). -/
def State.bestAnchor (s : State) : Option Anchor := [anPps, anTrig, anHost, anRtc].findSome? fun k => sget s.clk.anchors k

/-- The copy of the best anchor at an epoch boundary (02_fabric_time R60). -/
def State.repeatAnchor (s : State) : State := match s.bestAnchor with | some a => s.anchorRec a true | none => s

/-- RTC VALID (02_fabric_time Table 2.7). -/
def State.rtcValid (s : State) : Bool := s.rb Kx.rtcCtl 3

/-- The error bound of an RTC anchor: two RTC periods, 61,040 ns, and the crystal's error since the last load or trim, whose rate the
specification does not give (02_fabric_time Table 2.9; log entry 65). -/
def State.rtcBound (s : State) : Nat :=
  min (2 ^ 32 - 1) (61040 + (Config.crystalError (Int.ofNat s.now - s.clk.trimAt).toNat).toNat)

/-- An anchor from the RTC (02_fabric_time R60). -/
def State.rtcAnchor (s : State) : State :=
  s.anchor { src := 4, ft := s.now, sec := s.clk.rtcSec, ns := 0, bound := s.rtcBound, inval := !s.rtcValid }

/-- Load the RTC with a second: the period count restarts, VALID is set (02_fabric_time R55). -/
def State.loadRtc (s : State) (sec : Nat) : State :=
  (({ s with clk := { s.clk with rtcSec := sec % 2 ^ 48, rtcAt := s.now, trimAt := s.now } }).setB Kx.rtcCtl 3 true).rtcAnchor

/-- RTC_LOAD_APPLY: at the next RTC period a pending LOAD is done (02_fabric_time R55). -/
def execRtcLoadApply (t : Nat) (s : State) : Host.Outcome State Fault Refusal :=
  onHub t (fun s =>
    if s.rb Kx.rtcCtl 1 then (s.hwClear Kx.rtcCtl 1).loadRtc (s.rd64 Kx.rtcSetLo Kx.rtcSetHi) else s) s

/-- VBAT_LOW: VBATLOW is set and VALID cleared, whatever the other supplies (02_fabric_time R55). -/
def execVbatLow (t : Nat) (s : State) : Host.Outcome State Fault Refusal :=
  always t (fun s => (s.setB Kx.rtcCtl 4 true).setB Kx.rtcCtl 3 false) s

/-- VBAT_POWER_ON: the RTC registers take their reset values (02_fabric_time R55, Table 2.7). -/
def execVbatPowerOn (t : Nat) (s : State) : Host.Outcome State Fault Refusal :=
  always t (fun s =>
    let s := [Kx.rtcCtl, Kx.rtcSetLo, Kx.rtcSetHi].foldl (fun s r => s.wr r (BitVec.ofNat 32 r.rst)) s
    { s with clk := { s.clk with rtcSec := 0, rtcAt := s.now, trimAt := s.now, rtcCount := 0 } }) s

/-- RTC_SECOND_STROBE: every INTERVAL seconds an ANCHOR (02_fabric_time R60). The RTC domain counts whatever the other
supplies. -/
def execRtcSecondStrobe (t : Nat) (s : State) : Host.Outcome State Fault Refusal :=
  always t (fun s =>
    let n := s.clk.rtcCount + 1
    let due := clamp1 3600 (s.rf Kx.timAnchorCfg 11 0) ≤ n
    let c := { s.clk with rtcSec := (s.clk.rtcSec + 1) % 2 ^ 48, rtcAt := s.now, rtcCount := if due then 0 else n }
    let s := { s with clk := c }
    if due && s.hubOn then s.rtcAnchor else s) s

/-- Nearest integer quotient, halves away from zero. -/
def nearestDiv (a b : Int) : Int := if 0 ≤ a then (2 * a + b) / (2 * b) else -((2 * (-a) + b) / (2 * b))

/-- The AUTOTRIM interval, 32 s (02_fabric_time R56). -/
def trimTicks : Nat := 32 * secT

/-- The hub writes TRIM: a software write of the same cycle wins (00_scope Table 0.5). -/
def State.setTrim (s : State) (k : Int) : State :=
  if s.softBit Kx.rtcCtl 16 then s
  else { s.setF Kx.rtcCtl 25 16 (BitVec.ofInt 10 k).toNat with clk := { s.clk with trimAt := s.now } }

/-- AUTOTRIM_MEASURE: every 32 s TRIM moves by the nearest number of steps; a strobe more than 2 RTC periods off reloads the RTC at the next
edge (02_fabric_time R56). One step adds one period, secT / 32,768 ticks, in 32 s. -/
def execAutotrimMeasure (t : Nat) (drift strobe : Int) (s : State) : Host.Outcome State Fault Refusal :=
  onHub t (fun s =>
    if !(s.rb Kx.rtcCtl 2) || !s.clk.pps.lock || s.now < s.clk.measAt + trimTicks then s
    else
      let s := s.setTrim (max (-511) (min 511 (s.trim + nearestDiv (drift * 32768) (Int.ofNat secT))))
      let s := { s with clk := { s.clk with measAt := s.now } }
      if 2 * secT < strobe.natAbs * 32768 then { s with clk := { s.clk with reloadRtc := true } } else s) s

/-! ## PPS -/

/-- A PPS source: PPS_IN, or the TRIG pin with function PPS_IN2. -/
def State.ppsOf (s : State) (trig : Bool) : Pps := if trig then s.clk.pps2 else s.clk.pps

/-- Replace a PPS source. -/
def State.setPps (s : State) (trig : Bool) (p : Pps) : State :=
  { s with clk := if trig then { s.clk with pps2 := p } else { s.clk with pps := p } }

/-- The third miss in a row, of a lock or of a candidate: PPSLOST, a TSYNC record, the second is forgotten (02_fabric_time R57, R58). -/
def State.ppsLose (s : State) (trig : Bool) : State :=
  let s := s.setPps trig {}
  let s := { s with clk := { s.clk with anchors := sdel s.clk.anchors (if trig then anTrig else anPps) } }
  (s.setB Kx.timStatus 6 true).tsyncDev tsPpsLost 0 0

/-- A miss; the third in a row loses the lock (02_fabric_time R57). -/
def State.ppsMiss (s : State) (trig : Bool) : State :=
  let p := s.ppsOf trig
  if 2 ≤ p.miss then s.ppsLose trig else s.setPps trig { p with miss := p.miss + 1, good := 0 }

/-- An accepted edge begins a second: its number, and its ANCHOR (02_fabric_time R58, R60). -/
def State.ppsSecond (s : State) (trig : Bool) (e : Nat) : State :=
  let p := s.ppsOf trig
  let count := p.tai.map (· + 1)
  let tai := match p.held with | some m => some m | none => count
  let disc := match p.held, count with | some m, some k => m != k | _, _ => false
  let s := s.setPps trig { p with tai := tai, held := none }
  match tai with
  | none => s
  | some sec =>
    let s :=
      if !trig && s.clk.reloadRtc then ({ s with clk := { s.clk with reloadRtc := false } }).loadRtc sec else s
    if trig && s.clk.pps.lock then s
    else s.anchor { src := if trig then 2 else 1, ft := e, sec := sec, ns := 0, bound := if trig then 50 else 20, disc := disc }

/-- An edge of a PPS source (02_fabric_time R57). -/
def State.ppsEdge (s : State) (trig : Bool) (e : Nat) : State :=
  let p := s.ppsOf trig
  match p.last with
  | none => (s.setPps trig { p with last := some e, good := 0, miss := 0, wins := 0 }).ppsSecond trig e
  | some l =>
    if l + secT ≤ e + 1600000 && e ≤ l + secT + 1600000 then
      let gained := !p.lock && 1 ≤ p.good
      let s := s.setPps trig { p with last := some e, good := min 2 (p.good + 1), miss := 0, wins := 0, lock := p.lock || gained }
      let s := if gained then ({ s with clk := { s.clk with measAt := s.now } }).tsyncDev tsPpsLock 0 0 else s
      s.ppsSecond trig e
    else s.ppsMiss trig

/-- PPS_EDGE: an edge of PPS_IN, falling or rising, whose level then held for some reference periods. PPSIN_EDGE selects the edge, the
glitch filter asks for 8 periods, and PPSIN_COMP is subtracted from the capture (02_fabric_time R57). -/
def execPpsEdge (t : Nat) (e : PpsPulse) (s : State) : Host.Outcome State Fault Refusal :=
  onHub t (fun s =>
    if !(s.rb Kx.timPpsCfg 0) || e.fall != s.rb Kx.timPpsCfg 1 || e.held < 8 then s
    else s.ppsEdge false (Int.ofNat e.at_ - signedOf 12 (s.rf Kx.timPpsCfg 19 8)).toNat) s

/-- The pin that serves PPS_IN2: the lowest-numbered one (04_markers R111). -/
def State.ppsPin (s : State) : Option Nat := (List.range 8).find? fun p => (sgetD s.pins p {}).func == 3

/-- TRIG_PPS_EDGE: an edge of the TRIG pin with function PPS_IN2 (02_fabric_time R58). -/
def execTrigPpsEdge (t : Nat) (raw : Nat) (s : State) : Host.Outcome State Fault Refusal :=
  onHub t (fun s => if s.ppsPin.isNone then s else s.ppsEdge true raw) s

/-- The next window of a source has passed (02_fabric_time R57). -/
def State.ppsWindow (s : State) (trig : Bool) : State :=
  let p := s.ppsOf trig
  match p.last with
  | none => s
  | some l =>
    if l + (p.wins + 1) * secT + 1600000 < s.now then (s.setPps trig { p with wins := p.wins + 1 }).ppsMiss trig else s

/-- PPS_WINDOW_MISS (02_fabric_time R57). -/
def execPpsWindowMiss (t : Nat) (s : State) : Host.Outcome State Fault Refusal :=
  onHub t (fun s => (s.ppsWindow false).ppsWindow true) s

/-- The sources that a time-of-day message speaks to: PPS_IN where it is captured, and the TRIG pin of function PPS_IN2
(02_fabric_time R58). -/
def State.ppsSources (s : State) : List Bool :=
  (if s.rb Kx.timPpsCfg 0 || s.ppsPin.isNone then [false] else []) ++ if s.ppsPin.isSome then [true] else []

/-- A source accepts a time-of-day message now: in its window, or before its first edge (02_fabric_time R58). -/
def State.takesTime (s : State) (trig : Bool) : Bool :=
  match (s.ppsOf trig).last with
  | none => true
  | some l => decide (l + 100 * msT ≤ s.now ∧ s.now ≤ l + 900 * msT)

/-- A time-of-day message (02_fabric_time R58): the state, whether it was accepted, and the FT of the last accepted edge. Each source under
whose rules it is in time takes it; a message that none takes, and one that a later one replaces, counts as rejected (log entry 20). -/
def State.timeOfDay (s : State) (sec : Nat) : State × Bool × Nat :=
  let l := s.ppsSources
  let ok := l.filter s.takesTime
  let last := ((s.ppsOf ((ok ++ l).headD false)).last).getD 0
  let lost := ok.isEmpty || ok.any fun k => (s.ppsOf k).held.isSome
  let s := if lost then s.incF Kx.timStatus 15 8 1 else s
  (ok.foldl (fun (s : State) k => s.setPps k { (s.ppsOf k) with held := some sec }) s, !ok.isEmpty, last)

/-- The TIME_SET descriptor's effect (02_fabric_time R58, 10_contexts Table 10.7). -/
def State.effTimeSet (s : State) (q : CmdRef) (sec : Nat) : State :=
  s.issue q opTimeSet true fun s =>
    let (s, ok, l) := s.timeOfDay sec
    s.post q opTimeSet (if ok then rOk else rTimeRej) l 0 0

/-- TIME_SET. -/
def execTimeSet (t : Nat) (q : CmdRef) (sec : BitVec 48) (s : State) : Host.Outcome State Fault Refusal :=
  onCmd t q (fun s => s.effTimeSet q sec.toNat) s

/-- TIME_OF_DAY: the Port B message (11_management Table 11.8). -/
def execTimeOfDay (t : Nat) (sec : BitVec 48) (s : State) : Host.Outcome State Fault Refusal :=
  onHub t (fun s =>
    let (s, ok, l) := s.timeOfDay sec.toNat
    s.emit (.response (if ok then rOk else rTimeRej) (bytesOfNat 8 l))) s

/-- Ticks from the FT of the nearest second to `now`, where PPS_OUT has one (02_fabric_time R59). Calendar seconds run from the
best anchor at the nominal rate. -/
def State.ppsOutPhase (s : State) : Option Nat :=
  if s.rb Kx.timPpsCfg 22 then some (min (s.now % secT) (secT - s.now % secT))
  else
    s.bestAnchor.map fun a =>
      let p := ((Int.ofNat s.now - Int.ofNat a.ft + 8 * Int.ofNat a.ns) % Int.ofNat secT).toNat
      min p (secT - p)

/-- PPS_OUT_START: at the reference edge nearest a second, PPS_OUT goes high (02_fabric_time R59). -/
def execPpsOutStart (t : Nat) (s : State) : Host.Outcome State Fault Refusal :=
  onHub t (fun s =>
    if s.rb Kx.timPpsCfg 23 && s.clk.ppsOut.isNone && s.ppsOutPhase.any (· ≤ 4) then
      ({ s with clk := { s.clk with ppsOut := some s.now } }).emit (.ppsOut true)
    else s) s

/-- PPS_OUT_END: after PPSOUT_WIDTH ms (02_fabric_time R59, Table 2.8). -/
def execPpsOutEnd (t : Nat) (s : State) : Host.Outcome State Fault Refusal :=
  onHub t (fun s =>
    match s.clk.ppsOut with
    | some t0 =>
      if t0 + clampN 1 200 (s.rf Kx.timPpsCfg 31 24) * msT ≤ s.now then
        ({ s with clk := { s.clk with ppsOut := none } }).emit (.ppsOut false)
      else s
    | none => s) s

/-- A host anchor: recorded with source HOST, not checked (02_fabric_time R60). -/
def State.hostAnchor (s : State) (ft : BitVec 64) (sec : BitVec 48) (ns : BitVec 30) (bound : BitVec 32) : State :=
  s.anchor { src := 3, ft := ft.toNat, sec := sec.toNat, ns := ns.toNat, bound := bound.toNat }

/-- The HOST_ANCHOR descriptor's effect. -/
def State.effHostAnchor (s : State) (q : CmdRef) (ft : BitVec 64) (sec : BitVec 48) (ns : BitVec 30) (bound : BitVec 32) :
    State :=
  s.issue q opHostAnchor true fun s => (s.hostAnchor ft sec ns bound).post q opHostAnchor rOk ft.toNat 0 0

/-- HOST_ANCHOR (02_fabric_time R60). -/
def execHostAnchor (t : Nat) (q : CmdRef) (ft : BitVec 64) (sec : BitVec 48) (ns : BitVec 30) (bound : BitVec 32)
    (s : State) : Host.Outcome State Fault Refusal :=
  onCmd t q (fun s => s.effHostAnchor q ft sec ns bound) s

/-- HOST_ANCHOR_MSG: the Port B message (11_management Table 11.8). -/
def execHostAnchorMsg (t : Nat) (ft : BitVec 64) (sec : BitVec 48) (ns : BitVec 30) (bound : BitVec 32) (s : State) :
    Host.Outcome State Fault Refusal :=
  onHub t (fun s => (s.hostAnchor ft sec ns bound).emit (.response rOk [])) s

end Sys2Proof.Machine
end

