-- ==== Sys2Proof/Machine/Channels.lean ====
section
/-!
DEFINITION. Channels: error windows, retries, retirement and restore, and what is lost with a memory stack
(14_startup R346-R352; 06_admission R143; 07_sequence_ledger R181; 09_churn R228; 10_contexts R242).
-/

namespace Sys2Proof.Machine

/-! ## The channel table -/

/-- STATE codes of a channel (14_startup Table 14.5). -/
def chActive : BitVec 2 := 0
def chRetired : BitVec 2 := 1
def chRestoring : BitVec 2 := 2

/-- Type and index of a channel identifier (14_startup R346). -/
def chanType (ch : Nat) : Nat := ch / 0x1000
def chanIdx (ch : Nat) : Nat := ch % 0x1000

/-- Whether the channel exists (14_startup Table 14.4). -/
def State.chanExists (s : State) (ch : Nat) : Bool :=
  let i := chanIdx ch
  match chanType ch with
  | 1 | 2 => s.present i
  | 3 => s.present i || i == 40 || i == 41
  | 4 => decide (i < s.integ.nstack)
  | 5 => decide (i < 8)
  | 6 => decide (i < 3)
  | 7 => i == 0
  | 8 => decide (i < 16)
  | 9 => decide (i < 2)
  | _ => false

/-- A channel's entry. -/
def State.chan (s : State) (ch : Nat) : Chan := sgetD s.chans ch {}

/-- A stack's regions are out of use: its channel is, or it is restored and they are still being rebuilt (14_startup R351). -/
def State.stackOut (s : State) (st : Nat) : Bool := (s.chan (0x4000 + st)).st != chActive || st ∈ s.jrn.regain

/-- Change a channel's entry. -/
def State.modChan (s : State) (ch : Nat) (f : Chan → Chan) : State := { s with chans := sput s.chans ch (f (s.chan ch)) }

/-- UNIT of the part a channel belongs to, or 0x40 (14_startup Table 14.8). -/
def chanWhere (ch : Nat) : Nat := if 1 ≤ chanType ch && chanType ch ≤ 3 && chanIdx ch < 40 then chanIdx ch else 0x40

/-- FKIND codes (05_records Table 5.11). -/
def fkTransient : Nat := 1
def fkPermanent : Nat := 2
def fkRestored : Nat := 3

/-- Causes of a CHANNEL record (14_startup Table 14.8). -/
def ccExhaust : Nat := 1
def ccRate : Nat := 2
def ccOperator : Nat := 3
def ccEvent : Nat := 4

/-- A CHANNEL record (14_startup R349, R355). -/
def State.chanRecord (s : State) (ch fkind cause : Nat) : State :=
  let c := s.chan ch
  s.fault fcChannel ch (chanWhere ch) (cause * 2 ^ 24 + c.retry * 2 ^ 16 + min 0xFFFF c.evwin) s.now c.hot c.total
    (fkind != fkTransient) fkind

/-! ## Regions of a memory stack -/

/-- A JOURNAL_COPY record for a lost region (14_startup Table 14.8). -/
def State.copyRecord (s : State) (stack d0 : Nat) : State :=
  s.faultEvent fcJrnCopy (0x4000 + stack) 0x40 d0 s.now s.jrn.widx 0

/-- A journal copy that can take writes is left (06_admission R143, R150). -/
def State.jrnCopies (s : State) : Bool := !(s.jrn.lost0 && s.jrn.lost1) || s.jrn.fallback

/-- The hub's expectation of a unit falls back to a number, where it is not lower already (05_records R128). -/
def Jrn.missing (j : Jrn) (u first : Nat) : Jrn :=
  { j with expect := sput j.expect u (min first (sgetD j.expect u first)) }

/-- With the last copy the journal's contents are lost: of each unit the accepted curds that some sink had still to read are missing, and
its next curd shows them as a DETECTED gap (05_records R128, 06_admission R150). -/
def State.loseCopies (s : State) : State :=
  if s.jrnCopies then s
  else
    let from_ := (s.subs.map (·.next)).foldl min s.jrn.delivTo
    let l := s.jrn.mem.filter fun e => decide (from_ ≤ e.1)
    let j := l.foldl (fun (j : Jrn) (e : Nat × Curd) => j.missing e.2.unit e.2.firstSeq) s.jrn
    { s with jrn := { j with mem := [], ckpt := none } }

/-- The journal loses copy 0, copy 1 or the fallback region (06_admission R143). -/
def State.loseJournal (s : State) (stack copy : Nat) : State :=
  let s := s.copyRecord stack (0x4A524E00 + copy)
  let j := s.jrn
  if copy = 2 then { s with jrn := { j with fallback := false, rebuild := false } }.loseCopies
  else
    let fb := s.rb Kx.hubJrnCfg 30 && !j.fallback && !j.lost0 && !j.lost1
    let j := if copy = 0 then { j with lost0 := true } else { j with lost1 := true }
    (({ s with jrn := { j with fallback := j.fallback || fb, rebuild := j.rebuild || fb } }).setB Kx.hubJrnStatus
      (8 + copy) true).loseCopies

/-- Every region of the unit on a stack is lost (14_startup Table 14.4). -/
def State.loseStack (s : State) (st : Nat) : State :=
  let on := fun (r : Reg) (hi lo : Nat) (s : State) => s.rb r 31 && s.rf r hi lo == st
  let s := { s with jrn := { s.jrn with regain := s.jrn.regain.filter (· != st) } }
  let s := if on Kx.hubJrnCfg 15 12 s then s.loseJournal st 0 else s
  let s := if on Kx.hubJrnCfg 19 16 s then s.loseJournal st 1 else s
  let s := if s.jrn.fallback && on Kx.hubJrnCfg 23 20 s then s.loseJournal st 2 else s
  let s := if on Kx.ledCfg 19 16 s then
      { (s.copyRecord st 0x4C454400).setB Kx.ledStatus 3 true with led := { s.led with flows := [], gone0 := true, ckpt := none } }
    else s
  let s := if on Kx.ledCfg 23 20 s then
      { (s.copyRecord st 0x4C454401).setB Kx.ledStatus 4 true with led := { s.led with flows1 := [], gone1 := true, ckpt1 := none } }
    else s
  let s := if on Kx.ctxLogCfg 15 12 s then (s.copyRecord st 0x43545800).setB Kx.ctxLogCfg 4 true else s
  let s := if on Kx.ctxLogCfg 19 16 s then (s.copyRecord st 0x43545801).setB Kx.ctxLogCfg 5 true else s
  if on Kx.chnCfg 19 16 s then
    let c := s.churn
    let c : Churn :=
      { c with
        insts := [], hist := [], hbw := [], hbwHist := [], mems := [], ins := [], stages := [], lostAt := some s.now, since := s.now
        exps := c.exps.map fun w => if w.stop ≤ s.now then w else { w with cnts := [], total := 0, flags := w.flags ||| 1 } }
    ({ s with churn := c }.copyRecord st 0x43484E00).setB Kx.chnStatus 7 true
  else s

/-! ## Retirement -/

/-- The designated neighbour that relays a station's alternate route (01_unit_anatomy R24). -/
def State.neighbour (s : State) (n : Nat) : Nat := sgetD s.integ.neigh n (if n % 2 = 0 then n + 1 else n - 1)

/-- A ROUTE_SWITCH record and the move of a station's traffic (14_startup Tables 14.4, 14.8; 02_fabric_time R45). -/
def State.moveRoute (s : State) (n : Nat) (back : Bool) : State :=
  (s.faultEvent fcRoute ((if back then 0x2000 else 0x1000) + n) n (b1 back) s.now (s.neighbour n) 0).routeSwitch n (!back)

/-- A station that becomes isolated loses its grants and its wait, and with the wait the NO_BUFFER answer: what it cannot store now
counts under NOSLOT (14_startup R352, Table 14.7). -/
def State.isolate (s : State) (n : Nat) : State :=
  let s := { s with jrn := { s.jrn with grants := sdel s.jrn.grants n, wait := s.jrn.wait.filter (· != n) } }
  s.modStn n fun st => { st with link := [], noBuf := false }

/-- A station whose isolation ends offers records to Skim again, at the fair level of the last division (06_admission R155). -/
def State.rejoinStn (s : State) (n : Nat) : State := s.modStn n fun st => { st with pace := s.fairPacer }

/-- Sub-ports that hold a lane: one at most; at 800G only lanes of the width in force are held (15_egress Table 15.1, R362). -/
def State.laneSub (s : State) (l : Nat) : BitVec 4 :=
  let m := s.rf Kx.egrCfg 30 29
  let k := if m = 1 then l / 4 else if m = 2 then l / 2 else 0
  let w := s.egr.width
  let held := m = 1 || m = 2 || w = 0 || (w = 1 && l < 4) || (w = 2 && 4 ≤ l)
  if held then (1 : BitVec 4) <<< k else 0

/-! ## The hub instances -/

/-- Change the pair. -/
def State.modPair (s : State) (f : Pair → Pair) : State := { s with pair := f s.pair }

/-- The other instance, its index, and the channel of an instance (14_startup Table 14.4). -/
def otherHub : HubId → HubId
  | .a => .b
  | .b => .a
def hubIdx (h : HubId) : Nat := match h with | .a => 0 | .b => 1
def hubChan (h : HubId) : Nat := 0x9000 + hubIdx h

/-- Causes of a takeover (14_startup Table 14.8). -/
def tcSilent : Nat := 1
def tcSelf : Nat := 2
def tcWatchdog : Nat := 3
def tcPlanned : Nat := 4

/-- Whether an instance's channel is out of service (14_startup R345). -/
def State.hubRetired (s : State) (h : HubId) : Bool := (s.chan (hubChan h)).st != chActive

/-- Whether the standby can take over: mirrored, its peer link in service (14_startup R342). -/
def State.standbyServes (s : State) : Bool := s.pair.stbyOk && (s.chan 0x7000).st == chActive

/-- The standby is absent: internal sources take in without confirmation what waited for one (06_admission R138). -/
def State.loseStandby (s : State) : State :=
  if !s.pair.stbyOk then s
  else
    let s := { s.modPair fun p => { p with stbyOk := false } with clk := { s.clk with stby := {} } }
    (List.range 8).foldl (fun (s : State) k =>
      let l := (s.src k).wait
      let s := s.modSrc k fun h => { h with wait := [], unacc := [] }
      l.foldl (fun (s : State) r => s.acceptSrc k r) s) s

/-- A hub instance is retired. The standby is fenced at once. The active one has failed: where the standby can, it takes over, and the
retired instance stays fenced; with no standby nothing fences it, and it serves on (14_startup R343, R345; log entry 43). -/
def State.retireHub (s : State) (i : Nat) : State :=
  if i = hubIdx s.pair.active then
    if s.standbyServes && s.pair.takeover.isNone then s.modPair fun p => { p with takeover := some (s.now, tcSelf), fenced := false }
    else s
  else (s.modPair fun p => { p with stbyFenced := true }).loseStandby

/-! ## What follows a retirement -/

/-- What follows a channel's retirement (14_startup Table 14.4). -/
def State.onRetire (s : State) (ch : Nat) : State :=
  let i := chanIdx ch
  match chanType ch with
  | 1 => if (s.chan (0x2000 + i)).st != chActive then s.isolate i else s.moveRoute i false
  | 2 => if (s.chan (0x1000 + i)).st != chActive then s.isolate i else s
  | 4 => s.loseStack i
  | 5 => { s with egr := { s.egr with up := s.egr.up &&& ~~~(s.laneSub i), owed := s.egr.owed ||| s.laneSub i } }
  | 6 =>
    { s with node := { s.node with ports := sput s.node.ports i { (sgetD s.node.ports i {}) with st := 3, peer := none } } }
  | 7 => s.loseStandby
  | 9 => s.retireHub i
  | _ => s

/-- Retire a channel that is not retired yet: the PERMANENT record, then what follows (14_startup R348-R350). -/
def State.retireChan (s : State) (ch cause : Nat) : State :=
  if !(s.chanExists ch) || (s.chan ch).st == chRetired then s
  else ((s.modChan ch fun c => { c with st := chRetired }).chanRecord ch fkPermanent cause).onRetire ch

/-! ## Windows and retries -/

/-- The window of an instant (14_startup R347). -/
def winOf (ft : Nat) : Nat := ft / secT

/-- Close a channel's window once its boundary has passed: 10 events make it hot, the third hot one in a row retires it
(14_startup R347, R348). -/
def State.closeWindow (s : State) (ch : Nat) : State :=
  let c := s.chan ch
  let w := winOf s.now
  if w ≤ c.win then s
  else
    let hot := if 10 ≤ c.evwin then c.hot + 1 else 0
    let s := s.modChan ch fun c => { c with hot := min 3 hot }
    let s := if 3 ≤ hot then s.retireChan ch ccRate else s
    s.modChan ch fun c => { c with evwin := 0, told := false, win := w, hot := if c.win + 1 < w && c.st == chActive then 0 else c.hot }

/-- Count an error event of a channel; the first of its window is reported TRANSIENT (14_startup R347, R349). -/
def State.channelError (s : State) (ch : Nat) : State :=
  if !(s.chanExists ch) || (s.chan ch).st == chRetired then s
  else
    let s := s.closeWindow ch
    let told := (s.chan ch).told
    let s := s.modChan ch fun c =>
      { c with evwin := min 0xFFFF (c.evwin + 1), total := c.total + 1, retry := 0, told := true }
    if told then s else s.chanRecord ch fkTransient ccEvent

/-- CHANNEL_ERROR (14_startup R347). -/
def execChannelError (t : Nat) (chan : BitVec 16) (s : State) : Host.Outcome State Fault Refusal :=
  onHub t (fun s => s.channelError chan.toNat) s

/-- A retry of the present event ended; the third failure retires the channel (14_startup R347, R348). -/
def State.retryResult (s : State) (ch : Nat) (ok : Bool) : State :=
  if !(s.chanExists ch) || (s.chan ch).st != chActive then s
  else if ok then
    -- a core that passes its reset and self-test takes its duty back (14_startup Table 14.4)
    let s := if chanType ch = 8 then
        { s with pair := { s.pair with cores := sput s.pair.cores (chanIdx ch) { (sgetD s.pair.cores (chanIdx ch) {}) with fault := false } } }
      else s
    s.modChan ch fun c => { c with retry := 0 }
  else
    let s := s.modChan ch fun c => { c with retry := min 3 (c.retry + 1) }
    if 3 ≤ (s.chan ch).retry then s.retireChan ch ccExhaust else s

/-- CHANNEL_RETRY_RESULT (14_startup R348). -/
def execChannelRetryResult (t : Nat) (chan : BitVec 16) (ok : Bool) (s : State) : Host.Outcome State Fault Refusal :=
  onHub t (fun s => s.retryResult chan.toNat ok) s

/-- CHANNEL_WINDOW_CLOSE (14_startup R347, R348). -/
def execChannelWindowClose (t : Nat) (chan : BitVec 16) (s : State) : Host.Outcome State Fault Refusal :=
  onHub t (fun s => if s.chanExists chan.toNat then s.closeWindow chan.toNat else s) s

/-! ## Operator restore and retire -/

/-- The channel that KX_GLB_CHSEL names. -/
def State.chSel (s : State) : Nat := s.rf Kx.glbChsel 15 0

/-- RESTORE acts on a retired channel; on any other it clears unused (14_startup R351, 17_setup_registers Table 17.4). -/
def State.chanRestore (s : State) (ch : Nat) : State :=
  if s.chanExists ch && (s.chan ch).st == chRetired then
    (s.modChan ch fun c => { c with st := chRestoring }).setB Kx.glbChctl 31 true
  else s

/-- CHANNEL_RESTORE: a lease holder writes RESTORE = 1 (14_startup R351). -/
def execChannelRestore (t : Nat) (port : Port) (s : State) : Host.Outcome State Fault Refusal :=
  onWrite t port Kx.glbChctl.off (fun s => s.notDbg port Kx.glbChctl.off fun s =>
    s.rwsWrite port true fun s => s.chanRestore s.chSel) s

/-- The journal copies that lay on a stack and are lost: 0, 1, or 2 for the fallback region (06_admission R143). -/
def State.lostOn (s : State) (st : Nat) : List Nat :=
  let at_ := fun (lo : Nat) => s.rf Kx.hubJrnCfg (lo + 3) lo == st
  (if s.jrn.lost0 && at_ 12 then [0] else []) ++ (if s.jrn.lost1 && at_ 16 then [1] else []) ++
    if s.rb Kx.hubJrnCfg 30 && at_ 20 && (s.jrn.lost0 || s.jrn.lost1) && !s.jrn.fallback then [2] else []

/-- A restored stack: its regions are rebuilt from their surviving copies (14_startup R351). -/
def State.regainStack (s : State) (st : Nat) : State :=
  { s with jrn := { s.jrn with regain := insertNew s.jrn.regain st
                               rebuild := s.jrn.rebuild || (s.jrnOn && !(s.lostOn st).isEmpty) } }

/-- The ledger's copies on stacks that are in use again are written from the copies that stood (07_sequence_ledger R181). -/
def State.regainLedger (s : State) (back : List Nat) : Led :=
  let l := s.led
  let on := fun (hi lo : Nat) => s.rb Kx.ledCfg 31 && s.rf Kx.ledCfg hi lo ∈ back
  let l := if l.gone0 && on 19 16 then { l with gone0 := false, flows := l.flows1, ckpt := l.ckpt1 } else l
  if l.gone1 && on 23 20 then { l with gone1 := false, flows1 := l.flows, ckpt1 := l.ckpt } else l

/-- The rebuild ends: the rebuilt regions are copies again, and the fallback region is one only while an original is lost
(06_admission R143, 14_startup R351). -/
def State.regained (s : State) : State :=
  let l := s.jrn.regain.flatMap s.lostOn
  let lost0 := s.jrn.lost0 && !(0 ∈ l)
  let lost1 := s.jrn.lost1 && !(1 ∈ l)
  { s with
    led := s.regainLedger s.jrn.regain
    jrn := { s.jrn with
      rebuild := false, regain := [], lost0 := lost0, lost1 := lost1
      fallback := (s.jrn.fallback || 2 ∈ l) && (lost0 || lost1) } }

/-- CHANNEL_RESTORE_DONE: the 16 retries ended (14_startup R351). A restored stack regains its regions once they are
rebuilt. -/
def execChannelRestoreDone (t : Nat) (chan : BitVec 16) (ok : Bool) (s : State) : Host.Outcome State Fault Refusal :=
  onHub t (fun s =>
    let ch := chan.toNat
    if (s.chan ch).st != chRestoring then s
    else
      let s := s.hwClear Kx.glbChctl 31
      if !ok then s.modChan ch fun c => { c with st := chRetired }
      else
        let i := chanIdx ch
        let alone := (chanType ch == 1 || chanType ch == 2) && s.isolated i
        let s := s.modChan ch fun c => { c with st := chActive, hot := 0, retry := 0, evwin := 0 }
        let s := s.chanRecord ch fkRestored ccOperator
        let s := if alone && (s.stn i).offering then s.rejoinStn i else s
        match chanType ch with
        | 1 => s.moveRoute i true
        | 2 => if (s.chan (0x1000 + i)).st != chActive then s.moveRoute i false else s
        | 4 => s.regainStack i
        | 6 =>
          let st : BitVec 2 := if s.rb (Kx.synPcfg i) 31 then 1 else 0
          { s with node := { s.node with ports := sput s.node.ports i { (sgetD s.node.ports i {}) with st := st } } }
        | 8 => { s with pair := { s.pair with cores := sput s.pair.cores i { (sgetD s.pair.cores i {}) with fault := false } } }
        | 9 => if i = hubIdx s.pair.active then s else s.modPair fun p => { p with stbyFenced := false }
        | _ => s) s

/-- CHANNEL_RETIRE: a lease holder writes RETIRE = 1 (14_startup R351). -/
def execChannelRetire (t : Nat) (port : Port) (s : State) : Host.Outcome State Fault Refusal :=
  onWrite t port Kx.glbChctl.off (fun s => s.notDbg port Kx.glbChctl.off fun s =>
    s.rwsWrite port true fun s => s.retireChan s.chSel ccOperator) s

end Sys2Proof.Machine
end

