-- ==== Sys2Proof/Machine/Counters.lean ====
section
/-!
DEFINITION. Counter registers, captures, snapshots and windowed bandwidth (03_counters R70-R79).
-/

namespace Sys2Proof.Machine

/-! ## The counters as registers -/

/-- The value of counter k, or of AOj as 256 + j. AO60 to AO63 read zero (03_counters Table 3.8). -/
def Stn.counter (st : Stn) (k : Nat) : Nat :=
  if k < 256 then sgetD st.cnt k 0 else if k < 316 then sgetD st.ao k 0 else 0

/-- Window offset of a counter's LO register (17_setup_registers Table 17.3). -/
def cntOff (k : Nat) : Nat := if k < 256 then 0x800 + 8 * k else 0x600 + 8 * (k - 256)

/-- The high-half latch of a port. -/
def Stn.latch (st : Stn) : Port → Option (Nat × BitVec 16)
  | .a => st.latchA
  | .b => st.latchB
  | .dbg => none

/-- Set the high-half latch of a port; the debug port has none (17_setup_registers R383). -/
def Stn.setLatch (st : Stn) (p : Port) (l : Option (Nat × BitVec 16)) : Stn :=
  match p with
  | .a => { st with latchA := l }
  | .b => { st with latchB := l }
  | .dbg => st

/-- HI register of counter k as a port sees it (03_counters R70). -/
def Stn.hiWord (st : Stn) (p : Port) (k : Nat) : Word :=
  match st.latch p with
  | some (j, v) => if j = k then 0x80000000 ||| v.setWidth 32 else BitVec.ofNat 32 (st.counter k / 2 ^ 32)
  | none => BitVec.ofNat 32 (st.counter k / 2 ^ 32)

/-! ## Captures -/

/-- Capture kinds, as the bits of TFLAGS [7:4] (05_records Table 5.6). -/
def ckPeriodic : BitVec 4 := 8
def ckAo : BitVec 4 := 4
def ckSnap : BitVec 4 := 2
def ckEpochEnd : BitVec 4 := 1

/-- The periodic interval in force, in ticks (03_counters Tables 3.12, 3.17). -/
def State.cntIval (s : State) (n : Nat) : Nat :=
  min 1000000 (clampN 4 1000000 (s.rf (Kx.stnCntCfg n) 19 0) * 2 ^ (s.stn n).levCnt) * usT

/-- The CNT records of a capture: at most 120 entries each (05_records R127 and Table 5.6). -/
def cntRecords (src : BitVec 16) (kinds : BitVec 4) (snapId : BitVec 32) (skip : Bool) (ents : List (BitVec 64)) :
    List Record :=
  let k := (ents.length + 119) / 120
  (List.range k).map fun i =>
    let part := (ents.drop (120 * i)).take 120
    { mkRec .cnt (tflags [(kinds.toNat, 4), (b1 skip, 3), (b1 (i + 1 == k), 2)]) src
        (word64 [((if kinds.getLsbD 1 then snapId.toNat else 0), 32), (part.length, 0)] :: part) with filled := false }

/-- One entry of a CNT record (05_records Table 5.6). -/
def cntEntry (st : Stn) (k : Nat) : BitVec 64 :=
  word64 [(b1 (k ∈ st.wrap), 63), (b1 !(k ∈ st.seen), 62), (b1 (decide (256 ≤ k)), 56), (k % 256, 48), (st.counter k, 0)]

/-- Copy the counters of station n into a bank for instant T, whose copy edge is now (03_counters R73, R75). `progs`: with the
programmable counters. The copy includes the ticks before T and no observation of the copy edge; the records name the copy edge and are
admitted after it (`admitBanks`). -/
def State.copyBank (s : State) (n T : Nat) (kinds : BitVec 4) (progs : Bool) (snapId : BitVec 32) : State :=
  let s := s.settleTime n T
  let s := s.modStn n fun st => { st with lastTry := T }
  if 5 ≤ (s.stn n).banks.length then
    (s.incF (Kx.stnCntStat n) 31 24 1).modStn n fun st => { st with skip := true }
  else
    let st := s.stn n
    let keys := (List.range 64).map (256 + ·) ++ (if progs then (List.range 256).filter (· ∈ s.counters n) else [])
    let recs := cntRecords (srcId n 0 0) kinds snapId st.skip (keys.map (cntEntry st))
    s.setStn n
      { st with
        skip := false, lastCap := T, seen := keys.foldl insertNew st.seen,
        wrap := st.wrap.filter fun k => !(k ∈ keys),
        banks := st.banks ++ [{ kinds := kinds, snapId := snapId, at_ := s.stnFt n, recs := recs }] }

/-- Admit the CNT records of the banks copied at this edge, with the copy edge as their timestamp (03_counters R74). -/
def State.admitBanks (s : State) (n : Nat) : State :=
  ((s.stn n).banks.filter fun b => !b.recs.isEmpty).foldl (fun s b =>
    let (s, seqs) := b.recs.foldl (fun (acc : State × List Nat) r =>
      let (s, r, ok) := acc.1.admitR n r none (some b.at_)
      (s, acc.2 ++ (if ok then [r.seq] else []))) (s, [])
    s.modStn n fun st =>
      { st with banks := replaceFirst (fun x => x.at_ == b.at_ && !x.recs.isEmpty) (fun x => { x with seqs := seqs, recs := [] }) st.banks }) s

/-- The first snapshot scheduled at station n whose instant has come, if any. -/
def State.snapDue (s : State) (n : Nat) : Option (BitVec 32 × Nat) :=
  (s.stn n).snaps.find? fun x => x.2 ≤ s.stnFt n

/-- Instants of the captures due at station n now: periodic, always-on, snapshot (03_counters Table 3.11). A station that offers no
records takes none (R75). -/
def State.captureDue (s : State) (n : Nat) : Option Nat × Option Nat × Option (BitVec 32 × Nat) :=
  let st := s.stn n
  let e := s.stnFt n
  let tp := gridAt (s.cntIval n) e
  let ta := gridAt msT e
  (if st.offering && s.rb (Kx.stnCntCfg n) 31 && st.lastTry < tp then some tp else none,
    if st.offering && st.lastTry < ta && st.lastCap + msT ≤ ta then some ta else none,
    s.snapDue n)

/-- The device's record of a scheduled snapshot. -/
def State.modSnap (s : State) (id : BitVec 32) (f : Snap → Snap) : State :=
  { s with snaps := replaceFirst (fun x => x.id == id) f s.snaps }

/-- Copy the counters for instant T with every kind that falls on it (03_counters Table 3.11). A snapshot for which no bank is free, or
at a station that offers no records, is reported missing (R75, R78). -/
def State.captureAt (s : State) (n T : Nat) (epochEnd : Bool) : State :=
  let d := s.captureDue n
  let per : Bool := d.1 == some T
  let ao : Bool := d.2.1 == some T
  let snap := d.2.2.filter fun x => x.2 == T
  let kinds := (if epochEnd then ckEpochEnd else 0) ||| (if per then ckPeriodic else 0) ||| (if ao then ckAo else 0) |||
    (if snap.isSome then ckSnap else 0)
  let takes := (s.stn n).offering
  let full := decide (5 ≤ (s.stn n).banks.length)
  let s := if takes then s.copyBank n T kinds (per || snap.isSome || epochEnd) (snap.elim 0 (·.1)) else s
  match snap with
  | none => s
  | some (id, _) =>
    (s.modStn n fun st => { st with snaps := st.snaps.filter fun x => x.1 != id }).modSnap id fun x =>
      if !takes || full then { x with miss := x.miss ||| (1 <<< n) } else { x with took := x.took ||| (1 <<< n) }

/-- The earliest instant of a capture due at station n. -/
def State.captureNext (s : State) (n : Nat) : Option Nat :=
  let d := s.captureDue n
  let least := fun (a b : Option Nat) => match a, b with | some x, some y => some (min x y) | some x, none => some x | none, y => y
  least (least d.1 d.2.1) (d.2.2.map (·.2))

/-- Take the captures that are due before instant `upto`, oldest first. Each takes its instant out of what is due; there are at most `k`
of them. -/
def State.capturesBefore : Nat → State → Nat → Nat → State
  | 0, s, _, _ => s
  | k + 1, s, n, upto =>
    match s.captureNext n with
    | some T => if T < upto then State.capturesBefore k (s.captureAt n T false) n upto else s
    | none => s

/-- At most so many captures are due at once: a periodic one, an always-on one and the snapshots. -/
def State.captureFuel (s : State) (n : Nat) : Nat := 2 + (s.stn n).snaps.length

/-- A die edge begins at station n: the captures whose copy edge it is are cut (03_counters R73), the TIME increments of the cycles that
have ended are added (R67), and the inputs of the cycle before end (04_markers R103). -/
def State.startEdge (s : State) (n : Nat) : State :=
  let e := s.stnFt n
  if (s.stn n).inAt = e then s
  else
    let s := s.modStn n fun st => { st with incs := [], loads := [] }
    ((s.capturesBefore (s.captureFuel n) n (e + 1)).settleEnded n e).newCycle n e

/-- CAPTURE_WRITE_DONE: the contents of the bank copied at an edge are in the curd and the bank is free
(03_counters R74, 01_unit_anatomy R405). -/
def execCaptureWriteDone (t : Nat) (die : Fin 40) (at_ : Nat) (s : State) : Host.Outcome State Fault Refusal :=
  onStn t die (fun s =>
    match (s.stn die).banks.find? fun b => b.at_ == at_ && b.recs.isEmpty with
    | none => s
    | some b =>
      let s := b.seqs.foldl (fun s q => s.fillRec die q fun r => { r with filled := true }) s
      s.modStn die fun st => { st with banks := removeFirst (fun b => b.at_ == at_) st.banks }) s

/-! ## Counter registers -/

/-- Read a LO register: every TIME increment of a cycle that has ended is in the value, and the port's latch takes its high half
(03_counters R67, R70). -/
def State.readCntLo (s : State) (p : Port) (n k : Nat) : State × Word :=
  let v := ((s.settleEnded n (s.stnFt n)).stn n).counter k
  (s.modStn n fun st => st.setLatch p (some (k, BitVec.ofNat 16 (v / 2 ^ 32))), BitVec.ofNat 32 v)

/-- Read a HI register: the latch of this counter, which empties, or the live bits (03_counters R70). -/
def State.readCntHi (s : State) (p : Port) (n k : Nat) : State × Word :=
  let w := ((s.settleEnded n (s.stnFt n)).stn n).hiWord p k
  (if w.getLsbD 31 then s.modStn n fun st => st.setLatch p none else s, w)

/-- COUNTER_LO_READ (03_counters R70). -/
def execCounterLoRead (t : Nat) (port : Port) (die : Fin 40) (ctr : Fin 320) (s : State) :
    Host.Outcome State Fault Refusal :=
  onRead t port (stnOff die (cntOff ctr)) (fun s => s.stnRead port die (cntOff ctr) fun s => s.readCntLo port die ctr) s

/-- COUNTER_HI_READ (03_counters R70). -/
def execCounterHiRead (t : Nat) (port : Port) (die : Fin 40) (ctr : Fin 320) (s : State) :
    Host.Outcome State Fault Refusal :=
  onRead t port (stnOff die (cntOff ctr + 4)) (fun s => s.stnRead port die (cntOff ctr + 4) fun s =>
    s.readCntHi port die ctr) s

/-- The staging of a port. -/
def Stn.stage (st : Stn) (p : Port) : SMap (BitVec 16) := match p with | .a => st.stageA | _ => st.stageB

/-- Set the staging of a port for counter k; zero leaves no entry. -/
def Stn.setStage (st : Stn) (p : Port) (k : Nat) (v : BitVec 16) : Stn :=
  let f := fun m : SMap (BitVec 16) => if v = 0 then sdel m k else sput m k v
  match p with
  | .a => { st with stageA := f st.stageA }
  | _ => { st with stageB := f st.stageB }

/-- Write KX_STN_CNT_HI[k] (03_counters R71; RWS, R261). -/
def State.writeCntHi (s : State) (p : Port) (n k : Nat) (v : Word) : State :=
  s.rwsWrite p (fld v 15 0 != (s.stn n).counter k / 2 ^ 32) fun s =>
    s.modStn n fun st => st.setStage p k (v.setWidth 16)

/-- What a counter held at the start of the die cycle in hand. -/
def Stn.before (st : Stn) (k : Nat) : Nat :=
  match st.loads.find? fun x => x.1 == k with
  | some (_, old, _) => old
  | none => (sgetD st.cnt k 0 + 2 ^ 48 - sgetD st.incs k 0 % 2 ^ 48) % 2 ^ 48

/-- Write KX_STN_CNT_LO[k]: the counter takes the port's staging and the written low bits at this die edge, with the increments of the
same cycle, those of observations still to be presented included (03_counters R71, 00_scope R14). -/
def State.writeCntLo (s : State) (p : Port) (n k : Nat) (v : Word) : State :=
  let s := s.startEdge n
  s.rwsWrite p (v.toNat != (s.stn n).counter k % 2 ^ 32) fun s =>
    let st := s.stn n
    let w := (sgetD (st.stage p) k 0).toNat * 2 ^ 32 + v.toNat
    let old := st.before k
    let (x, wraps) := loadedSum old w (sgetD st.incs k 0)
    let now := st.counter k
    let st := st.setStage p k 0
    let st := { st with
      cnt := snum st.cnt k x, wrap := if wraps then insertNew st.wrap k else st.wrap,
      loads := (k, old, w) :: st.loads.filter fun y => y.1 != k }
    let s := (s.setStn n st).noteLate n k now x
    if wraps then s.setB (Kx.stnCovf n (k / 32)) (k % 32) true else s

/-- COUNTER_HI_WRITE (03_counters R71). -/
def execCounterHiWrite (t : Nat) (port : Port) (die : Fin 40) (ctr : Fin 256) (value : Word) (s : State) :
    Host.Outcome State Fault Refusal :=
  let off := stnOff die (cntOff ctr + 4)
  onWrite t port off (fun s => s.notDbg port off fun s => s.stnAccess port die (cntOff ctr + 4) fun s =>
    s.writeCntHi port die ctr value) s

/-- COUNTER_LO_WRITE (03_counters R71). An access of 8 bytes applies its HI staging first and then the LO load
(17_setup_registers R386). -/
def execCounterLoWrite (t : Nat) (port : Port) (die : Fin 40) (ctr : Fin 256) (value : Word) (hi : Option Word) (s : State) :
    Host.Outcome State Fault Refusal :=
  let off := stnOff die (cntOff ctr)
  onWrite t port off (fun s => s.notDbg port off fun s => s.stnAccess port die (cntOff ctr) fun s =>
    ((hi.map fun h => s.writeCntHi port die ctr h).getD s).writeCntLo port die ctr value) s

/-! ## Snapshots -/

/-- Request a device snapshot for a context (03_counters R77). Each station hears of it by SNAPSHOT_COMMAND_RECEIVED. The
command completes when its SNAP record is admitted. -/
def State.effSnapshot (s : State) (q : CmdRef) (tq : Nat) : State :=
  let outstanding := s.snaps.any fun x => x.asker.any fun a => a.1 == q.ctx
  if !(s.isOper q.ctx) && outstanding then s.post q opSnapshot rSnapBusy 0 0 0
  else
    match s.requestSnap (if tq = 0 then none else some tq) (some (q.ctx, q.seq, q.irq)) 0 with
    | (s, .ok _ _) => s
    | (s, .tooSoon) => s.post q opSnapshot rTooSoon 0 0 0
    | (s, .busy) => s.post q opSnapshot rSnapBusy 0 0 0

/-- SNAPSHOT (03_counters R77). -/
def execSnapshot (t : Nat) (q : CmdRef) (tq : BitVec 64) (s : State) : Host.Outcome State Fault Refusal :=
  onCmd t q (fun s => s.effSnapshot q tq.toNat) s

/-- SNAPSHOT_MSG: the Port B message (03_counters R77, 11_management Table 11.8). -/
def execSnapshotMsg (t : Nat) (tq : BitVec 64) (s : State) : Host.Outcome State Fault Refusal :=
  onHub t (fun s =>
    match s.requestSnap (if tq = 0 then none else some tq.toNat) none 0 with
    | (s, .ok id T) => s.emit (.response rOk (bytesOf32 id ++ bytesOfNat 8 T))
    | (s, .tooSoon) => s.emit (.response rTooSoon [])
    | (s, .busy) => s.emit (.response rSnapBusy [])) s

/-- SNAPSHOT_COMMAND_RECEIVED: the station schedules its capture, or reports itself missing (03_counters R78). -/
def execSnapshotCommandReceived (t : Nat) (die : Fin 40) (id : BitVec 32) (s : State) : Host.Outcome State Fault Refusal :=
  onStn t die (fun s =>
    match s.snaps.find? fun x => x.id == id with
    | none => s
    | some x =>
      if x.t < s.stnFt die then s.modSnap id fun x => { x with miss := x.miss ||| (1 <<< die.val) }
      else s.modStn die fun st => { st with snaps := st.snaps ++ [(id, x.t)] }) s

/-- A station cannot capture: in reset, or its servo OFF or in ACQUIRE (03_counters R78). -/
def State.noCapture (s : State) (n : Nat) : Bool := (s.stn n).inReset || (s.stn n).servo.st.toNat < 2

/-- A station from which a snapshot's CNT records may still come: it captured at T and they are not accepted yet, or it can capture and is
not known to have missed T (03_counters R78). -/
def State.snapAwaits (s : State) (x : Snap) (n : Nat) : Bool :=
  !(x.acc.getLsbD n) && !(x.miss.getLsbD n) && (x.took.getLsbD n || !(s.noCapture n))

/-- SNAP_RECORD_ADMIT: every station is accepted or missing, or T + 20 µs has come (03_counters R78); the SNAPSHOT command
completes (10_contexts Table 10.7). -/
def execSnapRecordAdmit (t : Nat) (id : BitVec 32) (s : State) : Host.Outcome State Fault Refusal :=
  onHub t (fun s =>
    match s.snaps.find? fun x => x.id == id with
    | none => s
    | some x =>
      if s.now ≤ x.t || ((s.dies.any fun n => s.snapAwaits x n) && s.now < x.t + 20 * usT) then s
      else
        let miss : BitVec 40 := s.dies.foldl (fun m n => if x.acc.getLsbD n then m else m ||| (1 <<< n)) 0
        let s := { s with snaps := removeFirst (fun y => y.id == id) s.snaps }
        let s := s.hubRec 0 (mkRec .snap (tflags [(b1 (x.node != 0), 0)]) 0
          [word64 [(id.toNat, 32), (x.node.toNat, 0)], BitVec.ofNat 64 x.t, x.acc.setWidth 64, miss.setWidth 64])
        match x.asker with
        | some (c, seq, irq) =>
          s.post { ctx := c, seq := seq, irq := irq } opSnapshot rOk x.t id.toNat (popcount 40 miss.toNat)
        | none => s) s

/-! ## Windowed bandwidth -/

/-- The entries of a BW record (05_records Table 5.6). -/
def bwWords (bs : List BwPort) : List (BitVec 64) :=
  bs.flatMap fun b =>
    [word64 [(b.port, 58), (b.rx % 2 ^ 48, 0)], word64 [(0xFFFF, 48), (b.tx % 2 ^ 48, 0)],
      word64 [(min 0xFFFFFF (max b.peak b.sub), 40), (b.act % 2 ^ 40, 0)]]

/-- Ports of an analysis slice: both fields of each of its port taps, ascending (03_counters R79). -/
def State.slicePorts (s : State) (n a : Nat) : List Nat :=
  ((List.range 32).filter fun e => s.isPortTap n e && s.anSlice n e == a).flatMap fun e => [2 * e, 2 * e + 1]

/-- The rows of a port added up. -/
def bwSum (p : Nat) (rows : List BwPort) : BwPort :=
  (rows.filter fun b => b.port == p).foldl (fun (a : BwPort) b =>
    { a with rx := a.rx + b.rx, tx := a.tx + b.tx, act := a.act + b.act, peak := max a.peak (max b.peak b.sub) }) { port := p }

/-- BW_WINDOW_CLOSE: the analysis slice admits one BW record for the window that ends at the latest boundary
(03_counters R79). A window opened after its start keeps its start; bytes and ticks from the boundary on stay for the next. -/
def execBwWindowClose (t : Nat) (die : Fin 40) (sl : Fin 4) (s : State) : Host.Outcome State Fault Refusal :=
  onStn t die (fun s =>
    let n := die.val
    let a := sl.val
    let win := s.bwWin n a
    let stop := gridAt win (s.stnFt n)
    let start := sgetD (s.stn n).bwAt a 0
    if !(s.rb (Kx.stnBwcfg n a) 31) || stop ≤ start then s
    else
      let ports := s.slicePorts n a
      let s := s.settlePend n stop true fun k => 1000 ≤ k && (k - 1000) ∈ ports
      let mine := fun (b : BwPort) => decide (b.port ∈ ports) && decide (b.start < stop)
      let rows := ports.map fun p => bwSum p ((s.stn n).bw.filter mine)
      let s := s.modStn n fun st => { st with bw := st.bw.filter fun b => !(mine b), bwAt := snum st.bwAt a stop }
      if ports.isEmpty then s
      else
        s.admitRec n (mkRec .bw 0 (srcId n 0 a)
          ([BitVec.ofNat 64 (if start = 0 then stop - win else start), BitVec.ofNat 64 stop,
            word64 [(ports.length, 58), (a, 56), (sgetD (s.stn n).levBw a 0, 52)]] ++ bwWords rows))) s

end Sys2Proof.Machine
end

