-- ==== Sys2Proof/Machine/Journal.lean ====
section
/-!
DEFINITION. The way of a curd from a station to the journal: flush closes, the station link, the ingest pool, the journal
writer, acceptance, delivery and retirement (01_unit_anatomy R21-R30; 06_admission R131-R144).
-/

namespace Sys2Proof.Machine

/-! ## Closing by flush -/

/-- Close the curds of station n whose first record is a flush interval old (01_unit_anatomy R21, R22). -/
def State.flushStn (s : State) (n : Nat) : State :=
  let st := s.stn n
  let s := if st.cur.isSome && decide (st.curAt + s.flush n ≤ s.stnFt n) then s.closeCur n closeFlush else s
  if st.rsv.isSome && decide (st.rsvAt + s.flush n ≤ s.stnFt n) then s.closeRsv n closeFlush else s

/-- Close the curd of hub internal source k under the largest flush interval (01_unit_anatomy R22). -/
def State.flushSrc (s : State) (k : Nat) : State :=
  if (s.src k).cur.isSome && decide ((s.src k).curAt + s.flushMax ≤ s.now) then s.closeSrc k closeFlush else s

/-! ## The pool and its allocator -/

/-- Pool buffers neither granted nor holding a curd (06_admission Table 6.2). -/
def State.poolFree (s : State) : Nat :=
  let j := s.jrn
  512 - ((j.grants.map (·.2)).sum + (s.dies.map fun n => (s.stn n).link.length).sum + j.held.length + j.pool.length)

/-- A requester the hub can grant to: a station out of reset and not isolated, or a hub internal source. -/
def State.canRequest (s : State) (u : Nat) : Bool := if u < 40 then s.reach u else u < 48

/-- A requester's set or clear of its outstanding NO_BUFFER answer (06_admission R135). -/
def State.setNoBuf (s : State) (u : Nat) (b : Bool) : State :=
  if u < 40 then s.modStn u fun st => { st with noBuf := b } else s

/-- Grant one buffer (06_admission R135). A hub internal source copies its oldest closed buffer at once and admits its pending
GAP records into the buffer freed (06_admission R137). -/
def State.grant (s : State) (u : Nat) : State :=
  let j := s.jrn
  let s := { s with jrn := { j with grants := sadd j.grants u 1, wait := j.wait.filter (· != u), rr := (u + 1) % 48 } }
  let s := s.setNoBuf u false
  if u < 40 then s
  else
    let k := u - 40
    let t := s.pumpSrc k
    if (t.src k).full.length < (s.src k).full.length then t.flushSrcGaps k fun _ => true else t

/-- A group in the allocator's order: ascending from the requester after the last one granted (06_admission R135). -/
def State.rrOrder (s : State) (us : List Nat) : List Nat :=
  ((List.range 48).map fun i => (s.jrn.rr + i) % 48).filter (· ∈ us)

/-- Serve the wait list while buffers are free (06_admission R135). -/
def State.serveWait (s : State) : State :=
  (s.rrOrder s.jrn.wait).foldl (fun (s : State) u => if 0 < s.poolFree then s.grant u else s) s

/-- One new request (06_admission R134, R135). -/
def State.request (s : State) (u : Nat) : State :=
  if !(s.canRequest u) || 2 ≤ sgetD s.jrn.grants u 0 || u ∈ s.jrn.wait then s
  else if 0 < s.poolFree then s.grant u
  else
    (({ s with jrn := { s.jrn with wait := s.jrn.wait ++ [u] } }).setNoBuf u true).incF Kx.hubPoolStat 31 16 1

/-- POOL_REQUEST: the wait list first, then the new requests of the hub cycle (06_admission R135). -/
def execPoolRequest (t : Nat) (reqs : List (Fin 48)) (s : State) : Host.Outcome State Fault Refusal :=
  onHub t (fun s =>
    let s := s.serveWait
    (s.rrOrder (reqs.map (·.val))).foldl (fun (s : State) u => s.request u) s) s

/-- Whether a pool entry's life in the hub is over (06_admission R134). -/
def State.entryDone (s : State) (e : PoolEnt) : Bool :=
  match e.jidx, e.accAt with
  | some j, some a => decide (a + 4 * usT ≤ s.now) || s.subs.all fun x => decide (j < x.next)
  | _, _ => false

/-- POOL_BUFFER_FREE (06_admission R134, R135). -/
def execPoolBufferFree (t : Nat) (jidx : Nat) (s : State) : Host.Outcome State Fault Refusal :=
  onHub t (fun s =>
    let p := fun (e : PoolEnt) => e.jidx == some jidx && s.entryDone e
    if s.jrn.pool.any p then ({ s with jrn := { s.jrn with pool := removeFirst p s.jrn.pool } }).serveWait else s) s

/-! ## The station link -/

/-- Ticks from the first beat of a curd to the last on the station link: 255 link cycles (01_unit_anatomy R24, Table 1.6). -/
def sendTicks : Nat := 2040

/-- The route channel a station's traffic uses (14_startup Table 14.4). -/
def State.routeOf (s : State) (n : Nat) : Nat := (if (s.stn n).servo.alt then 0x2000 else 0x1000) + n

/-- The stations whose traffic crosses the link that carries station n's: on the alternate route the neighbour's link carries both, at one
curd at a time (01_unit_anatomy R24). -/
def State.linkOf (s : State) (n : Nat) : Nat := if (s.stn n).servo.alt then s.neighbour n else n

/-- The link that carries station n's traffic is busy with a curd, of n or of a station it shares the link with. -/
def State.linkBusy (s : State) (n : Nat) : Bool :=
  s.dies.any fun m => s.linkOf m == s.linkOf n && (s.stn m).closed.any fun h => decide (s.now < h.sentAt)

/-- CURD_SEND: the oldest closed curd not sent, once every place in it is written, under a grant; one at a time over the link that carries
it (01_unit_anatomy R24, R405, 06_admission R131, R134). -/
def execCurdSend (t : Nat) (die : Fin 40) (s : State) : Host.Outcome State Fault Refusal :=
  onStn t die.val (fun s =>
    let n := die.val
    let st := s.stn n
    let g := sgetD s.jrn.grants n 0
    if g = 0 || s.isolated n || s.linkBusy n then s
    else match st.closed.find? fun h => h.st == .unsent with
      | none => s
      | some h =>
        if !h.curd.written then s
        else
          let same := fun (x : Held) => x.curd.firstSeq == h.curd.firstSeq && x.curd.rsv == h.curd.rsv
          let s := s.setStn n
            { st with
              closed := replaceFirst same (fun x => { x with st := .sent, sentAt := s.now + sendTicks, again := true }) st.closed
              link := st.link ++ [(h.curd, st.reqs)] }
          let s := { s with jrn := { s.jrn with grants := snum s.jrn.grants n (g - 1) } }
          if h.again then s.bumpAo n 47 256 else s) s

/-- The original of a curd that the journal holds. -/
def State.findJidx (s : State) (u : Nat) (rsv : Bool) (first : Nat) : Option Nat :=
  (s.jrn.mem.find? fun e => e.2.unit == u && e.2.rsv == rsv && e.2.firstSeq == first).map (·.1)

/-- A curd the hub has received and has accepted (06_admission R132). -/
def State.accepted (s : State) (u : Nat) (rsv : Bool) (first : Nat) : Bool :=
  decide (first + 1 ≤ sgetD s.jrn.recv (kindKey u rsv) 0) && !((u, rsv, first) ∈ s.jrn.dropped) &&
    !(s.jrn.pool.any fun e => e.req == u && e.curd.rsv == rsv && e.curd.firstSeq == first && e.accAt.isNone)

/-- A duplicate: its buffer frees, and its retire notice goes again if it has already gone (06_admission R132). -/
def State.duplicate (s : State) (u : Nat) (c : Curd) : State :=
  let told := s.accepted u c.rsv c.firstSeq &&
    match s.findJidx u c.rsv c.firstSeq with
    | some j => decide (j < s.jrn.delivTo)
    | none => true
  if told then { s with jrn := { s.jrn with retired := insertNew s.jrn.retired (u, c.rsv, c.firstSeq) } } else s

/-- A unit's curd begins above the number expected of it after a loss: a GAP record of cause DETECTED (05_records R128). -/
def State.detect (s : State) (u : Nat) (c : Curd) : State :=
  match sget s.jrn.expect u with
  | none => s
  | some x =>
    let s := { s with jrn := { s.jrn with expect := sdel s.jrn.expect u } }
    if c.firstSeq ≤ x then s
    else
      let src := if u < 40 then srcId u 0 0 else hubSrcId (u - 40)
      s.hubRec 0 (gapRecord { src := src, lkind := 0xF, cause := BitVec.ofNat 4 cDetected, count := c.firstSeq - x,
                              first := x, last := c.firstSeq - 1 })

/-- A curd with a good CRC enters the pool, or is a duplicate. -/
def State.enterPool (s : State) (u : Nat) (c : Curd) : State :=
  if s.isDup u c then s.duplicate u c else (s.detect u c).fillPool u c

/-- Held curds in the writer's order: ascending FIRSTSEQ (06_admission R133). -/
def byFirst (l : List (Nat × Curd)) : List (Nat × Curd) := l.mergeSort fun a b => decide (a.2.firstSeq ≤ b.2.firstSeq)

/-- A curd arrives with a good CRC. One sent before the resend request is held; the first one sent after it ends the hold. Held curds are
taken with the resent ones in ascending FIRSTSEQ of their kind: a held curd goes ahead of the first resent one that does not precede it
(06_admission R133). -/
def State.arrive (s : State) (n : Nat) (c : Curd) (reqs : Nat) : State :=
  if decide (reqs < sgetD s.jrn.crcHold n 0) then { s with jrn := { s.jrn with held := s.jrn.held ++ [(n, c)] } }
  else
    let go := fun (h : Nat × Curd) => h.1 == n && h.2.rsv == c.rsv && decide (h.2.firstSeq ≤ c.firstSeq)
    let l := byFirst (s.jrn.held.filter go)
    let s := { s with jrn := { s.jrn with held := s.jrn.held.filter (fun h => !(go h)), crcHold := sdel s.jrn.crcHold n } }
    (l.foldl (fun (s : State) h => s.enterPool n h.2) s).enterPool n c

/-- A CURD_CRC record (14_startup Table 14.8). -/
def State.curdCrc (s : State) (chan wh where_ first jidx : Nat) : State :=
  s.faultEvent fcCurdCrc chan wh where_ s.now first jidx

/-- A curd fails its CRC on a link: the hub asks for a resend, counts a channel error and holds the station's later curds. The
failure of a resend is a failed retry (05_records R124, 06_admission R133, 14_startup Table 14.4). -/
def State.crcFail (s : State) (n : Nat) (c : Curd) (reqs : Nat) : State :=
  let ch := s.routeOf n
  let again := match sget s.jrn.crcHold n with
    | some need => decide (need ≤ reqs)
    | none => false
  let k := sgetD s.jrn.reqs n 0 + 1
  let s := { s with jrn := { s.jrn with reqs := sput s.jrn.reqs n k, crcHold := sput s.jrn.crcHold n k } }
  if again then
    let s := s.retryResult ch false
    if (s.chan ch).st == chRetired then s.curdCrc ch n 0 c.firstSeq 0 else s
  else s.channelError ch

/-- CURD_RECEIVED (05_records R124, 06_admission R132, R133). -/
def execCurdReceived (t : Nat) (die : Fin 40) (crcOk : Bool) (s : State) : Host.Outcome State Fault Refusal :=
  onHub t (fun s =>
    let n := die.val
    match (s.stn n).link with
    | [] => s
    | (c, reqs) :: l =>
      let s := s.modStn n fun st => { st with link := l }
      let wasResend := (sget s.jrn.crcHold n).isSome
      let s :=
        if crcOk then
          let s := s.arrive n c reqs
          if wasResend && (sget s.jrn.crcHold n).isNone then s.retryResult (s.routeOf n) true else s
        else s.crcFail n c reqs
      s.serveWait.noteWait) s

/-- Closed curds that are not acknowledged wait to be sent again. -/
def Stn.resendAll (st : Stn) : Stn :=
  { st with closed := st.closed.map fun h => if h.st == .sent then { h with st := .unsent, resends := h.resends + 1 } else h }

/-- RESEND_REQUEST arrives at the station (05_records R124). -/
def execResendRequest (t : Nat) (die : Fin 40) (s : State) : Host.Outcome State Fault Refusal :=
  onStn t die.val (fun s =>
    let n := die.val
    if (s.stn n).reqs < sgetD s.jrn.reqs n 0 then
      s.modStn n fun st => { st.resendAll with reqs := st.reqs + 1 }
    else s) s

/-- The closed curd of a station with a kind and a FIRSTSEQ. -/
def isCurd (rsv : Bool) (first : Nat) (h : Held) : Bool := h.curd.rsv == rsv && h.curd.firstSeq == first

/-- RESEND_TIMEOUT: 20 µs after a curd's last beat it goes again; the eighth resend without acknowledgement is a channel error
(06_admission R131, 14_startup Table 14.4). -/
def execResendTimeout (t : Nat) (die : Fin 40) (rsv : Bool) (first : Nat) (s : State) : Host.Outcome State Fault Refusal :=
  onStn t die.val (fun s =>
    let n := die.val
    let due := fun (h : Held) => isCurd rsv first h && h.st == .sent && decide (h.sentAt + 20 * usT ≤ s.now)
    match (s.stn n).closed.find? due with
    | none => s
    | some h =>
      let report := decide (8 ≤ h.resends) && !h.told
      let s := s.modStn n fun st =>
        { st with closed := replaceFirst due (fun h =>
            { h with st := .unsent, resends := h.resends + 1, told := h.told || report }) st.closed }
      if report then s.channelError (s.routeOf n) else s) s

/-- ACK_RECEIVED: the hub has accepted the curd (06_admission R131, R132). -/
def execAckReceived (t : Nat) (die : Fin 40) (rsv : Bool) (first : Nat) (s : State) : Host.Outcome State Fault Refusal :=
  onStn t die.val (fun s =>
    if s.accepted die.val rsv first then
      s.modStn die.val fun st => { st with closed := replaceFirst (isCurd rsv first) (fun h => { h with st := .acked }) st.closed }
    else s) s

/-- RETIRE_NOTICE: the slot frees, and what waits for it is admitted (06_admission R133, 01_unit_anatomy R23). -/
def execRetireNotice (t : Nat) (die : Fin 40) (rsv : Bool) (first : Nat) (s : State) : Host.Outcome State Fault Refusal :=
  onStn t die.val (fun s =>
    let n := die.val
    let me := (n, rsv, first)
    if me ∈ s.jrn.retired then
      let s := { s with jrn := { s.jrn with retired := s.jrn.retired.filter (· != me) } }
      if (s.stn n).closed.any (isCurd rsv first) then
        (s.modStn n fun st => { st with closed := removeFirst (isCurd rsv first) st.closed }).slotFreed n
      else s
    else s) s

/-! ## The journal writer -/

/-- Slots of a journal copy (06_admission R139). -/
def State.nslot (s : State) : Nat := (clamp1 64 (s.rf Kx.hubJrnCfg 6 0) * 1024 - 1) * 256

/-- The oldest index held (06_admission R139). -/
def State.oldest (s : State) : Nat := s.jrn.widx - s.nslot

/-- A subscription at or below the index to be overwritten is lapped (06_admission R147). -/
def State.lapSubs (s : State) : State :=
  if s.jrn.widx < s.nslot then s
  else
    let top := s.jrn.widx - s.nslot
    let n := (s.subs.filter fun x => decide (x.cursor ≤ top)).length
    let lap := fun (x : Sub) =>
      if x.cursor ≤ top then
        { x with cursor := top + 1, next := max x.next (top + 1), lap := some ((x.lap.map (·.1)).getD x.cursor, top) }
      else x
    ({ s with subs := s.subs.map lap }).incF Kx.hubJrnStatus 31 24 n

/-- Whether sealing covers a unit (12_isolation R300). -/
def State.sealOn (s : State) (u : Nat) : Bool :=
  s.rb Kx.sealCfg 31 && if u < 32 then s.rb Kx.sealUnitsLo u else s.rb Kx.sealUnitsHi (u - 32)

/-- The journal writer fills SEALHASH and SEALED (05_records R125). -/
def State.sealCurd (s : State) (u : Nat) (c : Curd) : State × Curd :=
  if s.sealOn u then
    let h := sealLink (sgetD s.jrn.chains u 0) c
    let g := (sgetD s.jrn.gained u (0, 0)).1 + 1
    ({ s with jrn := { s.jrn with chains := sput s.jrn.chains u h, gained := sput s.jrn.gained u (g, c.firstSeq) } },
      { c with sealed := true, hash := h })
  else (s, c)

/-- A unit still has a curd, so it can arrive again. -/
def State.stillHas (s : State) (u : Nat) (rsv : Bool) (first : Nat) : Bool :=
  let is := fun (c : Curd) => c.rsv == rsv && c.firstSeq == first
  (s.jrn.pool.any fun e => e.req == u && e.jidx.isNone && is e.curd) ||
    if u < 40 then (s.stn u).closed.any (isCurd rsv first) else (s.src (u - 40)).full.any is

/-- The writer takes a pool entry: no earlier curd of its unit and kind has still to arrive again (06_admission R132, R133). -/
def State.inTurn (s : State) (e : PoolEnt) : Bool :=
  !(s.jrn.dropped.any fun d => d.1 == e.req && d.2.1 == e.curd.rsv && decide (d.2.2 < e.curd.firstSeq) && s.stillHas d.1 d.2.1 d.2.2)

/-- The slot that a curd is written to again: its own; or one whose curd no unit has any more, where no later curd of the unit stands
above it (06_admission R140, R149; log entry 38). -/
def State.holeFor (s : State) (e : PoolEnt) : Option Hole :=
  let own := fun (h : Hole) => h.unit == e.req && h.rsv == e.curd.rsv && h.first == e.curd.firstSeq
  let free := fun (h : Hole) => !(s.stillHas h.unit h.rsv h.first) && s.jrn.mem.all fun m => decide (m.1 < h.jidx) || m.2.unit != e.req
  match s.jrn.holes.find? own with
  | some h => some h
  | none => s.jrn.holes.find? free

/-- JOURNAL_TAKE: the oldest curd of a unit that the writer has not taken, for 4096 tokens (06_admission R141, R142, R147). -/
def execJournalTake (t : Nat) (u : Fin 48) (s : State) : Host.Outcome State Fault Refusal :=
  onHub t (fun s =>
    let s := s.noteBreak.refill
    let p := fun (e : PoolEnt) => e.req == u.val && e.jidx.isNone && s.inTurn e
    match s.jrn.pool.find? p with
    | none => s.noteWait
    | some e =>
      if !s.jrnOn || s.jrn.tok < curdCharge || s.budgetRate = 0 then s.noteWait
      else
        let s := if u.val < 40 then s else s.detect u.val e.curd
        let hole := s.holeFor e
        let s := if hole.isSome then s else s.lapSubs
        let (s, c) := s.sealCurd u.val e.curd
        let j := s.jrn
        let w := (hole.map (·.jidx)).getD j.widx
        let j : Jrn :=
          { j with
            widx := if hole.isSome then j.widx else w + 1
            holes := j.holes.filter (·.jidx != w)
            tok := j.tok - curdCharge
            mem := if s.nslot ≤ w then j.mem.filter (fun m => m.1 != w - s.nslot) else j.mem
            jobs := j.jobs ++ [{ jidx := w, curd := c, at_ := s.now }]
            pool := replaceFirst p (fun (e : PoolEnt) => { e with jidx := some w, curd := c }) j.pool }
        ({ s with jrn := j }).noteWait) s

/-! ## Acceptance -/

/-- Whether a curd holds a FAULT record with PINNED (01_unit_anatomy R27). -/
def curdPins (c : Curd) : Bool := c.recs.any fun r => r.ty == .fault && r.tf.getLsbD 7

/-- The next slot of an Oasis ring that is not pinned, from a slot on. -/
def oasisSlot (o : OasisRing) : Nat :=
  (((List.range 1024).map fun i => (o.next + i) % 1024).find? fun k => !(k ∈ o.pinOrder)).getD o.next

/-- Copy a curd into an Oasis ring, pinning the 16 most recent FAULT curds (01_unit_anatomy R27). -/
def OasisRing.copy (o : OasisRing) (c : Curd) : OasisRing :=
  let k := oasisSlot o
  let slots := o.slots.filter (fun e => e.1 != k)
  let o := { o with bad := o.bad.filter (· != k) }
  if curdPins c then
    let order := o.pinOrder ++ [k]
    let drop := order.take (order.length - 16)
    { o with
      slots := (slots.map fun (e : Nat × Curd × Bool) => if e.1 ∈ drop then (e.1, e.2.1, false) else e) ++ [(k, c, true)]
      pinOrder := order.drop (order.length - 16)
      next := (k + 1) % 1024 }
  else { o with slots := slots ++ [(k, c, false)], next := (k + 1) % 1024 }

/-- The Oasis of a hub. -/
def State.oasis (s : State) : HubId → OasisRing
  | .a => s.oasisA
  | .b => s.oasisB

/-- Change the Oasis of a hub. -/
def State.modOasis (s : State) (h : HubId) (f : OasisRing → OasisRing) : State :=
  match h with
  | .a => { s with oasisA := f s.oasisA }
  | .b => { s with oasisB := f s.oasisB }

/-- The active hub copies an accepted curd into its Oasis unless FREEZE is set (01_unit_anatomy R27, 14_startup R356). -/
def State.oasisCopy (s : State) (c : Curd) : State :=
  if s.rb Kx.oasCtl 31 || (s.oasis s.pair.active).clearAt == some (s.now * 3 / 16) then s
  else s.modOasis s.pair.active (·.copy c)

/-- The acceptance of a station's last CNT record of a snapshot (03_counters R78). -/
def State.snapAccept (s : State) (c : Curd) : State :=
  if 40 ≤ c.unit then s
  else
    (c.recs.filter fun r => r.ty == .cnt && r.tf.getLsbD 5 && r.tf.getLsbD 2).foldl (fun (s : State) r =>
      s.modSnap (BitVec.ofNat 32 ((r.body.getD 0 0).toNat / 2 ^ 32)) fun x => { x with acc := x.acc ||| ((1 : BitVec 40) <<< c.unit) }) s

/-- Whether every curd of a list has been accepted. -/
def State.allAccepted (s : State) (n : Nat) (l : List (Bool × Nat)) : Bool := l.all fun x => s.accepted n x.1 x.2

/-- A station's progress: the P of its latest message whose preceding curds are all accepted (07_sequence_ledger R165). -/
def State.progOf (s : State) (n : Nat) (g : Prog) : Prog :=
  let done := g.wait.filter fun m => s.allAccepted n m.2
  match done.getLast? with
  | none => g
  | some m => { g with p := max g.p m.1, wait := g.wait.filter fun x => !(s.allAccepted n x.2) }

/-- The subscription of an internal sink. -/
def State.subOf (s : State) (k : Sink) : Option Sub := s.subs.find? fun x => x.sink == k

/-- The next journal index that Churn's subscription reads. -/
def State.churnNext (s : State) : Nat := ((s.subOf .churn).map (·.next)).getD 0

/-- The index above every accepted curd. -/
def State.acceptTop (s : State) : Nat := s.jrn.acc.foldl (fun m i => max m (i + 1)) s.jrn.accTo

/-- Churn notes how far it had to have consumed as the watermark rose to where it stands; of the marks it has reached only the last
counts (09_churn R205). -/
def State.noteMark (s : State) : State :=
  if !(s.rb Kx.chnCfg 31) then s
  else
    let reached := fun (e : Nat × Nat) => decide (e.2 ≤ s.churnNext)
    let l := ((s.churn.marks.filter reached).getLast?).toList ++ s.churn.marks.filter fun e => !(reached e)
    { s with churn := { s.churn with marks := l ++ [(s.wm, s.acceptTop)] } }

/-- The watermark rises to the least progress over the watermark set; it never decreases (07_sequence_ledger R165). -/
def State.advanceWm (s : State) : State :=
  let ps := s.progs.map fun (n, g) => (n, s.progOf n g)
  let s := { s with progs := ps }
  match (ps.map fun x => x.2.p) with
  | [] => s
  | p :: l =>
    let m := l.foldl min p
    if s.wm < m then ({ s with wm := m }).noteMark else s

/-- Advance the point below which every index is accepted (06_admission R141). The fuel bounds the indexes passed. -/
def advanceTo : Nat → Nat → List Nat → Nat × List Nat
  | 0, a, l => (a, l)
  | f + 1, a, l => if a ∈ l then advanceTo f (a + 1) (l.filter (· != a)) else (a, l)

/-- Accept the curd of an index: it is in the journal, acknowledged, copied into Oasis (06_admission R141). -/
def State.accept (s : State) (w : JWrite) : State :=
  let j := s.jrn
  let (a, l) := advanceTo (j.acc.length + 1) j.accTo (w.jidx :: j.acc)
  let s :=
    { s with
      jrn :=
        { j with
          mem := j.mem ++ [(w.jidx, w.curd)]
          jobs := j.jobs.filter (·.jidx != w.jidx)
          acc := l
          accTo := a
          pool := j.pool.map fun (e : PoolEnt) => if e.jidx == some w.jidx then { e with accAt := some s.now } else e } }
  let s :=
    if w.curd.unit < 40 then s
    else
      let held := fun (r : Record) => !(w.curd.recs.any fun x => x.seq == r.seq)
      s.modSrc (w.curd.unit - 40) fun h => { h with unacc := h.unacc.filter held }
  let late := w.curd.unit < 40 && w.curd.recs.any fun r => decide (r.ft < s.wm)
  let s := if late then { s with jrn := { s.jrn with lateAt := sput s.jrn.lateAt w.jidx s.wm } } else s
  ((s.oasisCopy w.curd).snapAccept w.curd).advanceWm

/-- JOURNAL_WRITE_COMPLETE: both copies hold the curd, and the hub accepts it. A write that completes while no hub serves is found by the
scan of the hub that resumes (06_admission R140, R141). -/
def execJournalWriteComplete (t : Nat) (jidx : Nat) (s : State) : Host.Outcome State Fault Refusal :=
  onUnit t (fun s =>
    match s.jrn.jobs.find? fun w => w.jidx == jidx with
    | some w =>
      if !s.jrnCopies then s
      else if s.hubOn then s.accept w
      else { s with jrn := { s.jrn with jobs := replaceFirst (·.jidx == jidx) (fun w => { w with done := true }) s.jrn.jobs } }
    | none => s) s

/-- CURD_DELIVERY: in index order, the curd goes to the sinks' queues and its retire notice to the station
(01_unit_anatomy R30, 06_admission R141). -/
def execCurdDelivery (t : Nat) (jidx : Nat) (s : State) : Host.Outcome State Fault Refusal :=
  onHub t (fun s =>
    if jidx = s.jrn.delivTo && jidx < s.jrn.accTo then
      let s := { s with jrn := { s.jrn with delivTo := jidx + 1 } }
      match s.jrn.mem.find? fun e => e.1 == jidx with
      | some (_, c) =>
        if c.unit < 40 then { s with jrn := { s.jrn with retired := insertNew s.jrn.retired (c.unit, c.rsv, c.firstSeq) } } else s
      | none => s
    else s) s

/-- PEER_CONFIRM: the standby holds the oldest record of source k that waits; the record is admitted (06_admission R138). -/
def execPeerConfirm (t : Nat) (src : Fin 8) (s : State) : Host.Outcome State Fault Refusal :=
  onHub t (fun s =>
    match (s.src src.val).wait with
    | [] => s
    | r :: l => (s.modSrc src.val fun h => { h with wait := l }).acceptSrc src.val r) s

/-- The pacer of unit u: a station, or hub internal source u - 40 (06_admission R154). -/
def State.pacerOf (s : State) (u : Nat) : Pacer := if u < 40 then (s.stn u).pace else (s.src (u - 40)).pace

/-- What the standby holds of the active hub (01_unit_anatomy R25). -/
def State.mirrorNow (s : State) : Mirror :=
  { widx := s.jrn.widx
    recv := s.jrn.recv
    lease := s.lease
    epoch := s.plan.epoch
    snaps := s.snaps
    skim := s.skim
    subs := s.subs
    watches := s.watches
    rings := s.ctxs.map fun (c, x) =>
      (c, { fetch := x.fetch, pi := x.pi, cplPi := x.cplPi, cplCi := x.cplCi, recs := x.recs.map fun (r, y) => (r, y.pi, y.ci) })
    accs := s.jrn.mem.map fun (i, c) => (i, c.unit, c.rsv, c.firstSeq, (c.recs.map (·.seq)).foldl max c.firstSeq)
    paces := (List.range 48).map fun u => (u, s.pacerOf u) }

/-- MIRROR_UPDATE (01_unit_anatomy R25). -/
def execMirrorUpdate (t : Nat) (s : State) : Host.Outcome State Fault Refusal :=
  onHub t (fun s => if s.pair.stbyOk then { s with mirror := s.mirrorNow } else s) s

/-- REBUILD_COMPLETE (06_admission R143). -/
def execRebuildComplete (t : Nat) (s : State) : Host.Outcome State Fault Refusal :=
  onHub t (fun s => s.regained) s

/-! ## Enable -/

/-- The regions of the journal: stack, base, bytes (06_admission R139). -/
def State.jrnRegions (s : State) (v : Word) : List (Nat × Nat × Nat) :=
  let base := fun (i : Nat) => s.rd64 (Kx.hubJrnBaseLo i) (Kx.hubJrnBaseHi i)
  let size := clamp1 64 (fld v 6 0) * 2 ^ 30
  [(fld v 15 12, base 0, size), (fld v 19 16, base 1, size)] ++ if v.getLsbD 30 then [(fld v 23 20, base 2, size)] else []

/-- No two regions share a stack or overlap. The base registers hold 1 MiB aligned addresses alone. -/
def regionsOk (l : List (Nat × Nat × Nat)) : Bool :=
  (List.range l.length).all fun i => (List.range i).all fun j =>
    let a := l.getD i (0, 0, 0)
    let b := l.getD j (0, 0, 0)
    a.1 != b.1 && (decide (a.2.1 + a.2.2 ≤ b.2.1) || decide (b.2.1 + b.2.2 ≤ a.2.1))

/-- The journal starts: the bucket is full and every unit begins to offer (06_admission R142, 05_records R129). -/
def State.startJournal (s : State) : State :=
  let s := { s with jrn := { s.jrn with tok := bucketTop, tokAt := s.now, fastAt := none } }
  let s := s.hubRec 0 (mkRec .epoch (tflags [(ekStart, 6)]) 0 (epochBody s.plan.epoch s.plan.epoch s.now 0))
  s.dies.foldl (fun (s : State) n => s.startOffering n) s

/-- A write of KX_HUB_JRN_CFG (06_admission R144). -/
def State.writeJrnCfg (s : State) (p : Port) (v : Word) : State :=
  let m : Word := 0xC0FFF07F
  if s.jrnOn then s.setB Kx.hubJrnStatus 6 true
  else
    s.rwsWrite p (((s.rd Kx.hubJrnCfg ^^^ v) &&& m) != 0) fun s =>
      let v := v &&& m
      if !(v.getLsbD 31) then s.wr Kx.hubJrnCfg v
      else if regionsOk (s.jrnRegions v) then (s.wr Kx.hubJrnCfg v).startJournal
      else (s.wr Kx.hubJrnCfg (v &&& 0x7FFFFFFF)).setB Kx.hubJrnStatus 7 true

/-- JOURNAL_ENABLE: a write of KX_HUB_JRN_CFG (06_admission R144). -/
def execJournalEnable (t : Nat) (port : Port) (value : Word) (s : State) : Host.Outcome State Fault Refusal :=
  onWrite t port Kx.hubJrnCfg.off (fun s => s.notDbg port Kx.hubJrnCfg.off fun s => s.writeJrnCfg port value) s

end Sys2Proof.Machine
end

