-- ==== Sys2Proof/Machine/Skim.lean ====
section
/-!
DEFINITION. Skim: reports, predictions, lever steps, pacing and the stall budget (06_admission R151-R158, 08_tensor R202,
09_churn R207, R208, R227).
-/

namespace Sys2Proof.Machine

/-! ## Levers -/

/-- LEVER codes (06_admission Table 6.5). -/
def lvPcs : Nat := 1
def lvCnt : Nat := 2
def lvBw : Nat := 3
def lvStall : Nat := 4
def lvPace : Nat := 5
def lvBudget : Nat := 6
def lvChurn : Nat := 7
def lvTensor : Nat := 8
def lvLink : Nat := 9

/-- The levers in order; entry i is bit i of LEVERMASK. -/
def leverOrder : List Nat := [lvPcs, lvCnt, lvBw, lvChurn, lvTensor]

/-- Ticks of a Skim window (06_admission R152). -/
def skimWin : Nat := 80000

/-- The requester of Churn's internal source. -/
def uChurn : Nat := 42

/-- The bytes a lever's kind measures (06_admission Table 6.5). -/
def Offer.kind (o : Offer) (lever : Nat) : Nat :=
  if lever = lvPcs then o.pcs else if lever = lvCnt then o.cnt else if lever = lvBw then o.bw
  else if lever = lvChurn then o.hub else if lever = lvTensor then o.tw else 0

/-- The effective budget: bytes per window (06_admission R151). A rate of one 1/80,000 byte per tick is one byte per window. -/
def State.budgetWin (s : State) : Nat := s.budgetRate

/-- BW windows in force on the dies that hold a valid device port (09_churn R207). -/
def State.stationWins (s : State) : List Nat :=
  let ds := s.regs.filterMap fun (o, w) =>
    if (Kx.chnPortmap 0).off ≤ o && o < (Kx.chnPortmap 512).off && w.getLsbD 31 then some (fld w 11 6) else none
  ds.eraseDups.flatMap fun n => ((List.range 4).filter fun a => s.rb (Kx.stnBwcfg n a) 31).map fun a => s.bwWin n a

/-- The hub window for a lever 0x07 shift, in ticks: the least HWIN x 2^j that every station window divides (09_churn R207). -/
def State.hubWin (s : State) (kh : Nat) : Option Nat :=
  let h := clampN 1 60000000 (s.rf Kx.chnHbw 25 0)
  let ws := s.stationWins
  ((List.range 27).map fun j => h * 2 ^ (kh + j) * usT).find? fun w =>
    decide (w ≤ 60000000 * usT) && ws.all fun x => x != 0 && w % x == 0

/-- The hub window in force is found anew for a change at an instant; it takes effect at the first multiple of the new length
(09_churn R207). -/
def State.noteHubWin (s : State) (ft : Nat) : State :=
  let len := if s.rb Kx.chnCfg 31 && s.rb Kx.chnHbw 31 then (s.hubWin s.skim.kh).getD 0 else 0
  let c := s.churn
  if (c.hbwLens.head?.map (·.2)).getD 0 = len then s
  else
    let at_ := if len = 0 then ft else gridUp len ft
    { s with churn := { c with hbwLens := (at_, len) :: c.hbwLens, hbwAt := if c.hbwLens.isEmpty then at_ else c.hbwAt } }

/-- The setting of a lever last ordered at a unit. -/
def State.levSet (s : State) (u lever idx : Nat) : Nat :=
  let st := s.stn u
  let pend := (if u < 40 then st.levs else (s.src (u - 40)).levs) ++ (s.skim.pend.filter (·.1 == u)).map (·.2)
  match (pend.filter fun x => x.lever == lever && x.idx == idx).getLast? with
  | some x => x.new
  | none =>
    if lever = lvPcs then s.log2n u
    else if lever = lvCnt then st.levCnt
    else if lever = lvBw then sgetD st.levBw idx 0
    else if lever = lvChurn then s.skim.kh
    else if lever = lvTensor then b1 st.defer
    else if lever = lvStall then b1 st.susp
    else 0

/-- The plan's value of a lever, below which Skim never goes (03_counters R86). -/
def State.levPlan (s : State) (u lever : Nat) : Nat := if lever = lvPcs then s.planLog2n u else 0

/-- Whether a setting may be raised by one step at a unit (03_counters Table 3.17; 09_churn R208, R227; Table 6.5). -/
def State.canRaise (s : State) (u lever idx : Nat) : Bool :=
  let old := s.levSet u lever idx
  if lever = lvPcs then decide (old < 20)
  else if lever = lvCnt then
    decide (old < 10) && decide (clampN 4 1000000 (s.rf (Kx.stnCntCfg u) 19 0) * 2 ^ (old + 1) ≤ 1000000)
  else if lever = lvBw then
    let w := clampN 1 60000000 (s.rf (Kx.stnBwcfg u idx) 25 0) * 2 ^ (old + 1)
    s.rb (Kx.stnBwcfg u idx) 31 && decide (old < 10) && decide (w ≤ 60000000) &&
      match s.hubWin s.skim.kh with
      | some h => h % (w * usT) == 0
      | none => false
  else if lever = lvChurn then
    decide (old < 10) && decide (clampN 1 60000000 (s.rf Kx.chnHbw 25 0) * 2 ^ (old + 1) ≤ 60000000) &&
      ((List.range 64).filter fun i => s.rb (Kx.chnSkdef i) 31).all fun i =>
        decide (clampN 100 60000000 (s.rf (Kx.chnSkwin i) 25 0) * 2 ^ (old + 1) ≤ 60000000)
  else if lever = lvTensor then old == 0
  else false

/-- The length whose multiples a lever's change keeps to (03_counters R86, 09_churn R227). -/
def State.levGrid (s : State) (u lever idx new : Nat) : Nat :=
  if lever = lvCnt then min 1000000 (clampN 4 1000000 (s.rf (Kx.stnCntCfg u) 19 0) * 2 ^ new) * usT
  else if lever = lvBw then min 60000000 (clampN 1 60000000 (s.rf (Kx.stnBwcfg u idx) 25 0) * 2 ^ new) * usT
  else if lever = lvChurn then (s.hubWin new).getD 1
  else 1

/-- A unit that can receive a change now (06_admission R155). -/
def State.canHear (s : State) (u : Nat) : Bool := if u < 40 then s.reach u else true

/-- STN of a SKIM record (06_admission R156). -/
def skimStn (u : Nat) : Nat := if u < 40 then u else 0xFF

/-- Hold a change at the unit it has reached, after those that it holds (06_admission R155, R156). -/
def State.holdLev (s : State) (u : Nat) (x : LevPend) : State :=
  if u < 40 then s.modStn u fun st => { st with levs := st.levs ++ [x] }
  else s.modSrc (u - 40) fun h => { h with levs := h.levs ++ [x] }

/-- The latest EFFECT of the changes of a lever that a unit holds: a later change does not go before them (06_admission R156). -/
def State.heldTo (s : State) (u lever idx : Nat) : Nat :=
  (((if u < 40 then (s.stn u).levs else (s.src (u - 40)).levs).filter fun y => y.lever == lever && y.idx == idx).map (·.eff)).foldl max 0

/-- Order a setting of a lever at one unit for the window that begins at `start` (06_admission R155, R156). -/
def State.orderLev (s : State) (u lever idx new start offered budget : Nat) : State :=
  let old := s.levSet u lever idx
  let eff := gridUp (s.levGrid u lever idx new) (max start (s.heldTo u lever idx))
  let x : LevPend := { lever := lever, idx := idx, new := new, eff := eff, offered := offered, budget := budget }
  if s.canHear u then
    let s := s.holdLev u x
    if lever = lvStall then s else s.skimRec lever (skimStn u) idx old new eff offered budget
  else
    let same := fun (y : Nat × LevPend) => y.1 == u && y.2.lever == lever && y.2.idx == idx
    { s with skim := { s.skim with pend := (s.skim.pend.filter fun y => !(same y)) ++ [(u, { x with late := true })] } }

/-- Note a step of a lever just ordered at a list of places: one step for each unit, in force at the latest of its instants
(06_admission R152). -/
def State.noteSteps (s : State) (lever : Nat) (d : Int) (who : List (Nat × Nat)) (start : Nat) : State :=
  let eff := fun (u : Nat) =>
    ((who.filter fun x => x.1 == u).map fun x => gridUp (s.levGrid u lever x.2 (s.levSet u lever x.2)) start).foldl max start
  let l := (who.map (·.1)).eraseDups.map fun u => (u, lever, d, eff u)
  { s with skim := { s.skim with ordered := s.skim.ordered ++ l } }

/-- A lever change takes effect at its unit (03_counters R86). -/
def State.applyLev (s : State) (u : Nat) (x : LevPend) : State :=
  let s :=
    if x.lever = lvPcs then s.modStn u fun st => { st with levPcs := some x.new }
    else if x.lever = lvCnt then s.modStn u fun st => { st with levCnt := x.new }
    else if x.lever = lvBw then s.modStn u fun st => { st with levBw := snum st.levBw x.idx x.new }
    else if x.lever = lvStall then s.modStn u fun st => { st with susp := x.new == 1 }
    else if x.lever = lvTensor then s.modStn u fun st => { st with defer := x.new == 1 }
    else if x.lever = lvChurn then { s with skim := { s.skim with kh := x.new, khs := (x.eff, x.new) :: s.skim.khs } }
    else s
  if x.lever = lvBw || x.lever = lvChurn then s.noteHubWin s.now else s

/-- The SKIM record of a change that reached its unit late: its EFFECT is the instant of application (06_admission R155). -/
def State.lateRec (s : State) (n old : Nat) (x : LevPend) : State :=
  s.skimRec x.lever (skimStn n) x.idx old x.new x.eff x.offered x.budget

/-- The change held at unit n reaches its EFFECT instant; a late one has its SKIM record now, or once a hub serves again (03_counters R86,
06_admission R155). -/
def State.levDue (s : State) (n lever idx : Nat) : State :=
  let due := fun (x : LevPend) => x.lever == lever && x.idx == idx && decide (x.eff ≤ s.now)
  let l := if n < 40 then (s.stn n).levs else (s.src (n - 40)).levs
  match l.find? due with
  | none => s
  | some x =>
    let rest := removeFirst due l
    let s := if n < 40 then s.modStn n fun st => { st with levs := rest } else s.modSrc (n - 40) fun h => { h with levs := rest }
    let old := s.levSet n x.lever x.idx
    let s := s.applyLev n x
    let x := { x with eff := s.now }
    if !x.late then s
    else if s.hubOn then s.lateRec n old x
    else { s with skim := { s.skim with owed := s.skim.owed ++ [(n, old, x)] } }

/-- LEVER_APPLY: a station applies a change that it holds whether or not a hub is active (06_admission R152). -/
def execLeverApply (t : Nat) (u : Fin 48) (lever : BitVec 8) (idx : BitVec 8) (s : State) :
    Host.Outcome State Fault Refusal :=
  if u.val < 40 then onStn t u.val (fun s => s.levDue u.val lever.toNat idx.toNat) s
  else onHub t (fun s => s.levDue u.val lever.toNat idx.toNat) s

/-! ## Pacing -/

/-- Set pacing at a unit from its next window: an allowance, or off (06_admission R154). -/
def State.paceNext (s : State) (u : Nat) (a : Option Nat) : State :=
  let f := fun (p : Pacer) => { p with next := some a, level := a.getD p.level }
  if u < 40 then s.modStn u fun st => { st with pace := f st.pace } else s.modSrc (u - 40) fun h => { h with pace := f h.pace }

/-- Order an allowance; it waits for a unit out of reach (06_admission R155). -/
def State.orderPace (s : State) (u : Nat) (a : Option Nat) : State :=
  let rest := s.skim.allowPend.filter (·.1 != u)
  if s.canHear u then ({ s with skim := { s.skim with allowPend := rest } }).paceNext u a
  else { s with skim := { s.skim with allowPend := rest ++ [(u, a)] } }

/-- A unit's pacer at a window start: the ordered allowance, less the bytes of its closed curds not yet sent. The bucket is full
when pacing arms (06_admission R154). -/
def Pacer.window (p : Pacer) (now backlog : Nat) : Pacer :=
  let q := p.refill now
  let q := match p.next with
    | some (some a) =>
      if p.on then { q with allow := a, base := a }
      else { q with on := true, allow := a, base := a, tok := a * 8000 }
    | some none => { q with on := false }
    | none => { q with allow := p.base }
  let a := q.base - backlog
  { q with next := none, allow := a, tok := min q.tok (a * 8000), at_ := now }

/-- A unit's window ends: its report leaves and the next window's pacing begins (06_admission R152, R154). -/
def State.windowUnit (s : State) (u : Nat) : State :=
  if u < 40 then
    if s.stnOn u then
      s.modStn u fun st =>
        { st with
          offerDone := some st.offer
          offer := {}
          pace := st.pace.window s.now (4096 * (st.closed.filter fun h => h.st == .unsent).length) }
    else s
  else
    s.modSrc (u - 40) fun h =>
      { h with offerDone := some h.offer, offer := {}, pace := h.pace.window s.now (4096 * h.full.length) }

/-- SKIM_WINDOW_END: once at each multiple of 80,000 ticks (06_admission R152). -/
def execSkimWindowEnd (t : Nat) (s : State) : Host.Outcome State Fault Refusal :=
  onUnit t (fun s =>
    if s.now / skimWin = s.skim.endW then s
    else
      let s := (List.range 48).foldl (fun (s : State) u => s.windowUnit u) s
      let k := s.skim
      { s with skim := { k with endW := s.now / skimWin, paced := k.pacing, pacing := k.nextPace.getD k.pacing, nextPace := none } }) s

/-- SKIM_REPORT of a unit arrives (06_admission R152, R155). -/
def execSkimReport (t : Nat) (u : Fin 48) (s : State) : Host.Outcome State Fault Refusal :=
  onHub t (fun s =>
    let n := u.val
    let got := if n < 40 then (if s.reach n then (s.stn n).offerDone else none) else (s.src (n - 40)).offerDone
    match got with
    | none => s
    | some o =>
      let s := { s with skim := { s.skim with reports := sput s.skim.reports n o } }
      if n < 40 then s.modStn n fun st => { st with offerDone := none } else s.modSrc (n - 40) fun h => { h with offerDone := none }) s

/-! ## The decision -/

/-- A station that offers records and can be reached by some route; a hub internal source (06_admission R155). -/
def State.offers (s : State) (u : Nat) : Bool :=
  if u < 40 then s.stnOn u && (s.stn u).offering && !(s.isolated u) && 2 ≤ (s.stn u).servo.st.toNat else true

/-- The units that count, with their measured offers (06_admission R155). -/
def State.measured (s : State) : List (Nat × Offer) :=
  ((List.range 48).filter s.offers).map fun u => (u, sgetD s.skim.reports u {})

/-- Bytes after a number of steps: each halves, each lowering doubles (06_admission R152). -/
def stepBytes (b : Nat) (steps : Int) : Nat := if steps < 0 then b * 2 ^ steps.natAbs else b / 2 ^ steps.natAbs

/-- An ordered step that was not in force in the window that ended at `stop`: its instant is later, or it still waits for its unit
(06_admission R152, R155). -/
def State.notYet (s : State) (stop : Nat) (x : Nat × Nat × Int × Nat) : Bool :=
  decide (stop ≤ x.2.2.2) || s.skim.pend.any fun y => y.1 == x.1 && y.2.lever == x.2.1

/-- The predicted offer of a unit: the measured bytes with every ordered change not yet in force in the window that ended at
`stop`, and the extra steps of one lever (06_admission R152). -/
def State.predict (s : State) (stop u : Nat) (o : Offer) (extra : List (Nat × Nat × Int)) : Nat :=
  let steps := fun (lever : Nat) =>
    ((s.skim.ordered.filter fun x => x.1 == u && x.2.1 == lever && s.notYet stop x).map (·.2.2.1)).sum +
      ((extra.filter fun x => x.1 == u && x.2.1 == lever).map (·.2.2)).sum
  (leverOrder.map fun lever => stepBytes (o.kind lever) (steps lever)).sum + o.other

/-- The predicted offer of the device. -/
def State.predictAll (s : State) (stop : Nat) (extra : List (Nat × Nat × Int)) : Nat :=
  (s.measured.map fun (u, o) => s.predict stop u o extra).sum

/-- The analysis slices a lever steps at a unit; 0xFF for a lever without slices (05_records Table 5.9). -/
def levIdxs (lever : Nat) : List Nat := if lever = lvBw then [0, 1, 2, 3] else [0xFF]

/-- Where a lever can be raised: units with bytes of its kind, below its limit (06_admission R153). -/
def State.raisable (s : State) (lever : Nat) : List (Nat × Nat) :=
  (s.measured.filter fun (_, o) => 0 < o.kind lever).flatMap fun (u, _) =>
    if (lever = lvChurn) != (u = uChurn) then []
    else ((levIdxs lever).filter fun i => s.canRaise u lever i).map fun i => (u, i)

/-- Units stepped once, for the prediction. -/
def oneStep (lever : Nat) (d : Int) (who : List (Nat × Nat)) : List (Nat × Nat × Int) :=
  (who.map (·.1)).eraseDups.map fun u => (u, lever, d)

/-- Count a lever step (06_admission Table 6.6). -/
def State.countStep (s : State) : State := s.incF Kx.skmStatus 15 0 1

/-- The first lever that may be raised (06_admission R153). -/
def State.leverUp (s : State) (total : Nat) : Option (Nat × List (Nat × Nat)) :=
  (List.range 5).findSome? fun i =>
    let lever := leverOrder.getD i 0
    let bytes := (s.measured.map fun (_, o) => o.kind lever).sum
    let who := s.raisable lever
    if s.rb Kx.skmCfg i && decide (total ≤ 8 * bytes) && !who.isEmpty then some (lever, who) else none

/-- Raise a lever at a list of places. -/
def State.raiseLev (s : State) (lever : Nat) (who : List (Nat × Nat)) (start offered budget : Nat) : State :=
  let s := who.foldl (fun (s : State) (x : Nat × Nat) =>
    s.orderLev x.1 lever x.2 (s.levSet x.1 lever x.2 + 1) start offered budget) s
  let s := s.noteSteps lever 1 who start
  let r : Raise := { lever := lever, who := who }
  ({ s with skim := { s.skim with raises := s.skim.raises ++ [r] } }).countStep

/-- Whether an entry of the raise list is dropped (06_admission R153). LEVERMASK does not withdraw lever 0x08 from the read limit
(08_tensor R202). -/
def State.stale (s : State) (r : Raise) : Bool :=
  let i := (List.range 5).find? fun i => leverOrder.getD i 0 == r.lever
  (r.lever != lvTensor && !(s.rb Kx.skmCfg (i.getD 0))) || r.who.all fun x => decide (s.levSet x.1 r.lever x.2 ≤ s.levPlan x.1 r.lever)

/-- Drop the stale entries at the end of the raise list. -/
def State.dropStale : Nat → State → State
  | 0, s => s
  | f + 1, s =>
    match s.skim.raises.getLast? with
    | some r => if s.stale r then State.dropStale f { s with skim := { s.skim with raises := s.skim.raises.dropLast } } else s
    | none => s

/-- The entry to lower: the most recent; for lever 0x07 whose halved hub window some station window does not divide, the most
recent of lever 0x03 (09_churn R208). -/
def State.leverDown (s : State) : Option Raise :=
  match s.skim.raises.getLast? with
  | none => none
  | some r =>
    if r.lever = lvChurn then
      let h := clampN 1 60000000 (s.rf Kx.chnHbw 25 0) * 2 ^ (s.levSet uChurn lvChurn 0xFF - 1) * usT
      if s.stationWins.all fun w => w != 0 && h % w == 0 then some r
      else (s.skim.raises.filter fun x => x.lever == lvBw && !(s.stale x)).getLast?
    else some r

/-- Lower the levers of one entry by one step (06_admission R153). -/
def State.lowerLev (s : State) (r : Raise) (start offered budget : Nat) : State :=
  let who := r.who.filter fun x => decide (s.levPlan x.1 r.lever < s.levSet x.1 r.lever x.2)
  let s := who.foldl (fun (s : State) (x : Nat × Nat) =>
    s.orderLev x.1 r.lever x.2 (s.levSet x.1 r.lever x.2 - 1) start offered budget) s
  let s := s.noteSteps r.lever (-1) who start
  let raises := (removeFirst (fun x => x == r) s.skim.raises.reverse).reverse
  ({ s with skim := { s.skim with raises := raises, quiet := 0 } }).countStep

/-- The fair level of a max-min division: units at or below the level keep their offer, the rest share what remains
(06_admission R154). DESIGN CHOICE (log entry 56): a share that is no whole number of bytes is rounded down. -/
def fairLevel (budget : Nat) (offers : List Nat) : Nat :=
  -- offers in ascending order: the level is reached at the first offer above an equal share of what remains
  let rec go : Nat → List Nat → Nat
    | left, [] => left
    | left, o :: l => let share := left / (l.length + 1); if o < share then go (left - o) l else share
  go budget offers

/-- Divide the budget (06_admission R154). -/
def State.divide (s : State) (stop : Nat) : State :=
  let us := s.measured.map fun (u, o) => (u, s.predict stop u o [])
  let f := fairLevel s.budgetWin ((us.map (·.2)).mergeSort (· ≤ ·))
  let cap := clampN 10 100 (s.rf Kx.skmBudget 15 8) * 1600
  let s := { s with skim := { s.skim with fair := f } }
  us.foldl (fun (s : State) (x : Nat × Nat) =>
    let a := if (sget s.skim.reports x.1).isNone then f else min f x.2
    s.orderPace x.1 (some (if x.1 < 40 then min cap a else a))) s

/-- Pacing from the window that begins at `start`; a change of it has a SKIM record (06_admission R153, Table 6.5). -/
def State.setPacing (s : State) (on : Bool) (start stop offered budget : Nat) : State :=
  let was := s.skim.nextPace.getD s.skim.pacing
  let s := { s with skim := { s.skim with nextPace := some on } }
  let s := if on then s.divide stop else (List.range 48).foldl (fun (s : State) u => s.orderPace u none) s
  if was = on then s else s.skimRec lvPace 0xFF 0xFF (b1 was) (b1 on) start offered budget

/-- The stall budget of a window (06_admission R157). -/
def State.stallDecision (s : State) (start offered budget : Nat) : State :=
  let ns := min 100000 (s.rf Kx.skmStallbud 16 0)
  let sum := (s.measured.map fun (u, o) => if u < 40 then o.stall else 0).sum
  let set := fun (v : Nat) (eff : Nat) (s : State) =>
    let s := s.dies.foldl (fun (s : State) u => s.orderLev u lvStall 0xFF v eff offered budget) s
    s.skimRec lvStall 0xFF 0xFF (1 - v) v eff offered budget
  match s.skim.suspAt with
  | none =>
    if ns = 0 || ns * nsT < sum then { set 1 start s with skim := { (set 1 start s).skim with suspAt := some start } } else s
  | some a =>
    let back := gridUp skimWin (a + 100 * usT)
    if 0 < ns && back ≤ start then { set 0 start s with skim := { (set 0 start s).skim with suspAt := none, suspTo := start } } else s

/-- Stall-on-full is suspended now: from the instant a suspension takes effect to the one from which it is lifted (06_admission R157). -/
def State.suspended (s : State) : Bool := s.skim.suspAt.any (decide <| · ≤ s.now) || decide (s.now < s.skim.suspTo)

/-- Tensor reads above their share of the HBM bandwidth set lever 0x08 in every station (08_tensor R202). -/
def State.readLimit (s : State) : Nat := clamp1 100 (s.rf Kx.hubTwCfg 7 0) * s.rf Kx.skmHbmbw 15 0

/-- Tensor-read bytes of the window. -/
def State.readBytes (s : State) : Nat := (s.measured.map fun (_, o) => o.reads).sum

/-- Set lever 0x08 for tensor reads (08_tensor R202). -/
def State.readDecision (s : State) (start offered budget : Nat) : State :=
  let who := ((s.dies.filter s.offers).filter fun u => s.levSet u lvTensor 0xFF == 0).map fun u => (u, 0xFF)
  if s.readLimit < s.readBytes && !who.isEmpty then s.raiseLev lvTensor who start offered budget else s

/-- The levers and pacing after a window (06_admission R153). -/
def State.skimLevers (s : State) (stop start total : Nat) : State :=
  let b := s.budgetWin
  let off := total / 10
  let bud := b / 10
  if b < s.predictAll stop [] then
    match s.leverUp total with
    | some (lever, who) =>
      let s := s.raiseLev lever who start off bud
      s.setPacing (decide (b < s.predictAll stop [])) start stop off bud
    | none => s.setPacing true start stop off bud
  else
    let s := s.setPacing false start stop off bud
    if 10 ≤ s.skim.quiet then
      let s := State.dropStale s.skim.raises.length s
      match s.leverDown with
      | none => s
      | some r =>
        let more := oneStep r.lever (-1) (r.who.filter fun x => decide (s.levPlan x.1 r.lever < s.levSet x.1 r.lever x.2))
        if 4 * s.predictAll stop more ≤ 3 * b then s.lowerLev r start off bud else s
    else s

/-- SKIM_DECISION: 1 µs after a window, from the reports at hand; it takes effect at the start of the window after the next
(06_admission R152-R157). None is taken while the journal writer is disabled. -/
def execSkimDecision (t : Nat) (s : State) : Host.Outcome State Fault Refusal :=
  onHub t (fun s =>
    let k := s.now / skimWin
    let stop := k * skimWin
    let start := stop + skimWin
    if s.budgetRate = 0 || !s.jrnOn || k = 0 || k ≤ s.skim.window || s.now < stop + usT || s.skim.reports.isEmpty then s
    else
      let total := (s.measured.map fun (_, o) => o.total).sum
      let quiet := decide (total ≤ s.budgetWin) && !s.skim.paced && decide (s.readBytes ≤ s.readLimit)
      let live := s.skim.ordered.filter (s.notYet stop)
      let pct := if s.budgetWin = 0 then 0 else min 255 (total * 100 / s.budgetWin)
      let s := { s with skim := { s.skim with
        window := k, reports := s.skim.reports.filter fun e => s.offers e.1, ordered := live, offerPct := pct, quiet := if quiet then s.skim.quiet + 1 else 0 } }
      let s := s.skimLevers stop start total
      let s := s.readDecision start (total / 10) (s.budgetWin / 10)
      s.stallDecision start (total / 10) (s.budgetWin / 10)) s

/-- FAST_ARM: a curd has waited 1 µs for tokens; every unit takes an equal share at once (06_admission R154). DESIGN CHOICE (log entry
57): the equal share is also the level that a unit receives which begins to offer before the next division (R155). -/
def execFastArm (t : Nat) (s : State) : Host.Outcome State Fault Refusal :=
  onHub t (fun s =>
    let long := match s.jrn.fastAt with
      | some a => decide (a + usT ≤ s.now)
      | none => false
    if !long || s.skim.pacing || !s.curdWaits || curdCharge ≤ s.tokNow then s
    else
      let share := s.budgetWin / 48
      let arm := fun (p : Pacer) => { p with on := true, allow := share, base := share, tok := share * 8000, at_ := s.now, level := share }
      let s := (List.range 48).foldl (fun (s : State) u =>
        if !(s.canHear u) then s.orderPace u (some share)
        else if u < 40 then s.modStn u fun st => { st with pace := arm st.pace }
        else s.modSrc (u - 40) fun h => { h with pace := arm h.pace }) s
      let s := { s with skim := { s.skim with pacing := true, fair := share } }
      s.skimRec lvPace 0xFF 0xFF 0 1 s.now ((s.measured.map fun (_, o) => o.total).sum / 10) (s.budgetWin / 10)) s

/-- LEVER_CHANGE_DELIVERY: what waits for a unit reaches it; an allowance applies from the next window, a lever at the first
permitted instant (06_admission R155). -/
def execLeverChangeDelivery (t : Nat) (u : Fin 48) (s : State) : Host.Outcome State Fault Refusal :=
  onHub t (fun s =>
    let n := u.val
    if !(s.canHear n) then s
    else
      let mine := s.skim.pend.filter (·.1 == n)
      let allow := s.skim.allowPend.filter (·.1 == n)
      let s := { s with skim := { s.skim with pend := s.skim.pend.filter (·.1 != n), allowPend := s.skim.allowPend.filter (·.1 != n) } }
      let at_ := fun (x : Nat × LevPend) => gridUp (s.levGrid n x.2.lever x.2.idx x.2.new) (max s.now x.2.eff)
      let when_ := fun (e : Nat × Nat × Int × Nat) =>
        let l := (mine.filter fun x => e.1 == n && x.2.lever == e.2.1).map at_
        (e.1, e.2.1, e.2.2.1, l.foldl max e.2.2.2)
      let s := { s with skim := { s.skim with ordered := s.skim.ordered.map when_ } }
      let s := mine.foldl (fun (s : State) (x : Nat × LevPend) => s.holdLev n { x.2 with eff := at_ x }) s
      allow.foldl (fun (s : State) (x : Nat × Option Nat) => s.paceNext n x.2) s) s

end Sys2Proof.Machine
end

