-- ==== Sys2Proof/Machine/Sketch.lean ====
section
/-!
DEFINITION. Sketches: quantile and heavy-hitter sketches, the windows of definitions, the station streams, and the instances
an input opens (09_churn R210-R214, R227).
-/

namespace Sys2Proof.Machine

/-! ## Quantile sketches -/

/-- Items of a level that fill it (09_churn R210). -/
def skK : Nat := 5120

/-- Every second item of a list, from the first or the second. -/
def everyOther {α : Type} : Bool → List α → List α
  | _, [] => []
  | false, x :: l => x :: everyOther true l
  | true, _ :: l => everyOther false l

/-- Set an element of a list that is read with a default, growing the list as needed. -/
def setAt {α : Type} (d : α) (l : List α) (i : Nat) (x : α) : List α := (l ++ List.replicate (i + 1 - l.length) d).set i x

/-- Insert an item at level h; a full level compacts into the next, and a full level 23 sets OVER (09_churn R210). The fuel
is the number of levels from h up. -/
def Sketch.push : Nat → Sketch → Nat → Nat → Sketch
  | 0, s, _, _ => s
  | f + 1, s, h, v =>
    let l := s.lvls.getD h [] ++ [v]
    let s := { s with lvls := setAt [] s.lvls h l }
    if l.length < skK then s
    else if h = 23 then { s with over_ := true }
    else
      let par := s.pars.getD h false
      let keep := everyOther par (l.mergeSort (· ≤ ·))
      let s := keep.foldl (fun (s : Sketch) x => Sketch.push f s (h + 1) x) s
      { s with pars := setAt false s.pars h (!par), lvls := setAt [] s.lvls h [] }

/-- Push an item unless OVER is set. -/
def Sketch.take (s : Sketch) (h v : Nat) : Sketch := if s.over_ then s else Sketch.push (24 - h) s h v

/-- The least and greatest input so far, over `count` inputs. -/
def Sketch.range (s : Sketch) (n lo hi : Nat) : Sketch :=
  if n = 0 then s
  else
    { s with
      count := s.count + n
      min := if s.count = 0 then lo else Nat.min s.min lo
      max := if s.count = 0 then hi else Nat.max s.max hi }

/-- Offer an input (09_churn R210). -/
def Sketch.input (s : Sketch) (v : Nat) : Sketch :=
  let v := Nat.min v 0xFFFFFFFF
  if s.over_ then { s with count := s.count + 1 } else (s.range 1 v v).take 0 v

/-- Offer an input n times. -/
def Sketch.inputN : Nat → Sketch → Nat → Sketch
  | 0, s, _ => s
  | n + 1, s, v => Sketch.inputN n (s.input v) v

/-- Merge items by level, with their count and bounds (09_churn R210). -/
def Sketch.mergeItems (s : Sketch) (lvls : List (List Nat)) (n lo hi : Nat) : Sketch :=
  let s := if s.over_ then { s with count := s.count + n } else s.range n lo hi
  (List.range lvls.length).foldl (fun (s : Sketch) h => (lvls.getD h []).foldl (fun (s : Sketch) v => s.take h v) s) s

/-- Merge two sketches (09_churn R210). -/
def Sketch.merge (a b : Sketch) : Sketch :=
  let r := a.mergeItems b.lvls b.count b.min b.max
  { r with over_ := r.over_ || b.over_ }

/-- The retained items with their weights, in ascending order. -/
def Sketch.items (s : Sketch) : List (Nat × Nat) :=
  ((List.range s.lvls.length).flatMap fun h => (s.lvls.getD h []).map fun v => (v, 2 ^ h)).mergeSort (fun a b => a.1 ≤ b.1)

/-- The smallest item whose weighted rank reaches `want`. -/
def rankAt : List (Nat × Nat) → Nat → Nat → Nat
  | [], _, last => last
  | (v, w) :: l, want, _ => if want ≤ w then v else rankAt l (want - w) v

/-- The point at rank num / den (09_churn R210). -/
def Sketch.point (s : Sketch) (num den : Nat) : Nat :=
  let l := s.items
  let n := (l.map (·.2)).sum
  rankAt l ((num * n + den - 1) / den) 0

/-! ## Heavy hitters -/

/-- Replace the entry with the least EST, lowest position first. -/
def replaceLeast (l : List (Nat × Nat × Nat)) (key w : Nat) : List (Nat × Nat × Nat) :=
  let m := (l.map (·.2.1)).foldl min ((l.map (·.2.1)).headD 0)
  replaceFirst (fun e => e.2.1 == m) (fun e => (key, e.2.1 + w, e.2.1)) l

/-- Apply an input of weight w (09_churn R214). -/
def Hitters.input (h : Hitters) (key w : Nat) : Hitters :=
  let ents :=
    if h.ents.any (·.1 == key) then replaceFirst (·.1 == key) (fun e => (e.1, e.2.1 + w, e.2.2)) h.ents
    else if h.ents.length < 256 then h.ents ++ [(key, w, 0)]
    else replaceLeast h.ents key w
  { ents := ents, total := h.total + w }

/-- Merge by summing matching entries and keeping the 256 largest (09_churn R224). -/
def Hitters.merge (a b : Hitters) : Hitters :=
  let all := b.ents.foldl (fun (l : List (Nat × Nat × Nat)) e =>
    if l.any (·.1 == e.1) then replaceFirst (·.1 == e.1) (fun x => (x.1, x.2.1 + e.2.1, x.2.2 + e.2.2)) l else l ++ [e]) a.ents
  { ents := (all.mergeSort (fun x y => y.2.1 ≤ x.2.1)).take 256, total := a.total + b.total }

/-! ## Partitions -/

/-- The partition registers of an epoch: the present ones, or one of the 16 maps kept (12_isolation R287). -/
def State.partRegs (s : State) (epoch : BitVec 32) : Option (SMap Word) :=
  if epoch = s.plan.epoch then some s.regs else (s.plan.maps.find? fun m => m.1 == epoch).map (·.2)

/-- A register in a map of registers. -/
def regIn (m : SMap Word) (r : Reg) : Word := (sget m r.off).getD (BitVec.ofNat 32 r.rst)

/-- The partition of an engine under a map: the one its field names, if that is defined (12_isolation R286). -/
def partIn (m : SMap Word) (die tap : Nat) : Option Nat :=
  let p := fld (regIn m (Kx.stnPart die (tap / 4))) (8 * (tap % 4) + 7) (8 * (tap % 4))
  if (regIn m (Kx.secPartdef (p / 32))).getLsbD (p % 32) then some p else none

/-- The partition of an engine in an epoch (12_isolation R287). -/
def State.partOf (s : State) (epoch : BitVec 32) (die tap : Nat) : Option Nat :=
  match s.partRegs epoch with
  | some m => partIn m die tap
  | none => none

/-! ## Windows of definitions -/

/-- METRIC codes (07_sequence_ledger Table 7.8, 09_churn Tables 9.2, 9.11). -/
def mTtft : Nat := 0x0102
def mItl : Nat := 0x0103
def mRlat : Nat := 0x0200
def mPortBytes : Nat := 0x0201
def mStageTime : Nat := 0x0202
def mHotCmd : Nat := 0x0210
def mHotFlow : Nat := 0x0211
def mHotExpert : Nat := 0x0212
def mHotMark : Nat := 0x0213

/-- SCOPEKIND codes (09_churn Table 9.11). -/
def skFlow : Nat := 0
def skPart : Nat := 1
def skClass : Nat := 2
def skDie : Nat := 3
def skDevice : Nat := 4
def skNode : Nat := 5

/-- The scopes of a sketch metric (09_churn Table 9.2). -/
def metricScopes (m : Nat) : List Nat :=
  if m = mTtft || m = mItl || m = mHotFlow then [skPart, skClass, skDevice]
  else if m = mRlat then [skDie, skDevice]
  else if m = mPortBytes || m = mStageTime || m = mHotExpert then [skDevice]
  else if m = mHotCmd || m = mHotMark then [skDie, skDevice, skPart]
  else []

/-- A heavy-hitter metric (09_churn Table 9.2). -/
def isHot (m : Nat) : Bool := m == mHotCmd || m == mHotFlow || m == mHotExpert || m == mHotMark

/-- Churn runs (09_churn Table 9.14). -/
def State.chnOn (s : State) : Bool := s.rb Kx.chnCfg 31

/-- What a definition held at an instant: KX_CHN_SKDEF, SKPAR and SKWIN; the boundaries of commits keep what was before them
(09_churn R213). -/
def State.defAt (s : State) (i ft : Nat) : Word × Word × Word :=
  match (s.churn.past.filter fun p => p.i == i && decide (ft < p.till)).getLast? with
  | some p => (p.cfg, p.par, p.win)
  | none => (s.rd (Kx.chnSkdef i), s.rd (Kx.chnSkpar i), s.rd (Kx.chnSkwin i))

/-- METRIC, SCOPEKIND and PARAM of a definition at an instant. -/
def State.defMetric (s : State) (i ft : Nat) : Nat := fld (s.defAt i ft).1 15 0
def State.defScope (s : State) (i ft : Nat) : Nat := fld (s.defAt i ft).1 30 28
def State.defParam (s : State) (i ft : Nat) : Nat := fld (s.defAt i ft).2.1 31 24

/-- A definition takes inputs: enabled, with a metric of Table 9.2 and one of its scopes. -/
def State.defOn (s : State) (i ft : Nat) : Bool :=
  s.chnOn && (s.defAt i ft).1.getLsbD 31 && s.defScope i ft ∈ metricScopes (s.defMetric i ft)

/-- An enabled definition names no metric of Table 9.2: it stays disabled, and BADCFG is set (09_churn Table 9.14). -/
def State.defBad (s : State) (i : Nat) : Bool :=
  s.rb (Kx.chnSkdef i) 31 && (metricScopes (s.rf (Kx.chnSkdef i) 15 0)).isEmpty

/-- The window that contains an instant under lengths that change: each (instant, length), newest first. A change cuts the
window before it (09_churn R207). -/
def winIn : List (Nat × Nat) → Option Nat → Nat → Option (Nat × Nat)
  | [], _, _ => none
  | (e, l) :: rest, next, ft =>
    if e ≤ ft then
      if l = 0 then none
      else
        let b := gridAt l ft + l
        some (gridAt l ft, match next with | some n => min b n | none => b)
    else winIn rest (some (match next with | some n => min e n | none => e)) ft

/-- The largest shift up to kh that keeps a window of a base length within 60,000,000 µs: a window that a commit sets while kh stands
takes no more (09_churn R227; DESIGN CHOICE, log entry 66). -/
def capShift (base kh : Nat) : Nat :=
  (((List.range (kh + 1)).reverse).find? fun j => decide (base * 2 ^ j ≤ 60000000 * usT)).getD 0

/-- Lengths of windows of a base length under the lever 0x07 shifts: a change takes effect at a multiple of the new length
(09_churn R227). -/
def State.khLens (s : State) (base : Nat) : List (Nat × Nat) :=
  (s.skim.khs.map fun x => let l := base * 2 ^ capShift base x.2; (gridUp l x.1, l)) ++ [(0, base)]

/-- The window of a definition that contains an instant; its boundaries cut it (09_churn R213). -/
def State.defWin (s : State) (i ft : Nat) : Nat × Nat :=
  let base := clampN 100 60000000 (fld (s.defAt i ft).2.2 25 0) * usT
  let (a, b) := (winIn (s.khLens base) none ft).getD (ft, ft)
  (s.churn.past.filter (·.i == i)).foldl (fun (w : Nat × Nat) p =>
    if p.till ≤ ft then (max w.1 p.till, w.2) else (w.1, min w.2 p.till)) (a, b)

/-- Whether a boundary ends the window that contains an instant before its length has run (09_churn R213). -/
def State.defShort (s : State) (i ft : Nat) : Bool :=
  let base := clampN 100 60000000 (fld (s.defAt i ft).2.2 25 0) * usT
  decide ((s.defWin i ft).2 < ((winIn (s.khLens base) none ft).getD (ft, ft)).2)

/-! ## Instances -/

/-- Bits of a SKETCH record's FLAGS (09_churn Table 9.3). -/
def sfMissing : Nat := 0
def sfTakeover : Nat := 1
def sfOver : Nat := 2
def sfSkip : Nat := 3
def sfShort : Nat := 4
def sfIncomplete : Nat := 5

/-- Set a bit of a byte of flags. -/
def setFlag (w : BitVec 8) (i : Nat) : BitVec 8 := w ||| ((1 : BitVec 8) <<< i)

/-- Whether an open instance is the one of a definition, scope and window. -/
def Inst.is (x : Inst) (i scope start : Nat) : Bool := x.dfn == i && x.scope == scope && x.start == start

/-- Change the instance of a definition for a scope and the window of an instant, opening it; at 1024 open instances the n inputs are
dropped and counted (09_churn R213). A record in a closed window is dropped by the caller; after the loss of the region a window
open at the loss stays empty (R228). -/
def State.modInst (s : State) (i scope ft n : Nat) (f : Inst → Inst) : State :=
  let (a, b) := s.defWin i ft
  if s.churn.lostAt.any (a < ·) then s
  else if s.churn.insts.any (·.is i scope a) then
    { s with churn := { s.churn with insts := replaceFirst (·.is i scope a) f s.churn.insts } }
  else if 1024 ≤ s.churn.insts.length then s.incF Kx.chnStatus 31 16 n
  else
    let x : Inst :=
      { dfn := i, kind := BitVec.ofNat 3 (s.defScope i ft), scope := scope, metric := s.defMetric i ft,
        param := s.defParam i ft, start := a, stop := b }
    { s with churn := { s.churn with insts := s.churn.insts ++ [f x] } }

/-- Where an input belongs, for each scope kind: partition, class, die. -/
structure InScope where
  part : Option Nat := none
  cls  : Option Nat := none
  die  : Option Nat := none
  deriving DecidableEq, Repr

/-- SCOPEID of an input under a definition's scope; none where it has none (09_churn Table 9.11). -/
def InScope.id (w : InScope) (kind : Nat) : Option Nat :=
  if kind = skPart then w.part
  else if kind = skClass then (match w.part, w.cls with | some p, some c => some (p * 256 + c) | _, _ => none)
  else if kind = skDie then w.die
  else some 0

/-- The enabled definitions of a metric that pass a test of their parameter. -/
def State.defsOf (s : State) (metric ft : Nat) (param : Nat → Bool) : List Nat :=
  (List.range 64).filter fun i => s.defOn i ft && s.defMetric i ft == metric && param (s.defParam i ft)

/-- An instant lies in a window that Churn has closed: what bears it is late for Churn (09_churn R205). -/
def State.pastClosed (s : State) (ft : Nat) : Bool := decide (ft < s.churn.closedTo)

/-- A quantile input of a metric, n times (09_churn Table 9.2). -/
def State.skInput (s : State) (metric : Nat) (w : InScope) (ft v n : Nat) (param : Nat → Bool) : State :=
  (s.defsOf metric ft param).foldl (fun (s : State) i =>
    match w.id (s.defScope i ft) with
    | some sc => s.modInst i sc ft n fun x => { x with sk := Sketch.inputN n x.sk v }
    | none => s) s

/-- A heavy-hitter input of a metric (09_churn Table 9.2). -/
def State.hotInput (s : State) (metric : Nat) (w : InScope) (ft key n : Nat) : State :=
  (s.defsOf metric ft fun _ => true).foldl (fun (s : State) i =>
    match w.id (s.defScope i ft) with
    | some sc => s.modInst i sc ft 1 fun x => { x with hh := x.hh.input key n }
    | none => s) s

/-! ## Station streams -/

/-- The levels a station stream keeps. -/
def streamTop : Nat := 3

/-- The curds that go ahead of a message on the station link: those closed before it (09_churn R212). -/
def Stn.ahead (st : Stn) : List (Bool × Nat) := (st.closed.filter fun h => h.st != .acked).map fun h => (h.curd.rsv, h.curd.firstSeq)

/-- The end of a stream's open window: a boundary of its definition may have cut it since it opened (09_churn R212, R213). -/
def State.streamEnd (s : State) (x : SkStream) : Option Nat := x.win.map fun w => (s.defWin w.1 w.2).2

/-- Send what a stream has compacted to level 3 as a partial message (09_churn R212). -/
def State.streamSpill (s : State) (n a : Nat) : State :=
  let st := s.stn n
  let x := sgetD st.sk a {}
  let up := x.sk.lvls.getD streamTop []
  if up.isEmpty then s
  else
    let (d, w0) := x.win.getD (0, 0)
    let m : Partial :=
      { sl := a, dfn := d, start := w0, stop := (s.streamEnd x).getD 0, lvls := [[], [], [], up],
        count := x.sk.count, min := x.sk.min, max := x.sk.max, skip := x.skip, behind := st.ahead }
    let sk := { x.sk with lvls := x.sk.lvls.take streamTop, count := 0 }
    s.setStn n { st with sk := sput st.sk a { x with sk := sk, skip := false }, parts := st.parts ++ [m] }

/-- The retirement taken in a die cycle that has ended enters the stream. -/
def State.streamCommit (s : State) (n a : Nat) : State :=
  let st := s.stn n
  let x := sgetD st.sk a {}
  match x.cand with
  | none => s
  | some (_, e, lat) =>
    let x := { x with cand := none, rot := (e + 1) % 32, sk := x.sk.input lat }
    (s.setStn n { st with sk := sput st.sk a x }).streamSpill n a

/-- The boundary partial of a stream: its remaining items of levels 0 to 2 leave, and the next window opens (09_churn R212). -/
def State.streamBoundary (s : State) (n a : Nat) : State :=
  let s := s.streamCommit n a
  let st := s.stn n
  let x := sgetD st.sk a {}
  match x.win with
  | none => s
  | some (d, w0) =>
    let w1 := (s.streamEnd x).getD 0
    let m : Partial :=
      { sl := a, dfn := d, boundary := true, start := w0, stop := w1, lvls := x.sk.lvls,
        count := x.sk.count, min := x.sk.min, max := x.sk.max, skip := x.skip, behind := st.ahead }
    let y := { x with sk := { pars := x.sk.pars }, win := none, skip := false, sent := w1 }
    s.setStn n { st with sk := sput st.sk a y, parts := st.parts ++ [m] }

/-- The boundary partial of a stream that took nothing in the window that ended last: it holds no items (09_churn R212). -/
def State.streamEmpty (s : State) (n a : Nat) : State :=
  let st := s.stn n
  let x := sgetD st.sk a {}
  let d := s.rf (Kx.stnSkcfg n a) 5 0
  let b := (s.defWin d (s.stnFt n)).1
  if b ≤ x.sent then s
  else
    let m : Partial :=
      { sl := a, dfn := d, boundary := true, start := (s.defWin d (b - 1)).1, stop := b, skip := x.skip, behind := st.ahead }
    s.setStn n { st with sk := sput st.sk a { x with skip := false, sent := b }, parts := st.parts ++ [m] }

/-- Analysis slice a of station n runs a stream: enabled, and its definition measures RLAT (09_churn Table 9.14). -/
def State.streamOn (s : State) (n a : Nat) : Bool :=
  s.rb (Kx.stnSkcfg n a) 31 && s.rf (Kx.chnSkdef (s.rf (Kx.stnSkcfg n a) 5 0)) 15 0 == mRlat

/-- A retirement passes a stream's filters and is taken, or counted as skipped: one in each die cycle, in rotating engine
order (09_churn R212). -/
def State.streamTake (s : State) (n a e : Nat) (p1 : Bool) (lat : Nat) : State :=
  let c := s.rd (Kx.stnSkcfg n a)
  if !(s.streamOn n a) || !(c.getLsbD (29 + b1 p1)) || !((s.rd (Kx.stnSkmst n a)).getLsbD e) then s
  else
    let now := s.stnFt n
    let s := match s.streamEnd (sgetD (s.stn n).sk a {}) with
      | some w1 => if w1 ≤ now then s.streamBoundary n a else s
      | none => s
    let s := match (sgetD (s.stn n).sk a {}).cand with
      | some (t0, _, _) => if t0 < now then s.streamCommit n a else s
      | none => s
    let st := s.stn n
    let x := sgetD st.sk a {}
    let x := if x.win.isNone then { x with win := some (fld c 5 0, (s.defWin (fld c 5 0) now).1) } else x
    match x.cand with
    | none => s.setStn n { st with sk := sput st.sk a { x with cand := some (now, e, lat) } }
    | some (_, e0, l0) =>
      let first := (e + 32 - x.rot) % 32 < (e0 + 32 - x.rot) % 32
      let cand := if first then some (now, e, lat) else some (now, e0, l0)
      (s.setStn n { st with sk := sput st.sk a { x with cand := cand, skip := true } }).incF (Kx.stnSkstat n) 31 0 1

end Sys2Proof.Machine
end

