-- ==== Sys2Proof/Machine/Cycle.lean ====
section
/-!
DEFINITION. One die edge of a station: how the events presented on it act together (01_unit_anatomy R19-R22, 03_counters R67-R84,
04_markers R87-R105, 07_sequence_ledger R161, 08_tensor R191-R201), and the commands that present them. The commands of one edge may
come in any order; each works the edge anew from what the station held before it, so that the record numbers, the counters and the
holds are those of the edge's events and not of their order.
-/

namespace Sys2Proof.Machine

/-! ## The view of a station's taps -/

/-- The status registers that a station's taps write, and KX_HUB_MESH_STAT, which counts what the mesh root blocks. -/
def tapRegs (n : Nat) : List Reg :=
  [Kx.stnMkStat n, Kx.stnPcsStat n, Kx.stnSeqStat n, Kx.stnFlStat n, Kx.stnCntStat n, Kx.stnTwStat0 n, Kx.stnTwStat1 n, Kx.stnTwNflag n,
    Kx.stnSkstat n, Kx.hubMeshStat] ++ (List.range 10).map fun k => Kx.stnCovf n k

/-- What the taps of station n can change, as it stands. -/
def State.tapView (s : State) (n : Nat) : TapView :=
  { stn := s.stn n, regs := (tapRegs n).map s.rd, hw := (tapRegs n).map fun r => sget s.hw r.off, watches := s.watches, mesh := s.mesh
    snaps := s.snaps, snapId := s.snapId }

/-- The state with what the taps of station n can change put back. -/
def State.putView (s : State) (n : Nat) (v : TapView) : State :=
  let s := ((tapRegs n).zip v.regs).foldl (fun (s : State) x => s.wr x.1 x.2) s
  let hw := ((tapRegs n).zip v.hw).foldl (fun (m : SMap HwUpd) x =>
    match x.2 with
    | some u => sput m x.1.off u
    | none => sdel m x.1.off) s.hw
  { s.setStn n v.stn with hw := hw, watches := v.watches, mesh := v.mesh, snaps := v.snaps, snapId := v.snapId }

/-! ## The presentations of an edge -/

/-- An observation presented at an edge; with `hold`, one that a held port presents as its hold ends, by its timeout or for room. -/
structure Pres where
  op : TapOp
  hold : Option (Hold × Bool) := none
  deriving DecidableEq, Repr

/-- Port of an observation, in the order of Table 1.1 of 01_unit_anatomy, and its tap; none for what no port presents. -/
def TapOp.port : TapOp → Option (Nat × Nat)
  | .lines e _ _ _ => some (0, e)
  | .beat e _ _ _ _ => some (1, e)
  | .retire e _ _ _ _ _ => some (2, e)
  | .flow e _ _ _ _ _ => some (3, e)
  | .tag e _ _ _ _ _ _ _ => some (4, e)
  | _ => none

/-- Place of an observation in its edge: slice, port, tap, ascending (01_unit_anatomy R20). -/
def State.presKey (s : State) (n : Nat) (o : TapOp) : Nat :=
  match o.port with
  | some (p, e) => s.sliceOf n e * 1024 + p * 64 + e
  | none => 0

/-- Insert by key, after those of the same key. -/
def insertBy {α : Type} (key : α → Nat) (x : α) : List α → List α
  | [] => [x]
  | y :: l => if key x < key y then x :: y :: l else y :: insertBy key x l

/-- Sort by key; those of the same key stay in order. -/
def sortBy {α : Type} (key : α → Nat) (l : List α) : List α := l.foldl (fun m x => insertBy key x m) []

/-- What an event presents at this edge, given the ports that the edge leaves held (04_markers R97, R98). -/
def State.presOf (s : State) (n : Nat) (held : List (Nat × Bool)) (o : TapOp) : Option Pres :=
  match o with
  | .beat e _ _ _ _ => if (s.held n e false).isSome || (e, false) ∈ held then none else some { op := o }
  | .flow e _ _ _ _ _ => if (s.held n e true).isSome || (e, true) ∈ held then none else some { op := o }
  | .endHold e flow timeout =>
    match s.held n e flow with
    | none => none
    | some h =>
      if (e, flow) ∈ held || (timeout && decide (s.stnFt n < h.since + 10 * usT)) then none
      else some { op := h.op, hold := some (h, timeout) }
  | _ => if o.port.isSome then some { op := o } else none

/-- The presentations of an edge in their order. A held port presents once. -/
def State.presentations (s : State) (n : Nat) (held : List (Nat × Bool)) (ops : List TapOp) : List Pres :=
  let ps := ops.foldl (fun (l : List Pres) o =>
    match s.presOf n held o with
    | some p => if p.hold.isSome && l.any (fun q => q.hold.isSome && q.op.port == p.op.port) then l else l ++ [p]
    | none => l) []
  sortBy (fun p => s.presKey n p.op) ps

/-! ## Pass 1: what acts before the observations -/

/-- Events that come ahead of the edge's observations: queue drains (04_markers R91), arming again (R97), issues (03_counters R80), the die
clock's change (01_unit_anatomy R33), GAP records that are due (05_records R128). -/
def State.beforeObs (s : State) (n : Nat) : TapOp → State
  | .drain sl => (s.drainOne n sl).drainOne n sl
  | .rearm key => s.rearm n key
  | .issue e idx => s.noteIssue n e idx
  | .freq => s.bumpAo n 59 1
  | .gap src lk ca =>
    s.flushGaps n fun g => g.src == src && g.lkind == lk && g.cause == ca && decide (g.since + s.flush n ≤ s.stnFt n)
  | _ => s

/-! ## Pass 2: counters and comparators -/

/-- A numeric report is taken as its last beat is presented (08_tensor R194). -/
def State.reportOf (s : State) (n e : Nat) (src : BitVec 16) (data : BitVec 128) : State :=
  match (s.stn n).goesOn e src with
  | some m =>
    let d := m.beats.headD 0
    if mkCode d = 0xFFF0 && mkXb d = 1 then s.numericReport n e d data else s
  | none => s

/-- The retirement of a command: latency, the counters, and the sketch stream of its analysis slice (03_counters R80, 09_churn R212). -/
def State.seeRetire (s : State) (n e : Nat) (idx : BitVec 32) (addr : Nat) (p1 : Bool) (cyc : Nat) : State × Option Nat :=
  let lat := s.latency n e idx
  let s := match lat with
    | some _ => s.modStn n fun st => { st with issue := st.issue.filter fun x => x.1 != 16 * e + idx.toNat % 16 }
    | none => s.incF (Kx.stnPcsStat n) 15 8 1
  let s := (s.observe n e p1 (.retire idx addr (lat.getD 0) lat.isSome) cyc).bumpAo n (if p1 then 49 else 48) 1
  (match lat with | some l => s.streamTake n (s.anSlice n e) e p1 l | none => s, lat)

/-- A retirement seen at an edge, for the sampler: tap, privilege, index, list address, stall vector, latency. -/
abbrev Retired := Nat × Bool × BitVec 32 × Nat × BitVec 16 × Option Nat

/-- Counters, comparators and what else acts on presentation see one observation (03_counters R67, 04_markers R99). Answers the
retirements so far. -/
def State.see (n : Nat) (acc : State × List Retired) (p : Pres) : State × List Retired :=
  let s := acc.1
  match p.op with
  | .lines e l p1 cyc => (s.seeLines n e l p1 cyc, acc.2)
  | .retire e idx addr stall p1 cyc =>
    let (s, lat) := s.seeRetire n e idx addr p1 cyc
    (s, acc.2 ++ [(e, p1, idx, addr, stall, lat)])
  | .beat e src data p1 cyc =>
    let first := ((s.stn n).goesOn e src).isNone
    let s := s.observe n e p1 (.marker first (src.toNat % 32) (if first then mkCode data else 0)) cyc
    ((s.bumpAo n 50 1).reportOf n e src data, acc.2)
  | .flow e h c a p1 cyc => ((s.observe n e p1 (.flow h.toNat c.toNat a.toNat) cyc).bumpAo n 51 1, acc.2)
  | .tag e tid _ addr len ends p1 cyc =>
    let s := s.observe n e p1 (.tag tid.toNat addr (if ends then 0 else len)) cyc
    (if ends then s else s.bumpAo n 52 1, acc.2)
  | _ => acc

/-! ## Pass 3: the sampler -/

/-- The retirements of the edge count down in ascending engine order (03_counters R81). Answers the samples due, by tap. -/
def State.countDown (s : State) (n : Nat) (rs : List Retired) : State × List (Nat × Record) :=
  (sortBy (fun (r : Retired) => r.1) rs).foldl (fun acc r =>
    let (e, p1, idx, addr, stall, lat) := r
    let (s, due) := acc.1.sampler n e p1 idx addr stall lat
    (s, acc.2 ++ (due.map fun x => (e, x)).toList)) (s, [])

/-! ## Pass 4: admission -/

/-- What admission carries along an edge: the state, the samples due, and a port that cannot be taken at this edge. -/
structure Adm where
  s : State
  samples : List (Nat × Record) := []
  stuck : Option (Nat × Bool) := none

/-- The loss that a presentation's hold makes certain: its timeout (04_markers R97). -/
def Pres.cause (p : Pres) : Option Nat := match p.hold with | some (_, true) => some cStallTo | _ => none

/-- The end of the hold that a presentation comes from: STALLTO and the disarming at a timeout, and the STALL record (04_markers R97,
R98). -/
def State.endHoldOf (s : State) (n : Nat) (p : Pres) : State :=
  match p.hold with
  | none => s
  | some (h, timeout) => (if timeout then s.holdExpire n h else s).endHold n h timeout

/-- The port of a presentation cannot be taken at this edge: its hold begins, or goes on for want of room (04_markers R97, R98). -/
def State.stuckAt (s : State) (n : Nat) (p : Pres) (later : List (Nat × TapOp)) : Bool :=
  match p.hold with
  | some (h, timeout) => !timeout && !(s.holdRoom n h)
  | none =>
    match p.op with
    | .beat e src data p1 _ => ((s.stn n).goesOn e src).isNone && s.wouldHold n e src data p1 later
    | .flow e _ _ _ p1 _ => s.flowHolds n e p1
    | _ => false

/-- One observation is admitted, in its place in the edge's order. `rest` is what the taps present after it on the edge. -/
def State.admitObs (s : State) (n : Nat) (p : Pres) (samples : List (Nat × Record)) (rest : List TapOp) (later : List (Nat × TapOp)) :
    State :=
  let s := s.endHoldOf n p
  match p.op with
  | .retire e _ _ _ _ _ =>
    if s.pcsOpen n then (samples.filter fun x => x.1 == e).foldl (fun s x => s.admitPcs n e x.2) s else s
  | .beat e src data p1 _ =>
    match (s.stn n).goesOn e src with
    | some m => s.takeBeatMore n e m data
    | none =>
      let s := match (s.stn n).mkIn.find? fun m => m.tap == e with | some m => s.endMarker n m | none => s
      s.takeBeat0 n e src data p1 p.cause later
  | .flow e h c a p1 _ => s.takeFlow n e h c a p1 p.cause
  | .tag e tid step addr len ends _ _ =>
    if ends then s.tensorEnd n e tid step (s.stnFt n) else s.tensorBurst n e tid step addr len (s.stnFt n) rest
  | _ => s

/-- The observations of an edge are admitted in their order, up to the first that its port cannot take. -/
def admitAll (n : Nat) (later : List (Nat × TapOp)) : List Pres → Adm → Adm
  | [], a => a
  | p :: ps, a =>
    if a.s.stuckAt n p later then { a with stuck := (p.op.port.map fun x => (x.2, x.1 == 3)) }
    else admitAll n later ps { a with s := a.s.admitObs n p a.samples (ps.map (·.op)) later }

/-! ## Pass 5: what acts after the observations -/

/-- Events that come after the edge's observations: a run over age, a marker past its bound, an idle accumulation. -/
def State.afterObs (s : State) (n : Nat) : TapOp → State
  | .age i => s.ageRun n i
  | .late e => s.lateMarker n e
  | .idle w => s.idleClose n w
  | _ => s

/-- The ports that an edge leaves held begin their hold, if they were not held before. -/
def State.beginHolds (s : State) (n : Nat) (held : List (Nat × Bool)) (ops : List TapOp) : State :=
  ops.foldl (fun s o =>
    match o with
    | .beat e src data p1 cyc => if (e, false) ∈ held && (s.held n e false).isNone then s.holdMark n e src data p1 cyc else s
    | .flow e h c a p1 cyc => if (e, true) ∈ held && (s.held n e true).isNone then s.holdFlow n e h c a p1 cyc else s
    | _ => s) s

/-! ## An edge -/

/-- Carry out an edge whose ports in `held` cannot be taken. Answers a further port that cannot. The records that the station forms
itself follow those of its slices: LASTC records (08_tensor R201), CNT records (03_counters R74) and, DESIGN CHOICE (log entry 48), the
TRIG record of a transition before them. -/
def State.tryEdge (s : State) (n : Nat) (held : List (Nat × Bool)) (ops : List TapOp) (later : List (Nat × TapOp)) :
    State × Option (Nat × Bool) :=
  let ps := s.presentations n held ops
  let s := s.beginHolds n held ops
  let s := ops.foldl (fun s o => s.beforeObs n o) s
  let (s, rs) := ps.foldl (State.see n) (s, [])
  let s := match s.seqDue n with
    | some t => s.gateClose n (s.stn n).seqr.cur.toNat t (s.stnFt n)
    | none => s
  let (s, samples) := s.countDown n rs
  let a := admitAll n later ps { s := s, samples := samples }
  let s := ops.foldl (fun s o => s.afterObs n o) a.s
  let s := ((s.admitLastc n).seqStep n).admitBanks n
  (if TapOp.flush ∈ ops then s.flushStn n else s, a.stuck)

/-- Carry out an edge: ports that cannot be taken are left held, one by one. At most every presentation is. -/
def State.runEdge : Nat → State → Nat → List (Nat × Bool) → List TapOp → List (Nat × TapOp) → State
  | 0, s, n, held, ops, later => (s.tryEdge n held ops later).1
  | k + 1, s, n, held, ops, later =>
    match s.tryEdge n held ops later with
    | (r, none) => r
    | (_, some h) => State.runEdge k s n (held ++ [h]) ops later

/-- Put the clock at an instant; another one is another cycle for the registers (00_scope R12). -/
def State.atInstant (s : State) (t : Nat) : State :=
  { s with clk := { s.clk with now := t }, hw := if s.clk.now = t then s.hw else [] }

/-- Carry out events in the order of their instants, those of one instant as one edge. The fuel is their number. -/
def State.runItems : Nat → State → Nat → List (Nat × TapOp) → State
  | 0, s, _, _ => s
  | _ + 1, s, _, [] => s
  | k + 1, s, n, (t, o) :: items =>
    let same := items.takeWhile fun x => x.1 == t
    let later := items.dropWhile fun x => x.1 == t
    let ops := o :: same.map (·.2)
    State.runItems k (((s.atInstant t).startEdge n).runEdge ops.length n [] ops later) n later

/-- The edge in hand at station n, where an event of the present instant still belongs to it: nothing but the station's own taps has
changed what they see since, and the instant is the same, or a marker that may be a repeat is still arriving (log entry 12). -/
def State.window (s : State) (n : Nat) : Option TapWin :=
  (sget s.taps n).filter fun w =>
    ((w.items.getLast?.map (·.1)) == some s.now || w.aft.stn.mkIn.any fun m => m.entry.isSome) &&
      { w.aft with hw := [] } == { s.tapView n with hw := [] }

/-- Carry out events of station n from a state, and keep the edge in hand. Taps change nothing but their view. -/
def State.work (s : State) (n : Nat) (items : List (Nat × TapOp)) : State :=
  let v := (s.runItems items.length n items).tapView n
  { s.putView n v with taps := sput s.taps n { base := s.tapView n, items := items, aft := v } }

/-- Present an event to station n at the present instant. -/
def State.tap (s : State) (n : Nat) (o : TapOp) : State :=
  match s.window n with
  | none => s.work n [(s.now, o)]
  | some w => (s.putView n w.base).work n (w.items ++ [(s.now, o)])

/-- Do something to station n that comes before the observations of its present edge: a swap, a change that takes effect at an instant.
Those already presented are presented again after it. -/
def State.beforeTaps (s : State) (n : Nat) (f : State → State) : State :=
  match s.window n with
  | none => f s
  | some w =>
    if w.items.all fun x => x.1 == s.now then (f (s.putView n w.base)).work n w.items else f s

/-- A command that presents an event to station n. -/
def onTap (t n : Nat) (o : TapOp) (s : State) : Host.Outcome State Fault Refusal := onStn t n (fun s => s.tap n o) s

/-! ## The commands of the tap ports -/

/-- EVENT_LINE_SAMPLE: the event lines of a tap, and the bytes of a port tap's fields (03_counters R62, R64, R69, R79). -/
def execEventLineSample (t : Nat) (die : Fin 40) (tap : Fin 32) (lines : BitVec 64) (p1 : Bool) (cyc : Nat) (s : State) :
    Host.Outcome State Fault Refusal := onTap t die (.lines tap lines p1 cyc) s

/-- COMMAND_ISSUE: the engine's issue-table entry takes the index and the FT (03_counters R80). -/
def execCommandIssue (t : Nat) (die : Fin 40) (tap : Fin 32) (idx : BitVec 32) (s : State) :
    Host.Outcome State Fault Refusal := onTap t die (.issue tap idx) s

/-- COMMAND_RETIRE: latency lookup, counters, comparators and the sampler (03_counters R80-R84, AO48, AO49). -/
def execCommandRetire (t : Nat) (die : Fin 40) (tap : Fin 32) (idx : BitVec 32) (addr : BitVec 48) (stall : BitVec 16)
    (p1 : Bool) (cyc : Nat) (s : State) : Host.Outcome State Fault Refusal :=
  onTap t die (.retire tap idx addr.toNat stall p1 cyc) s

/-- MARKER_BEAT (04_markers R87-R98, R406). While the port is held not-ready no beat is taken. -/
def execMarkerBeat (t : Nat) (die : Fin 40) (tap : Fin 32) (src : BitVec 16) (data : BitVec 128) (p1 : Bool) (cyc : Nat)
    (s : State) : Host.Outcome State Fault Refusal := onTap t die (.beat tap src data p1 cyc) s

/-- RPT_AGE_TIMEOUT: a run reaches FIRST + RPTMAX with no further repeat (04_markers R92). -/
def execRptAgeTimeout (t : Nat) (die : Fin 40) (entry : Fin 64) (s : State) : Host.Outcome State Fault Refusal :=
  onTap t die (.age entry) s

/-- MARKER_TIMEOUT: a marker still short of beats 16 die cycles after beat 0 is ended (04_markers R406). -/
def execMarkerTimeout (t : Nat) (die : Fin 40) (tap : Fin 32) (s : State) : Host.Outcome State Fault Refusal :=
  onTap t die (.late tap) s

/-- MARKER_QUEUE_DRAIN: 2 beats of a slice's queue, in admission order (04_markers R91). -/
def execMarkerQueueDrain (t : Nat) (die : Fin 40) (slice : Fin 8) (s : State) : Host.Outcome State Fault Refusal :=
  onTap t die (.drain slice) s

/-- FLOW_EVENT (07_sequence_ledger R161; 04_markers R98 for a held port). -/
def execFlowEvent (t : Nat) (die : Fin 40) (tap : Fin 32) (handle : BitVec 21) (code : BitVec 4) (arg : BitVec 32) (p1 : Bool)
    (cyc : Nat) (s : State) : Host.Outcome State Fault Refusal := onTap t die (.flow tap handle code arg p1 cyc) s

/-- STALL_HOLD_RELEASE: there is room; the tap takes the observation and it is admitted normally (04_markers R97, R98). -/
def execStallHoldRelease (t : Nat) (die : Fin 40) (tap : Fin 32) (flow : Bool) (s : State) :
    Host.Outcome State Fault Refusal := onTap t die (.endHold tap flow false) s

/-- STALL_HOLD_TIMEOUT: 10 µs of FT have passed; the observation is taken, counted into a GAP record, STALLTO increments
and the entry or port disarms (04_markers R97, R98). -/
def execStallHoldTimeout (t : Nat) (die : Fin 40) (tap : Fin 32) (flow : Bool) (s : State) :
    Host.Outcome State Fault Refusal := onTap t die (.endHold tap flow true) s

/-- STALL_REARM: the queue of the slice at which an entry or port was disarmed has 4 free beats (04_markers R97). Keys 0-63 are funnel
entries, 64 + e flow ports. -/
def execStallRearm (t : Nat) (die : Fin 40) (key : Fin 96) (s : State) : Host.Outcome State Fault Refusal :=
  onTap t die (.rearm key) s

/-- TENSOR_TAG: the tag on a write burst (08_tensor R187, R191-R193, AO52). A burst length of 0 is an end tag. -/
def execTensorTag (t : Nat) (die : Fin 40) (tap : Fin 32) (tid : BitVec 24) (step : BitVec 32) (addr : BitVec 48)
    (len : BitVec 16) (p1 : Bool) (cyc : Nat) (s : State) : Host.Outcome State Fault Refusal :=
  onTap t die (.tag tap tid step addr.toNat len.toNat (len == 0) p1 cyc) s

/-- END_TAG: burst length 0, the bytes written in the address field (08_tensor R187, R195). -/
def execEndTag (t : Nat) (die : Fin 40) (tap : Fin 32) (tid : BitVec 24) (step : BitVec 32) (addr : BitVec 48) (p1 : Bool)
    (cyc : Nat) (s : State) : Host.Outcome State Fault Refusal :=
  onTap t die (.tag tap tid step addr.toNat 0 true p1 cyc) s

/-- ACCUM_IDLE_TIMEOUT: IDLE µs with no burst or end tag close the accumulation (08_tensor R195, Table 8.7). -/
def execAccumIdleTimeout (t : Nat) (die : Fin 40) (wid : Fin 64) (s : State) : Host.Outcome State Fault Refusal :=
  onTap t die (.idle wid) s

/-- DIE_FREQ_CHANGE: nothing is lost at a crossing; AO59 counts the change (01_unit_anatomy R33). -/
def execDieFreqChange (t : Nat) (die : Fin 40) (s : State) : Host.Outcome State Fault Refusal := onTap t die .freq s

/-! ## The station's own events -/

/-- PERIODIC_CAPTURE: the copy edge of a periodic instant (03_counters R72). -/
def execPeriodicCapture (t : Nat) (die : Fin 40) (s : State) : Host.Outcome State Fault Refusal := onTap t die .edge s

/-- AO_CAPTURE: the copy edge of an always-on instant (03_counters R72, Table 3.11). -/
def execAoCapture (t : Nat) (die : Fin 40) (s : State) : Host.Outcome State Fault Refusal := onTap t die .edge s

/-- SNAP_CAPTURE: the copy edge of a snapshot's instant (03_counters R72, R78). A station that offers no records is listed missing
(R75). -/
def execSnapCapture (t : Nat) (die : Fin 40) (id : BitVec 32) (s : State) : Host.Outcome State Fault Refusal :=
  onStn t die (fun s => if (s.stn die).snaps.any fun x => x.1 == id then s.tap die .edge else s) s

/-- SEQUENCER_TRANSITION: a die edge at which inputs that no observation brings make a transition due: a counter past VAL, a mesh event
that has arrived (04_markers R101, R103). -/
def execSequencerTransition (t : Nat) (die : Fin 40) (s : State) : Host.Outcome State Fault Refusal := onTap t die .edge s

/-- SEQ_TIMER_EXPIRY: the first die edge at or after the timer's end; done is true for one die cycle (04_markers R102). -/
def execSeqTimerExpiry (t : Nat) (die : Fin 40) (s : State) : Host.Outcome State Fault Refusal := onTap t die .edge s

/-- CURD_FLUSH_TIMEOUT of requester u (01_unit_anatomy R22). A station's close takes effect at the end of the die cycle. -/
def execCurdFlushTimeout (t : Nat) (u : Fin 48) (s : State) : Host.Outcome State Fault Refusal :=
  if u.val < 40 then onTap t u.val .flush s else onHub t (fun s => s.flushSrc (u.val - 40)) s

/-- GAP_FLUSH_TIMEOUT: a pending GAP count of requester u is a flush interval old (05_records R128). -/
def execGapFlushTimeout (t : Nat) (u : Fin 48) (src : BitVec 16) (lkind : BitVec 4) (cause : BitVec 4) (s : State) :
    Host.Outcome State Fault Refusal :=
  if u.val < 40 then onTap t u.val (.gap src lkind cause) s
  else
    onHub t (fun s => s.flushSrcGaps (u.val - 40) fun g =>
      g.src == src && g.lkind == lkind && g.cause == cause && decide (g.since + s.flushMax ≤ s.now)) s

/-- SKETCH_STREAM_BOUNDARY: at a window boundary of its definition a slice sends what its stream holds (09_churn R212). -/
def execSketchStreamBoundary (t : Nat) (die : Fin 40) (sl : Fin 4) (s : State) : Host.Outcome State Fault Refusal :=
  onStn t die (fun s =>
    let n := die.val
    match s.streamEnd (sgetD (s.stn n).sk sl.val {}) with
    | some w1 => if w1 ≤ s.stnFt n then s.streamBoundary n sl.val else s
    | none => if s.streamOn n sl.val then s.streamEmpty n sl.val else s) s

end Sys2Proof.Machine
end

