-- ==== Sys2Proof/Machine/Ledger.lean ====
section
/-!
DEFINITION. The Sequence Ledger: progress and the watermark set, the reorder buffer, flow events and refusals, eviction, the
cache, and the enable (07_sequence_ledger R159-R184).
-/

namespace Sys2Proof.Machine

/-! ## Progress -/

/-- The FT below which a station has no admitted record outside the curds already closed (07_sequence_ledger R165). -/
def State.progressP (s : State) (n : Nat) : Nat :=
  let st := s.stn n
  let p := s.stnFt n
  let p := match st.cur with
    | some c => min p c.ftBase
    | none => p
  let p := match st.rsv with
    | some c => min p c.ftBase
    | none => p
  st.gaps.foldl (fun p g => if g.due then min p g.since else p) p

/-- PROGRESS_SEND: once per flush interval (07_sequence_ledger R165). -/
def execProgressSend (t : Nat) (die : Fin 40) (s : State) : Host.Outcome State Fault Refusal :=
  onStn t die.val (fun s =>
    let n := die.val
    let st := s.stn n
    let early := match st.progAt with | some a => decide (s.stnFt n < a + s.flush n) | none => false
    if st.servo.st.toNat < 2 || early then s
    else
      let open_ := (st.closed.filter fun h => h.st != .acked).map fun h => (h.curd.rsv, h.curd.firstSeq)
      s.setStn n { st with prog := st.prog ++ [(s.progressP n, open_)], progAt := some (s.stnFt n) }) s

/-- PROGRESS_RECEIVE: the station is in the watermark set, and the watermark may rise (07_sequence_ledger R165). -/
def execProgressReceive (t : Nat) (die : Fin 40) (s : State) : Host.Outcome State Fault Refusal :=
  onHub t (fun s =>
    let n := die.val
    match (s.stn n).prog with
    | [] => s
    | m :: l =>
      if !(s.reach n) then s
      else
        let s := s.modStn n fun st => { st with prog := l }
        let g := sgetD s.progs n {}
        ({ s with progs := sput s.progs n { g with at_ := s.now, wait := g.wait ++ [m] } }).advanceWm) s

/-- SILENT, in ticks (07_sequence_ledger Table 7.7). -/
def State.silent (s : State) : Nat := clampN 10 10000 (s.rf Kx.ledTiming 15 0) * usT

/-- SILENT_TIMEOUT: the station leaves the watermark set (07_sequence_ledger R165, R170). -/
def execSilentTimeout (t : Nat) (die : Fin 40) (s : State) : Host.Outcome State Fault Refusal :=
  onHub t (fun s =>
    match sget s.progs die.val with
    | some g => if g.at_ + s.silent ≤ s.now then ({ s with progs := sdel s.progs die.val }).advanceWm else s
    | none => s) s

/-! ## The table -/

/-- Change the ledger. -/
def State.modLed (s : State) (f : Led → Led) : State := { s with led := f s.led }

/-- The table that reads are served from: copy 0, or copy 1 when copy 0 is lost (07_sequence_ledger R175). -/
def Led.table (l : Led) : SMap Flow := if l.gone0 then l.flows1 else l.flows

/-- Write a table entry, to both copies (07_sequence_ledger R175). -/
def Led.put (l : Led) (slot : Nat) (f : Flow) : Led :=
  { l with flows := if l.gone0 then l.flows else sput l.flows slot f, flows1 := if l.gone1 then l.flows1 else sput l.flows1 slot f }

/-- The slot of a handle, and its generation (07_sequence_ledger R159). -/
def slotOf (h : BitVec 21) : Nat := h.toNat % 2 ^ 20
def genOf (h : BitVec 21) : Bool := h.getLsbD 20

/-- "No flow" (07_sequence_ledger R159). -/
def noFlow : BitVec 21 := 0x1FFFFF

/-- A flow that is open (07_sequence_ledger Table 7.4). -/
def Flow.live (f : Flow) : Bool := f.st == .opened || f.st == .decode || f.st == .preempted

/-- STATE code (07_sequence_ledger Table 7.4). -/
def flowCode : FlowSt → Nat
  | .free => 0 | .opened => 1 | .decode => 2 | .preempted => 3 | .closed => 4

/-- Bits of FLAGS (07_sequence_ledger Table 7.5). -/
def ffTtftv : Nat := 7
def ffSat : Nat := 6
def ffKvneg : Nat := 5
def ffXpart : Nat := 4
def ffStale : Nat := 3
def ffLate : Nat := 2
def ffExt : Nat := 1
def ffIncomplete : Nat := 0

/-- Set a flag of a flow. -/
def Flow.flag (f : Flow) (i : Nat) : Flow := { f with flags := setFlag f.flags i }

/-- Set SAT where a value passed its top. -/
def Flow.satIf (f : Flow) (b : Bool) : Flow := if b then f.flag ffSat else f

/-- The key of a partition in the ledger's per-partition data: 256 for engines of no partition. -/
def partKey (p : Option Nat) : Nat := p.getD 256

/-- The partition key of a flow. -/
def Flow.pkey (f : Flow) : Nat := if f.noPart then 256 else f.part

/-- The flow record's words (07_sequence_ledger Table 7.3). -/
def Flow.words (f : Flow) (flags : BitVec 8) : List (BitVec 64) :=
  let itl := f.itlh.foldl (fun a (b : Nat × Nat) => a + b.2 * 2 ^ (12 * b.1)) 0
  [word64 [(f.handle.toNat, 43), (flowCode f.st, 40), (f.part, 32), (f.cls, 24), (f.odie, 18), (f.reason, 8), (flags.toNat, 0)],
   BitVec.ofNat 64 f.openFt,
   word64 [(f.lastTok, 24), (f.prompt, 0)],
   word64 [(f.ttft, 32), (f.kvCur, 14), (f.preempt, 6), (f.scale, 2)],
   word64 [(f.prefill, 42), (f.decode, 20), (f.kvPeak, 0)]] ++
    (List.range 3).map fun i => BitVec.ofNat 64 (itl / 2 ^ (64 * i))

/-- The extension record's words (07_sequence_ledger R171). -/
def Flow.extWords (f : Flow) : List (BitVec 64) :=
  (List.range 8).map fun i => word64 [(sgetD f.ext (2 * i) 0, 0), (sgetD f.ext (2 * i + 1) 0, 32)]

/-- Extension records are kept (07_sequence_ledger R171). -/
def State.ledExt (s : State) : Bool := s.rb Kx.ledCfg 30

/-- Slots of the table (07_sequence_ledger Table 7.7). -/
def State.ledCap (s : State) : Nat := 2 ^ clampN 12 20 (s.rf Kx.ledCfg 4 0)

/-! ## The cache (07_sequence_ledger R176) -/

/-- The 16 ways of a set, filled up with empty ones that a victim search takes first. -/
def CacheSet.all (c : CacheSet) : List (Option Nat × Nat × Bool) := c.ways ++ List.replicate (16 - c.ways.length) (none, 3, false)

/-- Raise every reuse value until one reads 3. -/
def ageWays : Nat → List (Option Nat × Nat × Bool) → List (Option Nat × Nat × Bool)
  | 0, l => l
  | f + 1, l => if l.any (·.2.1 == 3) then l else ageWays f (l.map fun w => (w.1, w.2.1 + 1, w.2.2))

/-- The reuse value a new entry takes, and the insertion count of the 1-in-32 rule after it. -/
def insertValue (set psel brip : Nat) (brief : Bool) : Nat × Nat :=
  let rare : Nat × Nat := if brip % 32 = 31 then (2, (brip + 1) % 32) else (3, brip + 1)
  if brief then (3, brip)
  else if set < 32 then (2, brip)
  else if set < 64 then rare
  else if psel < 512 then (2, brip) else rare

/-- Access an entry of the table through the cache: a hit, or a miss that replaces a victim; the cleaner keeps at most 1024
entries dirty. `brief` is for closed flows and entries fetched for a query. -/
def Led.touch (l : Led) (key : Nat) (dirty brief : Bool) : Led :=
  let set := key % 2048
  let ways := (sgetD l.cache set {}).all
  let hit := ways.any (·.1 == some key)
  let psel := if hit then l.psel else if set < 32 then min 1023 (l.psel + 1) else if set < 64 then l.psel - 1 else l.psel
  let (v, brip) := insertValue set l.psel l.brip brief
  let aged := ageWays 4 ways
  let gone := if hit then none else (aged.find? (·.2.1 == 3)).bind (·.1)
  let ways :=
    if hit then ways.map fun w => if w.1 == some key then (w.1, 0, w.2.2 || dirty) else w
    else replaceFirst (·.2.1 == 3) (fun _ => (some key, v, dirty)) aged
  let order := match gone with
    | some k => l.dirtyOrder.filter (· != k)
    | none => l.dirtyOrder
  let order := if dirty then insertNew order key else order
  let cache := sput l.cache set { ways := ways }
  let l := { l with cache := cache, psel := psel, brip := if hit then l.brip else brip, dirtyOrder := order }
  if order.length ≤ 1024 then l
  else
    let k := order.headD 0
    let clean := (sgetD l.cache (k % 2048) {}).all.map fun w => if w.1 == some k then (w.1, w.2.1, false) else w
    { l with dirtyOrder := order.drop 1, cache := sput l.cache (k % 2048) { ways := clean } }

/-- Access the entry of a slot to write it and, where extension records are kept, its extension entry, as OPEN and CLOSE do
(07_sequence_ledger R171, R172, R176). -/
def State.touchFlow (s : State) (l : Led) (slot : Nat) (brief : Bool) : Led :=
  let l := l.touch slot true brief
  if s.ledExt then l.touch (slot + 2 ^ 20) true brief else l

/-! ## Accumulators (07_sequence_ledger R183, 09_churn R224) -/

/-- The ledger bucket of an instant. -/
def State.bucketOf (s : State) (ft : Nat) : Nat := ft / (clampN 1 1000 (s.rf Kx.chnQcfg 9 0) * msT)

/-- Change the accumulators of a flow's partition, class and die in the bucket of an instant. -/
def State.modAccs (s : State) (f : Flow) (ft : Nat) (g : LedAcc → LedAcc) : State :=
  let b := s.bucketOf ft
  let same := fun (a : LedAcc) => a.part == f.pkey && a.cls == f.cls && a.odie == f.odie && a.bucket == b
  s.modLed fun l =>
    if l.accs.any same then { l with accs := replaceFirst same g l.accs }
    else { l with accs := l.accs ++ [g { part := f.pkey, cls := f.cls, odie := f.odie, bucket := b }] }

/-- Sums that a tenant's queries cover (07_sequence_ledger R184): all its flows, a partition's on a die, its flows on a die. -/
def kvTenant : Nat := 5
def kvPartDie : Nat := 6
def kvTenantDie : Nat := 7

/-- The scopes a flow's KV blocks count in: (SCOPEKIND, SCOPEID). -/
def Flow.scopes (f : Flow) : List (Nat × Nat) :=
  [(skPart, f.pkey), (skClass, f.pkey * 256 + f.cls), (skDie, f.odie), (skDevice, 0)] ++
    if f.noPart then [] else [(kvTenant, 0), (kvPartDie, f.part * 64 + f.odie), (kvTenantDie, f.odie)]

/-- KVCUR summed over the live flows of a scope. -/
def Led.kvSum (l : Led) (k : Nat × Nat) : Nat :=
  ((l.table.filter fun f => f.2.live && k ∈ f.2.scopes).map fun f => f.2.kvCur).sum

/-- Follow the sums of scopes that an event at `ft` may have changed. -/
def State.kvTouch (s : State) (before : Led) (ft : Nat) (ks : List (Nat × Nat)) : State :=
  let b := s.bucketOf ft
  ks.eraseDups.foldl (fun (s : State) k =>
    let old := before.kvSum k
    let new := s.led.kvSum k
    let same := fun (a : LedKv) => a.kind == k.1 && a.scope == k.2 && a.bucket == b
    s.modLed fun l =>
      if l.kvs.any same then { l with kvs := replaceFirst same (fun a => { a with peak := max a.peak new, last := new }) l.kvs }
      else if old = new then l
      else { l with kvs := l.kvs ++ [{ kind := k.1, scope := k.2, bucket := b, peak := max old new, last := new }] }) s

/-- Change the refusal counts of a partition in the bucket of an instant. -/
def State.modRefs (s : State) (p ft : Nat) (g : LedRef → LedRef) : State :=
  let b := s.bucketOf ft
  let same := fun (a : LedRef) => a.part == p && a.bucket == b
  s.modLed fun l =>
    if l.refs.any same then { l with refs := replaceFirst same g l.refs }
    else { l with refs := l.refs ++ [g { part := p, bucket := b }] }

/-! ## Losses, closes and eviction -/

/-- Raise a partition's LASTLOSS (07_sequence_ledger R173). -/
def State.loss (s : State) (p ft : Nat) : State :=
  s.modLed fun l => { l with loss := sput l.loss p (max (sgetD l.loss p 0) (ft + 1)) }

/-- A loss may have touched a flow (07_sequence_ledger R173). -/
def State.flowLost (s : State) (f : Flow) : Bool := f.openFt < sgetD s.led.loss f.pkey 0

/-- FLAGS as a summary or an answer gives them (07_sequence_ledger Table 7.5). -/
def State.flowFlags (s : State) (f : Flow) : BitVec 8 :=
  let w := if s.ledExt then setFlag f.flags ffExt else f.flags
  if s.flowLost f then setFlag w ffIncomplete else w

/-- A FLOW summary record (05_records Table 5.5, 07_sequence_ledger R172). -/
def summaryRec (f : Flow) (code arg ft : Nat) (ws : List (BitVec 64)) : Record :=
  { mkRec .flow (tflags [(1, 7)]) 0 ([word64 [(f.handle.toNat, 43), (code, 39), (arg, 0)], BitVec.ofNat 64 f.openFt] ++ ws) with
    ft := ft }

/-- Admit a summary, unless it was admitted before the takeover (07_sequence_ledger R180). -/
def State.summary (s : State) (handle openFt : Nat) (ext : Bool) (r : Record) : State :=
  let id := (handle, openFt, ext)
  if id ∈ s.led.done then s.modLed fun x => { x with done := x.done.filter (· != id) } else s.hubRec 1 r

/-- Evict the flow at the head of the queue (07_sequence_ledger R172). -/
def State.evictHead (s : State) : State :=
  match s.led.queue with
  | [] => s
  | (ft, f) :: l =>
    let s := s.modLed fun x => { x with queue := l }
    let fl := s.flowFlags f
    let s := if fl.getLsbD ffIncomplete then s.modRefs f.pkey ft fun a => { a with inc := a.inc + 1 } else s
    let s := s.summary f.handle.toNat f.openFt false (summaryRec f 8 (min (2 ^ 32 - 1) f.events) ft (f.words fl))
    if s.ledExt then
      s.summary f.handle.toNat f.openFt true { summaryRec f 7 0 ft f.extWords with own := some (0, 0, BitVec.ofNat 8 f.part) }
    else s

/-- Room of the eviction queue (07_sequence_ledger R172). -/
def queueMax : Nat := 16384

/-- Close the flow of a slot: it goes to the tail of the eviction queue (07_sequence_ledger R172). -/
def State.closeFlow (s : State) (slot ft reason : Nat) : State :=
  match sget s.led.table slot with
  | none => s
  | some f =>
    let s := if queueMax ≤ s.led.queue.length then s.evictHead else s
    let before := s.led
    let f := { f with st := .closed, reason := reason }
    let s := s.modLed fun l =>
      { ((s.touchFlow l slot true).put slot f) with
        live := snum l.live f.pkey (sgetD l.live f.pkey 0 - 1)
        queue := l.queue ++ [(ft, f)] }
    s.kvTouch before ft f.scopes

/-- Close every live flow in ascending slot order. A job restart's closes count as events of their flows, as a CLOSE does
(07_sequence_ledger R174). -/
def State.closeAll (s : State) (ft reason : Nat) : State :=
  (s.led.table.filter fun f => f.2.live).foldl (fun (s : State) (e : Nat × Flow) =>
    let s := if reason = 0xFE then s.modLed fun l => l.put e.1 { e.2 with events := e.2.events + 1 } else s
    s.closeFlow e.1 ft reason) s

/-- Evict everything in the queue. -/
def State.flushQueue (s : State) : State := (List.range s.led.queue.length).foldl (fun (s : State) _ => s.evictHead) s

/-! ## Applying an event -/

/-- Refusal causes, in the order of Table 7.6. -/
def rcLate : Nat := 0
def rcBadCode : Nat := 1
def rcRange : Nat := 2
def rcBusy : Nat := 3
def rcFull : Nat := 4
def rcOrphan : Nat := 5
def rcPostClose : Nat := 6
def rcStale : Nat := 7
def rcXpart : Nat := 8

/-- Count a refusal (07_sequence_ledger R169, Table 7.7). -/
def State.refuse (s : State) (e : FlowEv) (cause : Nat) : State :=
  let p := partKey (s.partOf e.epoch e.die e.engine)
  let s := s.modRefs p e.ft fun a => { a with causes := sadd a.causes cause 1 }
  if cause = rcLate then (s.incF Kx.ledEvstat 31 16 1).loss p e.ft
  else if cause = rcBadCode then s.incF Kx.ledRefuse1 7 0 1
  else if cause = rcRange then s.incF Kx.ledRefuse0 15 8 1
  else if cause = rcBusy then s.incF Kx.ledRefuse0 31 24 1
  else if cause = rcFull then s.incF Kx.ledRefuse0 23 16 1
  else if cause = rcOrphan then s.incF Kx.ledRefuse1 31 24 1
  else if cause = rcPostClose then s.incF Kx.ledRefuse1 23 16 1
  else if cause = rcStale then s.incF Kx.ledRefuse0 7 0 1
  else s.incF Kx.ledRefuse1 15 8 1

/-- Flow event codes (07_sequence_ledger Table 7.2). -/
def fcOpen : Nat := 0
def fcPrefill : Nat := 1
def fcToken : Nat := 2
def fcKvAlloc : Nat := 3
def fcKvFree : Nat := 4
def fcPreempt : Nat := 5
def fcResume : Nat := 6
def fcExpert : Nat := 7
def fcClose : Nat := 8
def fcClass : Nat := 9

/-- A quota applies to a partition, and its live count has reached it (07_sequence_ledger R169, Table 7.7). -/
def State.quotaFull (s : State) (p : Nat) : Bool :=
  let q := if p < 256 then s.rf (Kx.ledQuota p) 20 0 else 0
  q != 0 && decide (q ≤ s.ledCap) && decide (q ≤ sgetD s.led.live p 0)

/-- The cause under which an event is refused, if any (07_sequence_ledger Table 7.6). -/
def State.refusal (s : State) (e : FlowEv) : Option Nat :=
  let slot := slotOf e.handle
  let f := sgetD s.led.table slot {}
  let p := s.partOf e.epoch e.die e.engine
  if e.late then some rcLate
  else if fcClass < e.code.toNat then some rcBadCode
  else if s.ledCap ≤ slot then some rcRange
  else if e.code.toNat = fcOpen then
    if f.live then some rcBusy else if s.quotaFull (partKey p) then some rcFull else none
  else if f.st = .free then some rcOrphan
  else if f.st = .closed then some rcPostClose
  else if genOf f.handle != genOf e.handle then some rcStale
  else if f.pkey != partKey p then some rcXpart
  else none

/-- Subtract KV blocks (07_sequence_ledger R168). -/
def Flow.kvSub (f : Flow) (n : Nat) : Flow :=
  let f := if f.kvCur < n then f.flag ffKvneg else f
  { f with kvCur := f.kvCur - n }

/-- Add KV blocks (07_sequence_ledger R168). -/
def Flow.kvAdd (f : Flow) (n : Nat) : Flow :=
  let v := f.kvCur + n
  let f := f.satIf (decide (262143 < v))
  { f with kvCur := min 262143 v, kvPeak := max f.kvPeak (min 262143 v) }

/-- Histogram entry of the tokens d0 to d1 (07_sequence_ledger R167). The fuel bounds the halvings. -/
def histAdd : Nat → Flow → Nat → Nat → Nat → Flow
  | 0, f, _, _, _ => f
  | k + 1, f, b, d0, d1 =>
    let inc := (d1 >>> f.scale) - (d0 >>> f.scale)
    if sgetD f.itlh b 0 + inc ≤ 4095 then { f with itlh := sadd f.itlh b inc }
    else
      let half := (f.itlh.map fun x => (x.1, x.2 / 2)).filter fun x => x.2 != 0
      histAdd k { f with itlh := half, scale := f.scale + 1 } b d0 d1

/-- Bucket of a per-token gap (07_sequence_ledger R166). -/
def gapBucket (g unit : Nat) : Nat := if g < unit then 0 else min 15 (Nat.log2 (g / unit) + 1)

/-- A TOKEN event at t of n tokens: the flow after it, and, where a gap is entered, the gap and the increment of its bucket in tokens:
the increment times 2^SCALE, at the SCALE it is made with (07_sequence_ledger R166, R167, Table 7.8). -/
def Flow.token (f : Flow) (t n unit : Nat) : Flow × Option (Nat × Nat) :=
  let now := (t - f.openFt) / 64
  let d0 := f.decode
  let d1 := min 4194303 (d0 + n)
  let f := (f.satIf (decide (4194303 < d0 + n))).satIf (decide (2 ^ 40 ≤ now))
  if !(f.flags.getLsbD ffTtftv) then
    let f := (f.flag ffTtftv).satIf (decide (2 ^ 32 ≤ now))
    ({ f with decode := d1, ttft := min (2 ^ 32 - 1) now, lastTok := min (2 ^ 40 - 1) now, st := .decode }, none)
  else
    let g := (now - f.lastTok) * 64 / n
    let f := histAdd 16 { f with decode := d1 } (gapBucket g unit) d0 d1
    ({ f with lastTok := min (2 ^ 40 - 1) now, st := .decode }, some (g, ((d1 >>> f.scale) - (d0 >>> f.scale)) * 2 ^ f.scale))

/-- The histogram unit, in ticks (07_sequence_ledger R166). -/
def State.itlUnit (s : State) : Nat := 2 ^ clampN 8 24 (s.rf Kx.ledCfg 12 8)

/-- An EXPERT event counted in the extension record (07_sequence_ledger R171). -/
def State.expertExt (s : State) (f : Flow) (arg : Nat) : Flow :=
  let layer := bitsOf arg 31 24
  let mask := s.rf Kx.ledExp 23 16
  if s.ledExt && (layer &&& mask) == (s.rf Kx.ledExp 31 24 &&& mask) then
    let g := (bitsOf arg 23 12 >>> min 8 (s.rf Kx.ledExp 3 0)) % 16
    let v := sgetD f.ext g 0 + arg % 4096
    { (f.satIf (decide (2 ^ 32 ≤ v))) with ext := snum f.ext g (min (2 ^ 32 - 1) v) }
  else f

/-- What an accepted event feeds to the accumulators and to Churn's sketches (07_sequence_ledger Table 7.8, 09_churn Table 9.2). -/
def State.tokenFeeds (s : State) (f : Flow) (t n : Nat) (gap : Option (Nat × Nat)) (unit : Nat) : State :=
  let w : InScope := { part := if f.noPart then none else some f.part, cls := some f.cls }
  let s := s.modAccs f t fun a =>
    match gap with
    | none => { a with ttfts := a.ttfts ++ [t - f.openFt], decode := a.decode + n }
    | some (g, inc) =>
      { a with itl := sadd a.itl (gapBucket g unit) inc, gaps := a.gaps ++ List.replicate n g, decode := a.decode + n }
  if s.chnOn && s.pastClosed t then s.incF Kx.chnStatus 15 8 1
  else
    let s := s.hotInput mHotFlow w t f.handle.toNat n
    match gap with
    | none => s.skInput mTtft w t (t - f.openFt) 1 fun _ => true
    | some (g, _) => s.skInput mItl w t g n fun _ => true

/-- The flow an OPEN event sets up (07_sequence_ledger R169). The partition of an engine that belongs to none is not stated: a
free value. -/
def State.openFlow (s : State) (e : FlowEv) : Flow :=
  let p := s.partOf e.epoch e.die e.engine
  { handle := e.handle, st := .opened, part := p.getD ((Config.freeValue s.free).toNat % 256), noPart := p.isNone, cls := bitsOf e.arg.toNat 31 24, odie := e.die,
    openFt := e.ft, prompt := bitsOf e.arg.toNat 21 0, events := 1 }

/-- Apply an event that is not refused, other than OPEN and CLOSE, to its flow (07_sequence_ledger Table 7.2). -/
def State.flowEffect (s : State) (f : Flow) (e : FlowEv) : Flow × Option (Nat × Nat) :=
  let arg := e.arg.toNat
  let c := e.code.toNat
  if c = fcPrefill then ({ (f.satIf (decide (4194303 < f.prefill + arg))) with prefill := min 4194303 (f.prefill + arg) }, none)
  else if c = fcToken then f.token e.ft (max 1 arg) s.itlUnit
  else if c = fcKvAlloc then (f.kvAdd arg, none)
  else if c = fcKvFree then (f.kvSub arg, none)
  else if c = fcPreempt then
    let f := (f.kvSub arg).satIf (decide (255 < f.preempt + 1))
    ({ f with preempt := min 255 (f.preempt + 1), st := .preempted }, none)
  else if c = fcResume then
    let g := f.kvAdd arg
    (if f.st = .preempted then { g with st := if f.flags.getLsbD ffTtftv then .decode else .opened } else g, none)
  else if c = fcExpert then (s.expertExt f arg, none)
  else if c = fcClass then ({ f with cls := bitsOf arg 31 24 }, none)
  else (f, none)

/-- Set a flag of the live flow of an event's slot, where `p` holds of it. -/
def State.flagLive (s : State) (e : FlowEv) (i : Nat) (p : Flow → Bool) : State :=
  let slot := slotOf e.handle
  match sget s.led.table slot with
  | some f => if f.live && p f then s.modLed fun l => l.put slot (f.flag i) else s
  | none => s

/-- Apply a released event (07_sequence_ledger R163-R172). -/
def State.applyFlow (s : State) (e : FlowEv) : State :=
  if e.handle = noFlow then s
  else
    let slot := slotOf e.handle
    match s.refusal e with
    | some c =>
      let s := s.refuse e c
      if c = rcLate then s.flagLive e ffLate fun f => f.handle == e.handle
      else if c = rcStale then s.flagLive e ffStale fun _ => true
      else if c = rcXpart then s.flagLive e ffXpart fun _ => true
      else s
    | none =>
      let c := e.code.toNat
      if c = fcOpen then
        let f := s.openFlow e
        let s := if f.noPart then { s with free := s.free + 1 } else s
        let s := s.modLed fun l =>
          { ((s.touchFlow l slot false).put slot f) with live := sadd l.live f.pkey 1 }
        s.modAccs f e.ft fun a => { a with prompt := a.prompt + f.prompt }
      else
        let f0 := sgetD s.led.table slot {}
        let f0 := { f0 with events := f0.events + 1 }
        if c = fcClose then
          let s := s.modLed fun l => l.put slot f0
          s.closeFlow slot e.ft (min 0xFC (e.arg.toNat % 256))
        else
          let before := s.led
          let (f, gap) := s.flowEffect f0 e
          let s := s.modLed fun l => (l.touch slot true false).put slot f
          let s := if c = fcExpert && s.ledExt then s.modLed fun l => l.touch (slot + 2 ^ 20) true false else s
          let s := s.kvTouch before e.ft (f0.scopes ++ f.scopes)
          if c = fcToken then s.tokenFeeds f e.ft (max 1 e.arg.toNat) gap s.itlUnit
          else if c = fcPrefill then s.modAccs f e.ft fun a => { a with prefill := a.prefill + e.arg.toNat }
          else if c = fcPreempt then s.modAccs f e.ft fun a => { a with preempts := a.preempts + 1 }
          else s

/-! ## The reorder buffer -/

/-- The order of keys: timestamp, die, station sequence number (07_sequence_ledger R165). -/
def keyLt (a b : Nat × Nat × Nat) : Bool :=
  decide (a.1 < b.1) || (a.1 == b.1 && (decide (a.2.1 < b.2.1) || (a.2.1 == b.2.1 && decide (a.2.2 < b.2.2))))

/-- The key of an event. -/
def FlowEv.key (e : FlowEv) : Nat × Nat × Nat := (e.ft, e.die, e.seq)

/-- Insert into the buffer in key order. -/
def insertEv (e : FlowEv) : List FlowEv → List FlowEv
  | [] => [e]
  | x :: l => if keyLt e.key x.key then e :: x :: l else x :: insertEv e l

/-- Room of the reorder buffer (07_sequence_ledger R170). -/
def bufMax : Nat := 32768

/-- The greater of a key and one that may be there. -/
def keyMax (k : Nat × Nat × Nat) (o : Option (Nat × Nat × Nat)) : Nat × Nat × Nat :=
  match o with
  | some x => if keyLt k x then x else k
  | none => k

/-- Release the least record; a forced release passes its key for good (07_sequence_ledger R169, R170). -/
def State.releaseLeast (s : State) (forced : Bool) : State :=
  match s.led.buf with
  | [] => s
  | e :: l =>
    let s := s.modLed fun x => { x with buf := l, forcedTo := if forced then some (keyMax e.key x.forcedTo) else x.forcedTo }
    let s := if forced then s.incF Kx.ledEvstat 15 0 1 else s
    s.applyFlow e

/-- Put an event into the buffer; a full one forces a release first (07_sequence_ledger R169, R170). -/
def State.bufferEv (s : State) (e : FlowEv) : State :=
  let s := if bufMax ≤ s.led.buf.length then s.releaseLeast true else s
  let passed := match s.led.forcedTo with
    | some k => !(keyLt k e.key)
    | none => false
  let e := { e with late := e.late || passed }
  s.modLed fun l => { l with buf := insertEv e l.buf }

/-- The flow event of a FLOW record of a station's curd. -/
def flowOf (c : Curd) (jidx : Nat) (late : Bool) (r : Record) : FlowEv :=
  let w := (r.body.getD 0 0).toNat
  { ft := r.ft, die := c.unit, seq := r.seq, engine := r.tf.toNat % 32, p1 := r.tf.getLsbD 6,
    handle := BitVec.ofNat 21 (w / 2 ^ 43), code := BitVec.ofNat 4 (w / 2 ^ 39), arg := BitVec.ofNat 32 w,
    epoch := c.epoch, jidx := jidx, late := late }

/-- SRC, LKIND and CAUSE of a GAP record. -/
def gapSrc (r : Record) : Nat := (r.body.getD 0 0).toNat / 2 ^ 48
def gapCause (r : Record) : Nat := bitsOf (r.body.getD 0 0).toNat 47 44
def gapKind (r : Record) : Nat := r.tf.toNat % 16
def gapCount (r : Record) : Nat := (r.body.getD 0 0).toNat % 2 ^ 40

/-- A loss an accepted GAP record tells of (07_sequence_ledger R173). -/
def State.gapLoss (s : State) (c : Curd) (r : Record) : State :=
  let die := gapSrc r / 1024
  let eng := gapSrc r / 32 % 32
  if gapKind r = 2 then s.loss (partKey (s.partOf c.epoch die eng)) r.ft
  else if gapKind r = 0xF && gapCause r = cDetected && die < 40 then
    (((List.range 32).map fun e => partKey (s.partOf c.epoch die e)).eraseDups).foldl (fun (s : State) p => s.loss p r.ft) s
  else s

/-- KIND and BFT of an EPOCH record. -/
def epochKind (r : Record) : Nat := r.tf.toNat / 64
def epochBft (r : Record) : Nat := (r.body.getD 1 0).toNat

/-- The ledger takes one record of an accepted curd (07_sequence_ledger R178). In a replay it keeps records at or above Wc
(R180), and learns the job-restart boundaries again. -/
def State.ledgerRec (s : State) (jidx : Nat) (c : Curd) (late : Option Nat) (r : Record) : State :=
  let replay := decide (jidx < s.led.skipTo)
  if replay && r.ft < s.led.wc then s
  else if r.ty == .flow && c.unit < 40 then
    s.bufferEv (flowOf c jidx (match late with | some w => decide (r.ft < w) | none => false) r)
  else if r.ty == .gap && (c.unit ≤ 40) then s.gapLoss c r
  else if r.ty == .epoch && s.led.catchup && epochKind r == ekRestart && s.led.wc ≤ epochBft r then
    s.modLed fun l => { l with closeAt := insertNew l.closeAt (epochBft r) }
  else s

/-- Change a subscription. -/
def State.modSub (s : State) (k : Sink) (f : Sub → Sub) : State := { s with subs := replaceFirst (fun x => x.sink == k) f s.subs }

/-- The ledger runs (07_sequence_ledger Table 7.7). -/
def State.ledOn (s : State) : Bool := s.rb Kx.ledCfg 31

/-- LEDGER_INGEST: the next accepted curd; a lapped subscription marks every partition first (07_sequence_ledger R178). -/
def execLedgerIngest (t : Nat) (s : State) : Host.Outcome State Fault Refusal :=
  onHub t (fun s =>
    match s.subOf .ledger with
    | none => s
    | some x =>
      if !s.ledOn || s.jrn.accTo ≤ x.next then s
      else
        let s := if x.lap.isSome then
            let s := (s.setB Kx.ledStatus 7 true).modSub .ledger fun x => { x with lap := none }
            (List.range 257).foldl (fun (s : State) p => s.loss p (s.wm)) s
          else s
        let j := x.next
        let s := s.modSub .ledger fun x => { x with next := j + 1, cursor := j + 1 }
        match s.jrn.mem.find? fun e => e.1 == j with
        | some (_, c) => c.recs.foldl (fun (s : State) r => s.ledgerRec j c (sget s.jrn.lateAt j) r) s
        | none => s) s

/-- No accepted curd the subscription has not read holds a FLOW record before a key. -/
def State.noEarlier (s : State) (next : Nat) (k : Nat × Nat × Nat) : Bool :=
  s.jrn.mem.all fun e => decide (e.1 < next) || decide (40 ≤ e.2.unit) ||
    e.2.recs.all fun r => r.ty != .flow || !(keyLt (r.ft, e.2.unit, r.seq) k)

/-- The job-restart closes that are due before the least event in the buffer (07_sequence_ledger R174). -/
def State.restartDue (s : State) : Option Nat :=
  match s.led.closeAt with
  | b :: _ => if b < s.wm && (s.led.buf.all fun e => decide (b ≤ e.ft)) then some b else none
  | [] => none

/-- EVENT_RELEASE: the least record whose timestamp the watermark has passed, or the closes of a job restart
(07_sequence_ledger R165, R174). -/
def execEventRelease (t : Nat) (s : State) : Host.Outcome State Fault Refusal :=
  onHub t (fun s =>
    let next := ((s.subOf .ledger).map (·.next)).getD 0
    if !s.ledOn then s
    else match s.restartDue with
      | some b =>
        if s.noEarlier next (b, 0, 0) then (s.modLed fun l => { l with closeAt := l.closeAt.drop 1 }).closeAll b 0xFE else s
      | none =>
        match s.led.buf with
        | [] => s
        | e :: _ => if e.ft < s.wm && s.noEarlier next e.key then s.releaseLeast false else s) s

/-- EVICTDELAY, in ticks (07_sequence_ledger Table 7.7). -/
def State.evictDelay (s : State) : Nat := clampN 50 10000 (s.rf Kx.ledTiming 31 16) * usT

/-- FLOW_EVICT (07_sequence_ledger R172). -/
def execFlowEvict (t : Nat) (s : State) : Host.Outcome State Fault Refusal :=
  onHub t (fun s =>
    match s.led.queue with
    | [] => s
    | (ft, _) :: _ => if s.ledOn && ft + s.evictDelay < s.wm then s.evictHead else s) s

/-- LEDGER_CATCHUP_DONE: the replay has reached the newest accepted index; live flows whose summary was already admitted are
freed (07_sequence_ledger R180). -/
def execLedgerCatchupDone (t : Nat) (s : State) : Host.Outcome State Fault Refusal :=
  onHub t (fun s =>
    let next := ((s.subOf .ledger).map (·.next)).getD 0
    if !s.led.catchup || next < s.jrn.accTo then s
    else
      let gone := s.led.table.filter fun f => f.2.live && (f.2.handle.toNat, f.2.openFt, false) ∈ s.led.done
      let s := s.modLed fun l => { l with catchup := false }
      gone.foldl (fun (s : State) f => s.modLed fun l =>
        { (l.put f.1 { f.2 with st := .closed }) with
          live := snum l.live f.2.pkey (sgetD l.live f.2.pkey 0 - 1)
          done := l.done.filter fun d => (d.1, d.2.1) != (f.2.handle.toNat, f.2.openFt) }) s) s

/-! ## Enable and disable -/

/-- Bytes of a ledger copy (07_sequence_ledger R175). -/
def ledBytes (v : Word) : Nat :=
  2 * 2 ^ 20 + 2 ^ clampN 12 20 (fld v 4 0) * 64 * (if v.getLsbD 30 then 2 else 1)

/-- Two regions share no byte. -/
def apart (a b : Nat × Nat) : Bool := decide (a.1 + a.2 ≤ b.1) || decide (b.1 + b.2 ≤ a.1)

/-- The ledger regions a configuration names: base and bytes. -/
def State.ledRegions (s : State) (v : Word) : List (Nat × Nat) :=
  (List.range 2).map fun i => (s.rd64 (Kx.ledBaseLo i) (Kx.ledBaseHi i), ledBytes v)

/-- The checks of an enable (07_sequence_ledger R182). -/
def State.ledCheck (s : State) (v : Word) : Bool :=
  let rs := s.ledRegions v
  let js := (s.jrnRegions (s.rd Kx.hubJrnCfg)).map (·.2)
  s.jrnOn && fld v 19 16 != fld v 23 20 && apart (rs.getD 0 (0, 0)) (rs.getD 1 (0, 0)) && rs.all fun r => js.all fun j => apart r j

/-- Every unit and every type the ledger's subscription selects (07_sequence_ledger R178). -/
def ledgerArgs : SubArgs := { units := 0x1FFFFFFFFFF, types := 0x3800 }

/-- Start a subscription of an internal sink at NOW. -/
def State.startSub (s : State) (k : Sink) (a : SubArgs) : State :=
  { s with subs := s.subs.filter (fun x => x.sink != k) ++ [{ sink := k, args := a, cursor := s.jrn.widx, next := s.jrn.widx }] }

/-- A write of KX_LED_CFG (07_sequence_ledger R174, R182). -/
def State.writeLedCfg (s : State) (p : Port) (v : Word) : State :=
  let m : Word := 0xC0FF1F1F
  let v := v &&& m
  if s.ledOn && v.getLsbD 31 then s.setB Kx.ledStatus 5 true
  else
    s.rwsWrite p ((s.rd Kx.ledCfg ^^^ v) &&& m != 0) fun s =>
      if s.ledOn then
        let s := (s.closeAll s.now 0xFD).flushQueue
        let s := { s with led := {}, subs := s.subs.filter fun x => x.sink != Sink.ledger }
        s.wr Kx.ledCfg v
      else if !(v.getLsbD 31) then s.wr Kx.ledCfg v
      else if s.ledCheck v then
        let k : LedCkpt := { wm := s.wm, jc := s.jrn.widx, jr := s.jrn.widx, seq := (s.src 1).seq }
        let gone0 := s.stackOut (fld v 19 16)
        let gone1 := s.stackOut (fld v 23 20)
        let l : Led := {
          since := s.now, gone0 := gone0, gone1 := gone1, ckpt := if gone0 then none else some k
          ckpt1 := if gone1 then none else some k }
        ({ (s.wr Kx.ledCfg v) with led := l }).startSub .ledger ledgerArgs
      else (s.wr Kx.ledCfg (v &&& 0x7FFFFFFF)).setB Kx.ledStatus 6 true

/-- LEDGER_ENABLE (07_sequence_ledger R182). -/
def execLedgerEnable (t : Nat) (port : Port) (value : Word) (s : State) : Host.Outcome State Fault Refusal :=
  onWrite t port Kx.ledCfg.off (fun s => s.notDbg port Kx.ledCfg.off fun s => s.writeLedCfg port value) s

/-- LEDGER_DISABLE (07_sequence_ledger R174). -/
def execLedgerDisable (t : Nat) (port : Port) (value : Word) (s : State) : Host.Outcome State Fault Refusal :=
  onWrite t port Kx.ledCfg.off (fun s => s.notDbg port Kx.ledCfg.off fun s => s.writeLedCfg port value) s

end Sys2Proof.Machine
end

