-- ==== Sys2Proof/Machine/Churn.lean ====
section
/-!
DEFINITION. Churn at the hub: the subscription, hub-level bandwidth, the closing of sketch windows, station partials, and the
expert-load vector (09_churn R205-R214, R220-R222, R226-R228).
-/

namespace Sys2Proof.Machine

/-- Change Churn's state. -/
def State.modChurn (s : State) (f : Churn → Churn) : State := { s with churn := f s.churn }

/-! ## The close rule -/

/-- Types the subscription selects (09_churn R205). -/
def churnTypes : List RecTy := [.mark, .rpt, .cnt, .pcs, .bw, .flow, .gap, .epoch]

/-- Whether the subscription selects a record: of a station, or a GAP or EPOCH record of hub source 0 (09_churn R205). -/
def churnTakes (c : Curd) (r : Record) : Bool :=
  if c.unit < 40 then r.ty ∈ churnTypes else c.unit == 40 && (r.ty == .gap || r.ty == .epoch)

/-- A window ending at `b` may close: the watermark has passed b + 1 µs, and the subscription has consumed every curd accepted before
that moment (09_churn R205). -/
def State.mayClose (s : State) (b : Nat) : Bool := s.churn.marks.any fun e => decide (b + usT ≤ e.1) && decide (e.2 ≤ s.churnNext)

/-- A window ending at `b` has closed. -/
def State.closedTo (s : State) (b : Nat) : State := s.modChurn fun c => { c with closedTo := max c.closedTo b }

/-! ## Admission and history -/

/-- What names a record of Churn: of a FAULT record all but value and threshold, of a SKETCH record all but its flags. -/
def recKey (r : Record) : List (BitVec 64) :=
  if r.ty == .fault then r.body.take 3
  else if r.ty == .sketch then r.body.take 3 ++ [(r.body.getD 3 0) &&& 0xFFFFFFFF00FFFFFF]
  else r.body.take 5

/-- A record was admitted before the takeover. -/
def State.chnDone (s : State) (r : Record) : Bool := recKey r ∈ s.churn.done

/-- A record that is formed again in a replay is crossed off. -/
def State.chnCross (s : State) (r : Record) : State := s.modChurn fun c => { c with done := c.done.filter (· != recKey r) }

/-- Admit a record through source 2, unless it was admitted before the takeover (06_admission R138). -/
def State.chnAdmit (s : State) (r : Record) : State := if s.chnDone r then s.chnCross r else s.hubRec 2 r

/-- Drop the oldest stored windows until the history fits; it then begins where the last one dropped ends (09_churn R224). The fuel
bounds the windows dropped. -/
def Churn.trim (cap : Nat) : Nat → Churn → Churn
  | 0, c => c
  | f + 1, c =>
    if c.hist.length + c.hbwHist.length ≤ cap then c
    else match c.hist.head?, c.hbwHist.head? with
      | some x, some y =>
        if x.stop ≤ y.start + y.got then Churn.trim cap f { c with hist := c.hist.drop 1, since := max c.since x.stop }
        else Churn.trim cap f { c with hbwHist := c.hbwHist.drop 1, since := max c.since (y.start + y.got) }
      | some x, none => Churn.trim cap f { c with hist := c.hist.drop 1, since := max c.since x.stop }
      | none, some y => Churn.trim cap f { c with hbwHist := c.hbwHist.drop 1, since := max c.since (y.start + y.got) }
      | none, none => c

/-- The history keeps to the room of the region; the bytes of a stored window are not stated, and the windows that a region of SIZE GiB
holds are a free value (09_churn R224, log entry 67). -/
def State.trimHist (s : State) : State :=
  let cap := Config.histRoom (clampN 1 16 (s.rf Kx.chnCfg 4 0))
  s.modChurn fun c => c.trim cap (c.hist.length + c.hbwHist.length)

/-! ## Hub-level bandwidth -/

/-- The device port of a station port: the lowest valid entry (09_churn R206). -/
def State.dportOf (s : State) (die port : Nat) : Option Nat :=
  (s.regs.find? fun (o, w) => decide ((Kx.chnPortmap 0).off ≤ o) && decide (o < (Kx.chnPortmap 512).off) && w.getLsbD 31 &&
    fld w 11 6 == die && fld w 5 0 == port).map fun e => (e.1 - (Kx.chnPortmap 0).off) / 4

/-- The device ports Churn uses, ascending (09_churn R206). -/
def State.dports (s : State) : List Nat :=
  (List.range 512).filter fun d =>
    let w := s.rd (Kx.chnPortmap d)
    w.getLsbD 31 && s.dportOf (fld w 11 6) (fld w 5 0) == some d

/-- CLASS of a device port; 0 for an unclassed one (09_churn Table 9.1). -/
def State.dportClass (s : State) (d : Nat) : Nat :=
  let k := s.rf (Kx.chnPortmap d) 18 16
  if k ≤ 4 then k else 0

/-- The hub window that contains an instant; one that a suspension cut short is none (09_churn R207). -/
def State.hubWinAt (s : State) (ft : Nat) : Option (Nat × Nat) :=
  let ls := s.churn.hbwLens
  match winIn ls none ft with
  | none => none
  | some (a, b) =>
    let len := ((ls.find? fun e => decide (e.1 ≤ ft)).map (·.2)).getD 0
    if b < a + len && ls.any (fun e => e.2 == 0 && e.1 == b) then none else some (a, b)

/-- The lever 0x07 shift in force at an instant for windows of a base length (09_churn R227). -/
def State.khAt (s : State) (base ft : Nat) : Nat :=
  match s.skim.khs.find? fun x => decide (gridUp (base * 2 ^ x.2) x.1 ≤ ft) with
  | some x => x.2
  | none => 0

/-- The hub window to close next. -/
def State.hubOpen (s : State) : Option (Nat × Nat) :=
  match s.hubWinAt s.churn.hbwAt with
  | some w => some w
  | none =>
    match (s.churn.hbwLens.filter fun x => decide (s.churn.hbwAt < x.1) && x.2 != 0).getLast? with
    | some x => s.hubWinAt x.1
    | none => none

/-- Add one station BW entry to its hub window. -/
def State.hubBwAdd (s : State) (d start rx tx act peak ticks : Nat) : State :=
  if s.churn.lostAt.any (start < ·) then s
  else
    let same := fun (x : HubBw) => x.dport == d && x.start == start
    let up := fun (x : HubBw) =>
      { x with rx := x.rx + rx, tx := x.tx + tx, act := x.act + act, peak := max x.peak peak, got := x.got + ticks }
    s.modChurn fun c =>
      { c with hbw := if c.hbw.any same then replaceFirst same up c.hbw else c.hbw ++ [up { dport := d, start := start }] }

/-- ACT of an entry that lacks a station window (09_churn R209). -/
def actMark : Nat := 0xFFFFFFFFFF

/-- The entry of a device port in a hub window (09_churn R209). -/
def State.hubEntry (s : State) (d a b : Nat) : HubBw :=
  let x := (s.churn.hbw.find? fun x => x.dport == d && x.start == a).getD { dport := d, start := a }
  if x.got < b - a then { x with act := actMark } else x

/-- Words of a hub-level entry (05_records Table 5.6). -/
def hubWords (x : HubBw) : List (BitVec 64) :=
  [word64 [(x.rx % 2 ^ 48, 0)], word64 [(x.dport, 48), (x.tx % 2 ^ 48, 0)],
    word64 [(min x.peak 0xFFFFFF, 40), (min x.act actMark, 0)]]

/-- Cut a list into parts of at most n. -/
def chunksOf {α : Type} (n : Nat) : Nat → List α → List (List α)
  | 0, _ => []
  | _ + 1, [] => []
  | f + 1, l => l.take n :: chunksOf n f (l.drop n)

/-- Hub-level BW is suspended: no window fits, or it is disabled (09_churn R207). -/
def State.hubOff (s : State) : Bool := (s.churn.hbwLens.head?.map (·.2)).getD 0 == 0

/-- Close a hub window: hub-level BW records, 32 entries each; none while hub-level BW is suspended (09_churn R207, R209). -/
def State.closeHub (s : State) (a b : Nat) : State :=
  let es := if s.hubOff then [] else s.dports.map fun d => s.hubEntry d a b
  let kh := s.khAt (clampN 1 60000000 (s.rf Kx.chnHbw 25 0) * usT) a
  let s := (chunksOf 32 16 es).foldl (fun (s : State) l =>
    s.chnAdmit (mkRec .bw 0x80 0 ([BitVec.ofNat 64 a, BitVec.ofNat 64 b, word64 [(l.length, 58), (kh, 52)]] ++
      l.flatMap hubWords))) s
  ((s.modChurn fun c =>
    { c with hbw := c.hbw.filter fun x => decide (a < x.start), hbwHist := c.hbwHist ++ es.map fun x => { x with got := b - a },
             hbwAt := b }).trimHist).closedTo b

/-! ## Sketch windows -/

/-- LKIND of the records that feed a metric; none for station streams and the ledger's metrics (09_churn Table 9.2). -/
def metricKind (m : Nat) : Option Nat :=
  if m = mPortBytes then some 5
  else if m = mStageTime || m = mHotMark then some 0
  else if m = mHotCmd then some 1
  else if m = mHotFlow || m = mHotExpert then some 2
  else none

/-- INCOMPLETE of an instance at its close (09_churn R213). -/
def State.instLost (s : State) (x : Inst) : Bool :=
  let within := fun (t : Nat) => decide (x.start ≤ t) && decide (t < x.stop)
  if x.metric = mTtft || x.metric = mItl then
    let p := if x.kind.toNat = skPart then some x.scope else if x.kind.toNat = skClass then some (x.scope / 256) else none
    s.led.loss.any fun (k, v) => (match p with | some p => k == p | none => true) && v != 0 && within (v - 1)
  else match metricKind x.metric with
    | some k => s.churn.gaps.any fun g => (g.1 == k || g.1 == 15) && within g.2.1
    | none => false

/-- FLAGS of an instance at its close (09_churn Table 9.3). -/
def State.instFlags (s : State) (x : Inst) : BitVec 8 :=
  let on := fun (b : Bool) (i : Nat) (f : BitVec 8) => if b then setFlag f i else f
  on (x.missing != 0) sfMissing (on x.sk.over_ sfOver (on (s.defShort x.dfn x.start) sfShort (on (s.instLost x) sfIncomplete x.flags)))

/-- Ranks of the reported points, in 1/10,000 (09_churn Table 9.3). -/
def pointRanks : List Nat := ((List.range 99).map fun j => 100 * (j + 1)) ++ [9950, 9990, 9999]

/-- Pair 32-bit values into words, the first in bits [31:0]. -/
def pairWords : List Nat → List (BitVec 64)
  | [] => []
  | [a] => [word64 [(a, 0)]]
  | a :: b :: l => word64 [(b, 32), (a, 0)] :: pairWords l

/-- Word 4 of a SKETCH record (09_churn Table 9.3). -/
def sketchWord4 (x : Inst) : BitVec 64 := word64 [(x.kind.toNat, 61), (x.scope, 32), (x.flags.toNat, 24), (x.dfn, 16)]

/-- The records of a closed instance (09_churn R213, R214). -/
def sketchRecords (x : Inst) : List Record :=
  let head := fun (kind parts no : Nat) =>
    [BitVec.ofNat 64 x.start, BitVec.ofNat 64 x.stop, word64 [(kind, 56), (parts, 48), (no, 40), (x.metric, 0)], sketchWord4 x]
  if isHot x.metric then
    let es := ((x.hh.ents.filter fun e => e.2.1 != 0).mergeSort fun a b => decide (b.2.1 ≤ a.2.1))
    let ps := chunksOf 40 7 es
    (List.range ps.length).map fun i =>
      let l := ps.getD i []
      mkRec .sketch 0 0 (head 2 ps.length i ++ [BitVec.ofNat 64 x.hh.total, word64 [(es.length, 16), (l.length, 0)]] ++
        l.flatMap fun e => [BitVec.ofNat 64 e.1, BitVec.ofNat 64 e.2.1, BitVec.ofNat 64 e.2.2])
  else
    [mkRec .sketch 0 0 (head 1 1 0 ++ [x.missing.setWidth 64, BitVec.ofNat 64 x.sk.count, word64 [(x.sk.min, 32), (x.sk.max, 0)]] ++
      pairWords (pointRanks.map fun q => x.sk.point q 10000))]

/-- The slices whose boundary partials a stream instance waits for, 4 x station + slice (09_churn R212). -/
def State.streamsOf (s : State) (x : Inst) : List Nat :=
  (s.dies.filter fun n => x.kind.toNat != skDie || n == x.scope).flatMap fun n =>
    ((List.range 4).filter fun a => s.streamOn n a && s.rf (Kx.stnSkcfg n a) 5 0 == x.dfn).map fun a => 4 * n + a

/-- A stream instance has every boundary partial, or the station is listed as missing. -/
def State.streamsIn (s : State) (x : Inst) : Bool :=
  (s.streamsOf x).all fun k => k ∈ x.parts || x.missing.getLsbD (k / 4)

/-- Step times that end in a window: stage, ticks, station, in device order (09_churn R215). -/
def State.stepTimes (s : State) (a b : Nat) : List (Nat × Nat × Nat) :=
  s.churn.stages.filterMap fun m =>
    match s.churn.stages.find? fun p => p.stage == m.stage && p.step + 1 == m.step with
    | some p =>
      let t := max m.ft p.ft
      if a ≤ t && t < b then some (m.stage, t - min m.ft p.ft, m.die) else none
    | none => none

/-- The inputs that are complete only when the window closes: stage step times (09_churn R215, Table 9.2). -/
def State.fillStages (s : State) (x : Inst) : Inst :=
  if x.metric = mStageTime then
    (s.stepTimes x.start x.stop).foldl (fun (x : Inst) p =>
      if x.param == 0xFF || x.param == p.1 then { x with sk := x.sk.input p.2.1 } else x) x
  else x

/-- Close an instance: its SKETCH records when it took an input, and the history (09_churn R213, R224). -/
def State.closeInst (s : State) (x : Inst) : State :=
  let y := s.fillStages { x with stop := (s.defWin x.dfn x.start).2 }
  let y := { y with flags := s.instFlags y }
  let s := s.modChurn fun c => { c with insts := c.insts.filter fun z => !(z.is x.dfn x.scope x.start) }
  if y.sk.count = 0 && y.hh.ents.isEmpty then s
  else (sketchRecords y).foldl (fun (s : State) r => s.chnAdmit r) (s.modChurn fun c => { c with hist := c.hist ++ [y] }).trimHist

/-- The end of an open instance's window as it stands now. -/
def State.instStop (s : State) (x : Inst) : Nat := (s.defWin x.dfn x.start).2

/-- Whether an instance may close now. -/
def State.instReady (s : State) (x : Inst) : Bool := s.mayClose (s.instStop x) && (x.metric != mRlat || s.streamsIn x)

/-- The windows that may close and hold nothing close: those of the enabled definitions of which no earlier one is open (09_churn R205). -/
def State.closeEmpty (s : State) : State :=
  match (s.churn.marks.filter fun e => decide (e.2 ≤ s.churnNext)).getLast? with
  | none => s
  | some (w, _) =>
    let top := w - usT
    s.closedTo (((List.range 64).filter fun i => s.defOn i top).foldl (fun m i =>
      let a := (s.defWin i top).1
      if s.churn.insts.any fun y => y.dfn == i && decide (s.instStop y ≤ a) then m else max m a) s.churn.closedTo)

/-- CHURN_WINDOW_CLOSE: the hub window and the sketch windows that the close rule lets close, in the order of their ends
(09_churn R205, R209, R213). -/
def execChurnWindowClose (t : Nat) (s : State) : Host.Outcome State Fault Refusal :=
  onHub t (fun s =>
    if !s.chnOn then s
    else
      let hub := match s.hubOpen with
        | some (a, b) => if s.mayClose b then some (a, b) else none
        | none => none
      let ready := s.churn.insts.filter fun x => s.instReady x
      let ends := (hub.map (·.2)).toList ++ ready.map fun x => s.instStop x
      match ends with
      | [] => s.closeEmpty
      | e :: l =>
        let stop := l.foldl min e
        let s := match hub with
          | some (a, b) => if b = stop then s.closeHub a b else s
          | none => s
        ((ready.filter fun x => s.instStop x == stop).foldl (fun (s : State) x => s.closeInst x) s).closedTo stop) s

/-! ## Station partials -/

/-- A curd of a station has not reached the hub since it was closed: it was never sent, or is on the link. -/
def Stn.stillAhead (st : Stn) (c : Bool × Nat) : Bool :=
  (st.closed.any fun h => (h.curd.rsv, h.curd.firstSeq) == c && h.st == .unsent && !h.again) ||
    st.link.any fun x => (x.1.rsv, x.1.firstSeq) == c

/-- SKETCH_PARTIAL: the oldest partial of a slice merges into its instance, once the curds closed before it have come (09_churn R212). One that comes after its window has
closed is dropped. -/
def execSketchPartial (t : Nat) (die : Fin 40) (sl : Fin 4) (s : State) : Host.Outcome State Fault Refusal :=
  onHub t (fun s =>
    let mine := fun (m : Partial) => m.sl == sl.val
    let st := s.stn die
    match st.parts.find? mine with
    | none => s
    | some m =>
      if m.behind.any st.stillAhead then s
      else
        let s := s.modStn die fun st => { st with parts := removeFirst mine st.parts }
        let sc := if s.defScope m.dfn m.start = skDie then die.val else 0
        let isOpen := s.churn.insts.any (·.is m.dfn sc (s.defWin m.dfn m.start).1)
        if !(s.defOn m.dfn m.start) || s.defMetric m.dfn m.start != mRlat then s
        else if !isOpen && m.stop + 20 * usT < s.now then s
        else
          s.modInst m.dfn sc m.start m.count fun x =>
            { x with
              sk := x.sk.mergeItems m.lvls m.count m.min m.max
              flags := if m.skip then setFlag x.flags sfSkip else x.flags
              parts := if m.boundary then insertNew x.parts (4 * die.val + sl.val) else x.parts }) s

/-- PARTIAL_TIMEOUT: 20 µs after WEND, the stations without a boundary partial are listed as missing (09_churn R212). -/
def execPartialTimeout (t : Nat) (dfn : Fin 64) (s : State) : Host.Outcome State Fault Refusal :=
  onHub t (fun s =>
    let late := fun (x : Inst) => x.dfn == dfn.val && x.metric == mRlat && decide (s.instStop x + 20 * usT ≤ s.now)
    s.modChurn fun c =>
      { c with insts := c.insts.map fun x =>
          if late x then
            { x with missing := (s.streamsOf x).foldl (fun (m : BitVec 40) k =>
                if k ∈ x.parts then m else m ||| ((1 : BitVec 40) <<< (k / 4))) x.missing }
          else x }) s

/-! ## The expert-load vector -/

/-- The expert-load vector is written (09_churn Table 9.10). -/
def State.expOn (s : State) : Bool := s.chnOn && s.rb Kx.chnExpcfg 31

/-- EWIN, in ticks (09_churn Table 9.10). -/
def State.ewin (s : State) : Nat := clampN 1000 60000000 (s.rf Kx.chnExpwin 25 0) * usT

/-- Slots of the ring (09_churn Table 9.10). -/
def State.nslotExp (s : State) : Nat := max 4 (s.rf Kx.chnExpcfg 7 0)

/-- NEXPP: the experts of a layer, rounded up to a multiple of 16 (09_churn R221). -/
def ExpWin.nexpp (w : ExpWin) : Nat := (w.nexp + 15) / 16 * 16

/-- SLOTSZ (09_churn R221). -/
def ExpWin.size (w : ExpWin) : Nat := (128 + 4 * w.nlayer * w.nexpp + 4095) / 4096 * 4096

/-- Header word 0: BUSY and SEQ (09_churn Table 9.9). -/
def ExpWin.word0 (w : ExpWin) : BitVec 64 := word64 [(b1 w.busy, 63), (w.k % 2 ^ 63, 0)]

/-- Header words 1 to 6 (09_churn Table 9.9). -/
def ExpWin.header (w : ExpWin) : List (BitVec 64) :=
  [BitVec.ofNat 64 w.start, BitVec.ofNat 64 w.stop,
    word64 [(w.epoch.toNat, 32), (w.flags.toNat, 24), (w.nexp - 1, 12), (w.nlayer - 1, 0)], BitVec.ofNat 64 w.total,
    BitVec.ofNat 64 w.lost, BitVec.ofNat 64 w.late]

/-- The eight words of the 64 B line of counters at an address: counter (L, x) is the 32-bit word at slot byte
64 + 4 x (L x NEXPP + x) (09_churn R221). -/
def ExpWin.line (w : ExpWin) (addr : Nat) : List (BitVec 64) :=
  let cnt := fun (j : Nat) =>
    let i := (addr - w.addr - 64) / 4 + j
    sgetD w.cnts (4096 * (i / w.nexpp) + i % w.nexpp) 0
  (List.range 8).map fun i => word64 [(cnt (2 * i + 1), 32), (cnt (2 * i), 0)]

/-- A slot begun for a window, in the ring that the registers lay out (09_churn R221, R222). -/
def State.newExp (s : State) (k start : Nat) : ExpWin :=
  let base := s.rd64 Kx.chnExpbaseLo Kx.chnExpbaseHi
  let w : ExpWin := {
    k := k, start := start, stop := (k + 1) * s.ewin, nlayer := s.rf Kx.chnExpcfg 27 20 + 1, nexp := s.rf Kx.chnExpcfg 19 8 + 1
    ctl := base }
  { w with addr := base + 4096 + k % s.nslotExp * w.size }

/-- Zero a slot and write its header with BUSY = 1 and SEQ (09_churn R222). -/
def State.beginSlot (s : State) (w : ExpWin) : State := (s.emit (.devZero w.addr w.size)).emit (.devWrite w.addr [w.word0])

/-- Put a window into its slot; it overwrites the closed window that the slot held. One that a commit ended in the same slot keeps its
counts until it closes (09_churn R221, R222; DESIGN CHOICE, log entry 68). -/
def State.putExp (s : State) (w : ExpWin) : State :=
  let n := s.nslotExp
  (s.modChurn fun c => { c with exps := w :: c.exps.filter fun x => x.busy || x.k % n != w.k % n }).beginSlot w

/-- Write back dirty lines of the cache, those of one window or all (09_churn R222). -/
def State.writeLines (s : State) (mine : ExpWin → Bool) : State :=
  let home := fun (a : Nat) => s.churn.exps.find? fun w => mine w && decide (w.addr + 64 ≤ 64 * a) && decide (64 * a < w.addr + w.size)
  let (out, keep) := s.churn.dirty.partition fun a => (home a).isSome
  out.foldl (fun (s : State) a =>
    match home a with
    | some w => s.emit (.devWrite (64 * a) (w.line (64 * a)))
    | none => s) (s.modChurn fun c => { c with dirty := keep })

/-- The window in which an instant lies, begun at `ft` or at the start of its length, and the one after it. -/
def State.startExp (s : State) (ft : Nat) : State :=
  let k := ft / s.ewin
  (s.putExp (s.newExp k ft)).putExp (s.newExp (k + 1) ((k + 1) * s.ewin))

/-- EXPLOAD_WINDOW_BEGIN: as window k begins, slot k + 1 is zeroed with BUSY set (09_churn R222). -/
def execExploadWindowBegin (t : Nat) (s : State) : Host.Outcome State Fault Refusal :=
  onHub t (fun s =>
    if !s.expOn then s
    else match s.churn.exps with
      | [] => s.startExp (gridAt s.ewin s.now)
      | w :: _ => if w.start ≤ s.now then s.putExp (s.newExp (w.k + 1) w.stop) else s) s

/-- LOSTEV of a window (09_churn Table 9.9). -/
def State.expLost (s : State) (a b : Nat) : Nat :=
  ((s.churn.gaps.filter fun g => (g.1 == 2 || g.1 == 15) && decide (a ≤ g.2.1) && decide (g.2.1 < b)).map fun g => g.2.2).sum

/-- Bits of a slot's FLAGS (09_churn Table 9.9). -/
def xfIncomplete : Nat := 0
def xfRestart : Nat := 1
def xfSat : Nat := 2
def xfTakeover : Nat := 3
def xfSuspect : Nat := 4

/-- What a close writes, in order, each after the completion of the one before: the counters still in the cache, the header fields,
header word 0 with BUSY = 0, the tail, and LASTSEQ. A window that holds the slot by then begins in it again (09_churn R222, log entry
68). -/
def State.closeSlot (s : State) (w : ExpWin) : State :=
  let s := s.writeLines fun x => x.k == w.k && x.start == w.start
  let s := s.emit (.devWrite (w.addr + 8) w.header)
  let s := s.emit (.devWrite w.addr [w.word0])
  let s := s.emit (.devWrite (w.addr + w.size - 64) [BitVec.ofNat 64 (w.k % 2 ^ 63)])
  let s := s.emit (.devWrite w.ctl [BitVec.ofNat 64 w.k])
  match s.churn.exps.find? fun x => x.busy && x.addr == w.addr with
  | some x => s.beginSlot x
  | none => s

/-- EXPLOAD_WINDOW_CLOSE: the header, BUSY = 0, the tail and LASTSEQ (09_churn R221, R222). -/
def execExploadWindowClose (t : Nat) (s : State) : Host.Outcome State Fault Refusal :=
  onHub t (fun s =>
    match (s.churn.exps.filter (·.busy)).getLast? with
    | none => s
    | some w =>
      if !s.chnOn || !(s.mayClose w.stop) then s
      else
        let lost := s.expLost w.start w.stop
        let f := if lost != 0 then setFlag w.flags xfIncomplete else w.flags
        let f := if s.churn.restarts.any fun b => decide (w.start ≤ b) && decide (b < w.stop) then setFlag f xfRestart else f
        let w' := { w with busy := false, lost := lost, late := s.churn.expLate, flags := f, epoch := s.plan.epoch }
        ((s.modChurn fun c =>
          { c with exps := replaceFirst (fun x => x.k == w.k && x.start == w.start) (fun _ => w') c.exps, expLate := 0,
                   lastSeq := some w.k }).closeSlot w').closedTo w.stop) s

/-- Add to a counter of a slot, which saturates (09_churn R221). -/
def ExpWin.add (w : ExpWin) (layer expert n : Nat) : ExpWin :=
  let v := sgetD w.cnts (4096 * layer + expert) 0 + n
  { w with
    cnts := snum w.cnts (4096 * layer + expert) (min v (2 ^ 32 - 1)), total := w.total + n
    flags := if 2 ^ 32 ≤ v then setFlag w.flags xfSat else w.flags }

/-- An EXPERT event of an accepted FLOW record (09_churn R220). -/
def State.expEvent (s : State) (suspect : Bool) (ft arg : Nat) : State :=
  let layer := bitsOf arg 31 24
  let expert := bitsOf arg 23 12
  let hit := fun (w : ExpWin) => w.busy && decide (w.start ≤ ft) && decide (ft < w.stop)
  match s.churn.exps.find? hit with
  | some w =>
    if w.nlayer ≤ layer || w.nexp ≤ expert then s.incF Kx.chnExpstat 31 16 1
    else
      s.modChurn fun c =>
        { c with
          exps := replaceFirst hit (fun w =>
            let w := w.add layer expert (arg % 4096)
            if suspect then { w with flags := setFlag w.flags xfSuspect } else w) c.exps
          dirty := insertNew c.dirty ((w.addr + 64 + 4 * (layer * w.nexpp + expert)) / 64) }
  | none =>
    if s.expOn && (decide (s.rf Kx.chnExpcfg 27 20 < layer) || decide (s.rf Kx.chnExpcfg 19 8 < expert)) then
      s.incF Kx.chnExpstat 31 16 1
    else s

/-! ## Checkpoint -/

/-- Churn's part of a checkpoint: the cache is written back; its state and its consumed journal index are recorded (09_churn R222,
R228). -/
def State.churnCheckpoint (s : State) : State :=
  if !s.chnOn then s
  else
    let s := s.writeLines fun _ => true
    let k : ChnCkpt := {
      next := s.churnNext, churn := s.churn, seq2 := (s.src 2).seq, seq6 := (s.src 6).seq, wait := (s.src 2).wait }
    { s with chnCkpt := some k }

end Sys2Proof.Machine
end

