-- ==== Sys2Proof/Machine/Detectors.lean ====
section
/-!
DEFINITION. What the Churn subscription consumes, the detectors, boundaries of Churn, and its enable
(09_churn R205, R209, R213-R220, R226-R228).
-/

namespace Sys2Proof.Machine

/-! ## Detector inputs -/

/-- INPUT codes (09_churn Table 9.5). -/
def diStage : Nat := 0
def diBusy : Nat := 1
def diStall : Nat := 2
def diRet : Nat := 3
def diBytes : Nat := 4

/-- INPUT of a detector. -/
def State.detInput (s : State) (d : Nat) : Nat := s.rf (Kx.chnDetcfg d) 30 28

/-- A detector runs (09_churn Tables 9.5, 9.7). -/
def State.detOn (s : State) (d : Nat) : Bool := s.chnOn && s.rb (Kx.chnDetcfg d) 31 && s.detInput d ≤ 4

/-- DWIN, in ticks (09_churn Table 9.7). -/
def State.dwin (s : State) (d : Nat) : Nat := clampN 1000 60000000 (s.rf (Kx.chnDetwin d) 25 0) * usT

/-- The detectors that run on an input. -/
def State.detsOf (s : State) (input : Nat) : List Nat := (List.range 32).filter fun d => s.detOn d && s.detInput d == input

/-- Change the inputs of a member in the window that starts at `start`. -/
def State.modDet (s : State) (d m start : Nat) (f : DetIn → DetIn) : State :=
  let same := fun (x : DetIn) => x.det == d && x.mem == m && x.start == start
  if s.churn.lostAt.any (start < ·) then s
  else s.modChurn fun c =>
    { c with ins := if c.ins.any same then replaceFirst same f c.ins else c.ins ++ [f { det := d, mem := m, start := start }] }

/-- A capture of a member's value at an instant; a counter that restarted from zero starts the window's difference anew
(09_churn R216, 03_counters R74). -/
def State.detCapture (s : State) (input m ft v : Nat) (restarted : Bool) : State :=
  (s.detsOf input).foldl (fun (s : State) d =>
    s.modDet d m (gridAt (s.dwin d) ft) fun x =>
      { x with first := if restarted || x.first.isNone then some (ft, v) else x.first, last := some (ft, v) }) s

/-- The always-on entries of a CNT record: index, value, RESET (05_records Table 5.6). -/
def aoEntries (r : Record) : List (Nat × Nat × Bool) :=
  r.body.tail.filterMap fun w =>
    if w.getLsbD 56 then some (bitsOf w.toNat 55 48, w.toNat % 2 ^ 48, w.getLsbD 62) else none

/-- The sum of the entries that pass a test, and whether one restarted; none where there is none. -/
def aoSum (es : List (Nat × Nat × Bool)) (p : Nat → Bool) : Option (Nat × Bool) :=
  let l := es.filter fun e => p e.1
  if l.isEmpty then none else some ((l.map fun e => e.2.1).sum % 2 ^ 48, l.any fun e => e.2.2)

/-- A CNT record feeds the detectors of counters (09_churn Table 9.5). -/
def State.churnCnt (s : State) (n : Nat) (r : Record) : State :=
  let es := aoEntries r
  let wired := s.wiredEngs n
  let s := (es.filter fun e => e.1 ∈ wired).foldl (fun (s : State) e =>
    s.detCapture diBusy (32 * n + e.1) r.ft e.2.1 e.2.2) s
  if wired.isEmpty then s
  else
    let s := match aoSum es fun i => decide (32 ≤ i) && decide (i ≤ 39) with
      | some v => s.detCapture diStall n r.ft v.1 v.2
      | none => s
    match aoSum es fun i => i == 48 || i == 49 with
    | some v => s.detCapture diRet n r.ft v.1 v.2
    | none => s

/-! ## Consumption -/

/-- Entries of a BW record: station port, RX, TX, PEAK, ACT (05_records Table 5.6). -/
def bwEntries (r : Record) : List (Nat × Nat × Nat × Nat × Nat) :=
  let w := fun (i : Nat) => (r.body.getD i 0).toNat
  (List.range (bitsOf (w 2) 63 58)).map fun j =>
    (bitsOf (w (3 + 3 * j)) 63 58, w (3 + 3 * j) % 2 ^ 48, w (4 + 3 * j) % 2 ^ 48, w (5 + 3 * j) / 2 ^ 40, w (5 + 3 * j) % 2 ^ 40)

/-- A station BW record feeds the hub window, the PORTBYTES definitions and detectors (09_churn R209, Tables 9.2, 9.5). -/
def State.churnBw (s : State) (n : Nat) (r : Record) : State :=
  let a := (r.body.getD 0 0).toNat
  let b := (r.body.getD 1 0).toNat
  (bwEntries r).foldl (fun (s : State) (p, rx, tx, peak, act) =>
    match s.dportOf n p with
    | none => s
    | some d =>
      let s := match s.hubWinAt a with
        | some (h, _) => s.hubBwAdd d h rx tx act peak (b - a)
        | none => s
      let s := s.skInput mPortBytes {} (b - 1) (rx + tx) 1 fun k => k == s.dportClass d
      (s.detsOf diBytes).foldl (fun (s : State) i =>
        s.modDet i d (gridAt (s.dwin i) (b - 1)) fun x => { x with sum := x.sum + rx + tx, cnt := x.cnt + (b - a) }) s) s

/-- SRC and CODE of a MARK or RPT record. -/
def mkSrcOf (r : Record) : Nat := (r.body.getD 0 0).toNat / 2 ^ 48
def mkCodeOf (r : Record) : Nat := bitsOf (r.body.getD 0 0).toNat 47 32

/-- Device order: timestamp, die, sequence number (07_sequence_ledger R165). -/
def StageMark.before (a b : StageMark) : Bool := keyLt (a.ft, a.die, a.seq) (b.ft, b.die, b.seq)

/-- Insert a stage marker in device order; of one stage and step the first is kept (09_churn R215). -/
def addStage (m : StageMark) (l : List StageMark) : List StageMark :=
  let same := fun (x : StageMark) => x.stage == m.stage && x.step == m.step
  if l.any fun x => same x && !(m.before x) then l
  else
    let l := l.filter fun x => !(same x)
    l.filter (fun x => x.before m) ++ m :: l.filter fun x => !(x.before m)

/-- A stage marker; the STAGETIME definitions of its window open (09_churn R215). -/
def State.churnStage (s : State) (n : Nat) (r : Record) : State :=
  let p := (r.body.getD 0 0).toNat % 2 ^ 32 * 2 ^ 64 + (r.body.getD 1 0).toNat
  let m : StageMark := { stage := bitsOf p 95 88, step := bitsOf p 87 56, ft := r.ft, die := n, seq := r.seq }
  let s := s.modChurn fun c => { c with stages := addStage m c.stages }
  (s.defsOf mStageTime r.ft fun k => k == 0xFF || k == m.stage).foldl (fun (s : State) i => s.modInst i 0 r.ft 1 id) s

/-- Scope of a record of engine e of station n. -/
def State.engScope (s : State) (c : Curd) (n e : Nat) : InScope := { part := s.partOf c.epoch n e, die := some n }

/-- Churn takes one selected record of a curd (09_churn R205, R209, R213-R220). One inside a closed window is late. -/
def State.churnRec (s : State) (c : Curd) (r : Record) : State :=
  if !(churnTakes c r) then s
  else
    let late := s.pastClosed r.ft
    let isExp := r.ty == .flow && !(r.tf.getLsbD 7) && bitsOf (r.body.getD 0 0).toNat 42 39 == fcExpert
    if late then
      let s := s.incF Kx.chnStatus 15 8 1
      if isExp && (s.expOn || s.churn.exps.any (·.busy)) then (s.incF Kx.chnExpstat 15 0 1).modChurn fun x => { x with expLate := x.expLate + 1 } else s
    else
      let n := c.unit
      match r.ty with
      | .mark =>
        let e := mkSrcOf r / 32 % 32
        let s := s.hotInput mHotMark (s.engScope c n e) r.ft (mkSrcOf r * 65536 + mkCodeOf r) 1
        if s.rb Kx.chnStage 31 && mkCodeOf r == s.rf Kx.chnStage 15 0 then s.churnStage n r else s
      | .rpt =>
        s.hotInput mHotMark (s.engScope c n (mkSrcOf r / 32 % 32)) r.ft (mkSrcOf r * 65536 + mkCodeOf r)
          (bitsOf (r.body.getD 0 0).toNat 31 16)
      | .cnt => s.churnCnt n r
      | .pcs =>
        let w := (r.body.getD 0 0).toNat
        s.hotInput mHotCmd (s.engScope c n (r.tf.toNat % 32)) r.ft (w % 2 ^ 48) (2 ^ bitsOf w 63 59)
      | .bw => s.churnBw n r
      | .flow =>
        if isExp then
          let arg := (r.body.getD 0 0).toNat % 2 ^ 32
          (s.expEvent (c.tq == 2) r.ft arg).hotInput mHotExpert {} r.ft (arg / 4096 % 2 ^ 20) (arg % 4096)
        else s
      | .gap => s.modChurn fun x => { x with gaps := x.gaps ++ [(gapKind r, r.ft, gapCount r)] }
      | _ => s

/-- CHURN_INGEST: the next accepted curd (09_churn R205). A cache of 8,192 dirty lines takes a checkpoint early (R222). A replay ends when it has read what was accepted (R228). -/
def execChurnIngest (t : Nat) (s : State) : Host.Outcome State Fault Refusal :=
  onHub t (fun s =>
    match s.subOf .churn with
    | none => s
    | some x =>
      if !s.chnOn || s.jrn.accTo ≤ x.next then s
      else
        let j := x.next
        let s := s.modSub .churn fun x => { x with next := j + 1, cursor := j + 1, lap := none }
        let s := match s.jrn.mem.find? fun e => e.1 == j with
          | some (_, c) => c.recs.foldl (fun (s : State) r => s.churnRec c r) s
          | none => s
        let s := if 8192 ≤ s.churn.dirty.length then s.churnCheckpoint else s
        if s.churn.replayTo ≤ j + 1 then s.modChurn fun c => { c with catchup := false } else s) s

/-! ## Detectors -/

/-- Value of a member that a window gives it, with the station of a FAULT record's WHERE (09_churn Tables 9.5, 9.6). -/
structure DetVal where
  mem : Nat := 0
  val : BitVec 64 := 0
  wh  : Nat := 0
  grp : Nat := 0
  deriving DecidableEq, Repr

/-- FP64 of a number. -/
def fpNat (n : Nat) : BitVec 64 := fpOfInt (Int.ofNat n)

/-- The quotient of the difference between the window's last and first capture by its time; at least two captures are needed. -/
def capRate (x : DetIn) (f : Nat → Nat → BitVec 64) : Option (BitVec 64) :=
  match x.first, x.last with
  | some (t0, v0), some (t1, v1) => if t0 < t1 then some (f ((v1 + 2 ^ 48 - v0) % 2 ^ 48) (t1 - t0)) else none
  | _, _ => none

/-- The values of a detector's members in a window (09_churn R216). -/
def State.detValues (s : State) (d a b : Nat) : List DetVal :=
  let k := s.detInput d
  if k = diStage then
    let ts := s.stepTimes a b
    (ts.map (·.1)).eraseDups.map fun g =>
      let l := ts.filter fun x => x.1 == g
      { mem := g, val := fpDiv (fpNat (l.map fun x => x.2.1).sum) (fpNat l.length), wh := (l.getLast?.map fun x => x.2.2).getD 0 }
  else
    (s.churn.ins.filter fun x => x.det == d && x.start == a).filterMap fun x =>
      if k = diBusy then
        (capRate x fun dv dt => fpDiv (fpNat dv) (fpNat dt)).map fun v =>
          { mem := x.mem, val := v, wh := x.mem / 32, grp := x.mem % 32 }
      else if k = diStall then
        (capRate x fun dv dt => fpDiv (fpDiv (fpNat dv) (fpNat dt)) (fpNat (s.wiredEngs x.mem).length)).map fun v =>
          { mem := x.mem, val := v, wh := x.mem }
      else if k = diRet then
        (capRate x fun dv dt => fpDiv (fpNat (dv * usT)) (fpNat dt)).map fun v => { mem := x.mem, val := v, wh := x.mem }
      else
        let c := s.dportClass x.mem
        some { mem := x.mem, val := fpDiv (fpNat (x.sum * usT)) (fpNat x.cnt),
               wh := if c = 4 then 0x40 else s.rf (Kx.chnPortmap x.mem) 11 6, grp := c }

/-- DIR of a detector: it looks high, and low (09_churn Table 9.7). -/
def State.detHigh (s : State) (d : Nat) : Bool := s.rf (Kx.chnDetcfg d) 27 26 != 1
def State.detLow (s : State) (d : Nat) : Bool := s.rf (Kx.chnDetcfg d) 27 26 != 0

/-- The outcome of one test of one member: failed, and the threshold; none where no one threshold decided. -/
abbrev Verdict := Bool × Option (BitVec 64)

/-- The threshold shown with an outcome: the one a failing value crossed; else the one of the single direction tested. -/
def State.detThr (s : State) (d : Nat) (hi lo : Bool) (up down : BitVec 64) : Option (BitVec 64) :=
  if hi && s.detHigh d then some up
  else if lo && s.detLow d then some down
  else if s.detHigh d && s.detLow d then none
  else if s.detHigh d then some up
  else some down

/-- The anomaly test on one value: the member after it, and the outcome once it is past its warm-up (09_churn R217). -/
def State.anomaly (s : State) (d : Nat) (p : DetMem) (x : BitVec 64) : DetMem × Option Verdict :=
  if p.n = 0 then ({ p with m := x, d := 0, n := 1 }, none)
  else
    let ash := clampN 1 8 (s.rf (Kx.chnDetcfg d) 23 20)
    let a := fpNat (2 ^ ash)
    let abs_ := fpNat (s.rd (Kx.chnDetabs d)).toNat
    let abs_ := if s.detInput d = diBusy || s.detInput d = diStall then fpDiv abs_ (fpNat 65536) else abs_
    let w := fpAdd (fpMul (fpNat (clampN 1 15 (s.rf (Kx.chnDetcfg d) 19 16))) p.d) abs_
    let up := fpAdd p.m w
    let down := fpSub p.m w
    let hi := fpLt up x
    let lo := fpLt x down
    let bad := (hi && s.detHigh d) || (lo && s.detLow d)
    let xc := if hi then up else if lo then down else x
    let d' := fpAdd p.d (fpDiv (fpSub (fpAbs (fpSub xc p.m)) p.d) a)
    let m' := fpAdd p.m (fpDiv (fpSub xc p.m) a)
    ({ p with m := m', d := d', n := p.n + 1 }, if 2 ^ ash < p.n then some (bad, s.detThr d hi lo up down) else none)

/-- The straggler test of one member among the values of its group; at least 4 are needed (09_churn R218). -/
def State.straggler (s : State) (d : Nat) (vs : List DetVal) (v : DetVal) : Option Verdict :=
  let g := (vs.filter fun u => u.grp == v.grp).map (·.val)
  if g.length < 4 then none
  else
    let sorted := g.mergeSort fun a b => !(fpLt b a)
    let rank := max 1 ((min 1000 (s.rf (Kx.chnDetcfg2 d) 31 22) * g.length + 999) / 1000)
    let q := sorted.getD (rank - 1) 0
    let mar := fpDiv (fpNat (s.rf (Kx.chnDetcfg d) 11 4)) (fpNat 256)
    let up := fpMul q (fpAdd (fpNat 1) mar)
    let down := fpMul q (fpSub (fpNat 1) mar)
    let hi := fpLt up v.val
    let lo := fpLt v.val down
    some ((hi && s.detHigh d) || (lo && s.detLow d), s.detThr d hi lo up down)

/-- STRIKES of a detector. -/
def State.detStrikes (s : State) (d : Nat) : Nat := clampN 1 15 (s.rf (Kx.chnDetcfg d) 15 12)

/-- Report an entry or a clear, while fewer than 64 have been reported in the window (09_churn R219). Answers whether it was; one reported before a takeover is not reported again (06_admission R138).
The threshold where no one threshold decided is a free value. -/
def State.detReport (s : State) (d cls : Nat) (v : DetVal) (clear : Bool) (strikes stop done : Nat) (thr : Option (BitVec 64)) :
    State × Bool :=
  if 64 ≤ done then (s.incF Kx.chnDetstat 31 16 1, false)
  else
    let (th, s) := match thr with
      | some x => (x, s)
      | none => s.draw
    let r := faultRec cls v.mem v.wh ((d <<< 24) + (s.detInput d <<< 21) + (b1 clear <<< 20) + min strikes 0xFFFFF) stop
      v.val.toNat th.toNat (s.rb (Kx.chnDetcfg2 d) 17) 0
    if s.chnDone r then (s.chnCross r, true)
    else
    let s := s.hubRec 6 r
    if !clear && s.rb (Kx.chnDetcfg2 d) 21 then
      (s.raise ((1 : BitVec 8) <<< s.rf (Kx.chnDetcfg2 d) 20 18) orDet d (meshEnter s.now) s.now false false, true)
    else (s, true)

/-- Strikes and the reported state after an outcome: bad and good counts, reported; then whether it is to enter or clear. -/
def strike (bad good : Nat) (isIn failed : Bool) (need : Nat) : Nat × Nat × Option Bool :=
  let bad := if failed then bad + 1 else 0
  let good := if failed then 0 else good + 1
  (bad, good, if !isIn && need ≤ bad then some false else if isIn && need ≤ good then some true else none)

/-- One member's window: both tests, and what they report (09_churn R219). `done` counts the reports of the window. -/
def State.detMember (s : State) (d stop : Nat) (vs : List DetVal) (done : Nat) (v : DetVal) : State × Nat :=
  let same := fun (p : DetMem) => p.det == d && p.mem == v.mem
  let p := { (s.churn.mems.find? same).getD { det := d, mem := v.mem } with val := v.val }
  let need := s.detStrikes d
  let (s, p, done) :=
    match if s.rb (Kx.chnDetcfg d) 24 then s.straggler d vs v else none with
    | none => (s, p, done)
    | some (failed, thr) =>
      let (bad, good, ev) := strike p.sBad p.sGood p.sIn failed need
      let p := { p with sBad := bad, sGood := good, thr := thr }
      match ev with
      | none => (s, p, done)
      | some clear =>
        let (s, ok) := s.detReport d fcStraggler v clear (if clear then good else bad) stop done thr
        (s, if ok then { p with sIn := !clear } else p, if ok then done + 1 else done)
  let (s, p, done) :=
    if !(s.rb (Kx.chnDetcfg d) 25) then (s, p, done)
    else
      let (p, r) := s.anomaly d p v.val
      match r with
      | none => (s, p, done)
      | some (failed, thr) =>
        let (bad, good, ev) := strike p.aBad p.aGood p.aIn failed need
        let p := { p with aBad := bad, aGood := good, thr := thr }
        match ev with
        | none => (s, p, done)
        | some clear =>
          let (s, ok) := s.detReport d fcAnomaly v clear (if clear then good else bad) stop done thr
          (s, if ok then { p with aIn := !clear } else p, if ok then done + 1 else done)
  (s.modChurn fun c => { c with mems := c.mems.filter (fun x => !(same x)) ++ [p] }, done)

/-- DETECTOR_WINDOW_CLOSE: the members of the detector's next window are tested (09_churn R205, R216-R219). -/
def execDetectorWindowClose (t : Nat) (det : Fin 32) (s : State) : Host.Outcome State Fault Refusal :=
  onHub t (fun s =>
    let d := det.val
    match sget s.churn.detAt d with
    | none => s
    | some a =>
      let b := a + s.dwin d
      if !(s.detOn d) || !(s.mayClose b) then s
      else
        let vs := (s.detValues d a b).mergeSort fun x y => decide (x.mem ≤ y.mem)
        let (s, _) := vs.foldl (fun (acc : State × Nat) v => acc.1.detMember d b vs acc.2 v) (s, 0)
        (s.modChurn fun c =>
          { c with ins := c.ins.filter fun x => !(x.det == d && decide (x.start ≤ a)), detAt := sput c.detAt d b }).closedTo b) s

/-- A detector's state is reset; its windows go on from the one that holds an instant (09_churn R219). -/
def State.detReset (s : State) (ft d : Nat) : State :=
  s.modChurn fun c =>
    { c with
      mems := c.mems.filter (fun p => p.det != d)
      ins := c.ins.filter (fun x => x.det != d)
      detAt := if s.detOn d then sput c.detAt d (gridAt (s.dwin d) ft) else sdel c.detAt d }

/-! ## Boundaries -/

/-- Definition i takes a boundary: what it held before is kept, and its open windows end there (09_churn R213). -/
def State.defBoundary (s : State) (ft i : Nat) (cfg par win : Word) : State :=
  s.modChurn fun c =>
    let old := c.past.filter fun p => p.i != i || decide (c.closedTo < p.till)
    { c with past := { i := i, till := ft, cfg := cfg, par := par, win := win } :: old }

/-- A register in a map, and in the registers in force. -/
def State.regMoved (s : State) (old : SMap Word) (r : Reg) : Bool := regIn old r != s.rd r

/-- The expert-load window open at an instant ends there and the next begins (09_churn Table 9.10). -/
def State.expBoundary (s : State) (ft : Nat) : State :=
  let s := s.modChurn fun c =>
    { c with exps := (c.exps.filter fun w => !(w.busy && decide (ft ≤ w.start))).map fun w =>
        if w.busy && decide (ft < w.stop) then { w with stop := ft } else w }
  if s.expOn then s.startExp ft else s

/-- A commit or rollback took effect at an instant: `old` holds the registers before it (09_churn R213, R219, Table 9.10). -/
def State.churnCommit (s : State) (old : SMap Word) (ft : Nat) : State :=
  if !s.chnOn then s
  else
    let s := (List.range 64).foldl (fun (s : State) i =>
      if s.regMoved old (Kx.chnSkdef i) || s.regMoved old (Kx.chnSkpar i) || s.regMoved old (Kx.chnSkwin i) then
        let s := s.defBoundary ft i (regIn old (Kx.chnSkdef i)) (regIn old (Kx.chnSkpar i)) (regIn old (Kx.chnSkwin i))
        if s.defBad i then s.setB Kx.chnStatus 6 true else s
      else s) s
    let s := (List.range 32).foldl (fun (s : State) d =>
      if s.regMoved old (Kx.chnDetcfg d) || s.regMoved old (Kx.chnDetcfg2 d) || s.regMoved old (Kx.chnDetwin d) ||
          s.regMoved old (Kx.chnDetabs d) then s.detReset ft d else s) s
    let s := if s.regMoved old Kx.chnExpcfg || s.regMoved old Kx.chnExpwin then s.expBoundary ft else s
    s.noteHubWin ft

/-- A job-restart boundary (09_churn R213, R219, Table 9.9). -/
def State.churnRestart (s : State) (ft : Nat) : State :=
  if !s.chnOn then s
  else
    let s := (List.range 64).foldl (fun (s : State) i =>
      s.defBoundary ft i (s.rd (Kx.chnSkdef i)) (s.rd (Kx.chnSkpar i)) (s.rd (Kx.chnSkwin i))) s
    let s := (List.range 32).foldl (fun (s : State) d => s.detReset ft d) s
    s.modChurn fun c => { c with restarts := ft :: c.restarts }

/-! ## Enable -/

/-- The Churn region a configuration names: base and bytes (09_churn Table 9.14). -/
def State.chnRegion (s : State) (v : Word) : Nat × Nat :=
  (s.rd64 Kx.chnBaseLo Kx.chnBaseHi, clampN 1 16 (fld v 4 0) * 2 ^ 30)

/-- The checks of an enable: the journal ENABLED, and the region apart from the journal's and the ledger's. -/
def State.chnCheck (s : State) (v : Word) : Bool :=
  let r := s.chnRegion v
  s.jrnOn && ((s.jrnRegions (s.rd Kx.hubJrnCfg)).all fun j => apart r j.2) &&
    (!s.ledOn || (s.ledRegions (s.rd Kx.ledCfg)).all fun l => apart r l)

/-- Units and types of the subscription (09_churn R205). -/
def churnArgs : SubArgs := { units := 0x1FFFFFFFFFF, types := 0x38CE }

/-- Churn starts empty: its detectors are reset, and its hub windows and expert-load windows begin. -/
def State.startChurn (s : State) : State :=
  let s := ({ s with churn := { qs := s.churn.qs, nextQ := s.churn.nextQ, since := s.now }, chnCkpt := none }).startSub .churn churnArgs
  let s := if (List.range 64).any s.defBad then s.setB Kx.chnStatus 6 true else s
  ((((List.range 32).foldl (fun (s : State) d => s.detReset s.now d) s).noteHubWin s.now).noteMark).churnCheckpoint

/-- A write of KX_CHN_CFG (09_churn Table 9.14). -/
def State.writeChnCfg (s : State) (p : Port) (v : Word) : State :=
  let m : Word := 0x800F001F
  let v := v &&& m
  s.rwsWrite p ((s.rd Kx.chnCfg ^^^ v) &&& m != 0) fun s =>
    if s.chnOn && v.getLsbD 31 then s.wr Kx.chnCfg v
    else if s.chnOn then
      { s.wr Kx.chnCfg v with
        churn := { qs := s.churn.qs, nextQ := s.churn.nextQ }, chnCkpt := none, subs := s.subs.filter fun x => x.sink != Sink.churn }
    else if !(v.getLsbD 31) then s.wr Kx.chnCfg v
    else if s.chnCheck v then (s.wr Kx.chnCfg v).startChurn
    else (s.wr Kx.chnCfg (v &&& 0x7FFFFFFF)).setB Kx.chnStatus 6 true

/-- CHURN_ENABLE. -/
def execChurnEnable (t : Nat) (port : Port) (value : Word) (s : State) : Host.Outcome State Fault Refusal :=
  onWrite t port Kx.chnCfg.off (fun s => s.notDbg port Kx.chnCfg.off fun s => s.writeChnCfg port value) s

/-! ## Checkpoints -/

/-- The last accepted FIRSTSEQ of each unit and kind with its JIDX (06_admission R140). -/
def State.acceptedTops (s : State) : SMap (Nat × Nat) :=
  (s.jrn.mem.filter fun e => decide (e.1 < s.jrn.accTo) || e.1 ∈ s.jrn.acc).foldl (fun (m : SMap (Nat × Nat)) e =>
    let k := kindKey e.2.unit e.2.rsv
    match sget m k with
    | some (f, _) => if f < e.2.firstSeq then sput m k (e.2.firstSeq, e.1) else m
    | none => sput m k (e.2.firstSeq, e.1)) ((s.jrn.ckpt.map (·.recv)).getD [])

/-- The ring state block of a context (10_contexts R243). -/
def ringBlock (x : CtxS) : RingBlk :=
  { st := x.st, perm := x.perm, stallp := x.stallp, ringloc := x.ringloc, pasiden := x.pasiden, part := x.part, share := x.share,
    nextSeq := x.nextSeq, fetch := x.fetch, cplPi := x.cplPi, recPi := (List.range 8).map fun n => (sgetD x.recs n {}).pi }

/-- A checkpoint is due: 100 µs after the last one (06_admission R140). -/
def State.ckptDue (s : State) : Bool := match s.jrn.ckptAt with | some a => decide (a + 100 * usT ≤ s.now) | none => true

/-- JOURNAL_CHECKPOINT: every 100 µs the journal writer, the ledger and Churn write their checkpoints (06_admission R140,
07_sequence_ledger R179, 09_churn R228). -/
def execJournalCheckpoint (t : Nat) (s : State) : Host.Outcome State Fault Refusal :=
  onHub t (fun s =>
    if !s.jrnOn || !s.ckptDue then s
    else
      let j : Ckpt := {
        widx := s.jrn.widx, recv := s.acceptedTops, cursors := s.subs.map fun x => (x.sink, x.cursor)
        rings := s.ctxs.map fun (i, x) => (i, ringBlock x) }
      let s := { s with jrn := { s.jrn with ckpt := some j, ckptAt := some s.now } }
      let s :=
        if !s.ledOn then s
        else
          let next := ((s.subOf .ledger).map (·.next)).getD 0
          s.modLed fun l =>
            let k : LedCkpt := {
              wm := s.wm, jc := next, jr := (l.buf.map (·.jidx)).foldl min next, seq := (s.src 1).seq, flows := l.table
              live := l.live, loss := l.loss, queue := l.queue, accs := l.accs, kvs := l.kvs, refs := l.refs, wait := (s.src 1).wait }
            { l with ckpt := if l.gone0 then l.ckpt else some k, ckpt1 := if l.gone1 then l.ckpt1 else some k, dirtyOrder := [], cache := l.cache.map fun (i, c) =>
                (i, { c with ways := c.ways.map fun w => (w.1, w.2.1, false) }) }
      s.churnCheckpoint) s

end Sys2Proof.Machine
end

