-- ==== Sys2Proof/Machine/Mesh.lean ====
section
/-!
DEFINITION. The trigger mesh, the TRIG pins and the HOLD inputs (04_markers R106-R114).
-/

namespace Sys2Proof.Machine

/-! ## Mesh delivery -/

/-- A TRIG record of hub internal source 5 (05_records Table 5.11). DESIGN CHOICE (log entry 53): the presentation that its timestamp
names is the event's at the hub, the instant the hub acts on it; so the timestamps of the source follow its numbers (02_fabric_time
R48). -/
def State.trigHub (s : State) (e : MeshEv) (lines : Nat) (refused : Bool) : State :=
  s.hubRec 5
    { mkRec .trig (tflags [(b1 e.relayed, 7), (b1 refused, 6), (b1 e.holdEnd, 5)]) 0
        (trigBody e.origin.toNat e.origId.toNat lines 0 0 0) with ft := s.now }

/-- A FAULT record of a class whose CHAN, WHERE and DETAIL fields the specification does not give: they are free values
(log entry 14). -/
def State.faultFree (s : State) (cls evft : Nat) : State :=
  let (l, s) := s.draws 5
  let g := fun i => (l.getD i 0).toNat
  s.faultEvent cls (g 0 % 2 ^ 16) (g 1 % 2 ^ 8) (g 2 % 2 ^ 32) evft (g 3) (g 4)

/-- Sync ports that are UP (13_node Table 13.6). -/
def State.upPorts (s : State) : List Nat := (List.range 3).filter fun p => (sgetD s.node.ports p {}).st == 2

/-- Send a mesh event to the node: a TRIG block with the next serial on every port that is UP (13_node R313). -/
def State.sendTrig (s : State) (l : Nat) : State :=
  match s.devId with
  | none => s
  | some d =>
    let k := s.node.trigSerial
    let s := { s with node := { s.node with trigSerial := k + 1, seen := s.node.seen ++ [(d, k.toNat, s.now)] } }
    s.upPorts.foldl (fun s p => s.emit (.trigBlock p d l k)) s

/-- The active level of a pin under its polarity (04_markers Table 4.16). -/
def PinS.level' (x : PinS) (active : Bool) : Bool := active != x.pol

/-- A pin in its function: no park sequence holds it (04_markers Table 4.17). -/
def PinS.parked (x : PinS) (now : Nat) : Bool := match x.park with | some p => decide (p + 80 ≤ now) | none => false

/-- TRIG_OUT pins of line l go active, or begin their width again, at the first reference edge after delivery (04_markers R110). -/
def State.pulsePins (s : State) (l : Nat) : State :=
  (List.range 8).foldl (fun s p =>
    let x := sgetD s.pins p {}
    if x.func == 2 && x.line.toNat == l && !(x.parked s.now) then
      let w := (s.rf (Kx.pinCfg p) 15 12 + 1) * 80
      let s := if x.pulse.isNone then s.emit (.pin p true) else s
      { s with pins := sput s.pins p { x with pulse := some ((s.now / 8 + 1) * 8 + w), drv := some (x.level' true) } }
    else s) s

/-- What the hub does with one event on line l (04_markers Table 4.13, R109). An event from the node or from a Churn detector always
has its TRIG record (13_node R313, 09_churn R219). -/
def State.meshHub (s : State) (e : MeshEv) (l : Nat) : State :=
  let g := s.rd (Kx.hubTrigCfg l)
  let (s, refused) := if g.getLsbD 29 then s.triggerSnap else (s, false)
  let s := if g.getLsbD 31 || e.origin.toNat == orNode || e.origin.toNat == orDet then s.trigHub e (2 ^ l) refused else s
  let s := if g.getLsbD 30 then s.faultFree fcTrigger e.at_ else s
  let s := if g.getLsbD 28 && e.origin.toNat != orNode then s.sendTrig l else s
  s.pulsePins l

/-- Lines of a bit map of 8. -/
def linesOf (m : BitVec 8) : List Nat := (List.range 8).filter fun l => m.getLsbD l

/-- The receivers of the stations have the lines of a slot, delivered 24 reference periods after it begins; those of a station in reset
take nothing (04_markers R106-R108). -/
def State.meshToStns (s : State) (slot : Nat) (lines : BitVec 8) : State :=
  if lines = 0 then s
  else s.dies.foldl (fun s n =>
    if s.stnOn n then s.modStn n fun st => { st with meshQ := st.meshQ ++ [(slot + 192, lines)] } else s) s

/-- MESH_EVENT: the events of a slot reach every endpoint 24 reference periods after it begins (04_markers R106-R109); a station's
sequencer sees them 3 die cycles later, and the hub acts 2 ns later, or once a hub is active again, the new root at a takeover (R107,
R108). Events on one line merge into the first. -/
def execMeshEvent (t : Nat) (slot : Nat) (s : State) : Host.Outcome State Fault Refusal :=
  onUnit t (fun s =>
    let evs := s.mesh.filter fun e => e.slot == slot
    if evs.isEmpty || s.now < slot + 192 then s
    else
      let new : BitVec 8 := (evs.filter fun e => !e.stns).foldl (fun (m : BitVec 8) e => m ||| e.lines) 0
      let s := s.meshToStns slot new
      if !s.hubOn || s.now < slot + 208 then
        { s with mesh := s.mesh.map fun e => if e.slot == slot then { e with stns := true } else e }
      else
        let s := { s with mesh := s.mesh.filter fun e => e.slot != slot }
        (evs.foldl (fun (acc : State × BitVec 8) e =>
          ((linesOf (e.lines &&& ~~~acc.2)).foldl (fun s l => s.meshHub e l) acc.1, acc.2 ||| e.lines)) (s, 0)).1) s

/-- MESH_PARITY_ERROR: an error event of the leg's channel; legs 40 and 41 are the hubs' (04_markers R108, 14_startup
Table 14.4). -/
def execMeshParityError (t : Nat) (leg : Nat) (s : State) : Host.Outcome State Fault Refusal :=
  onHub t (fun s => if leg < 42 then s.channelError (meshLeg leg) else s) s

/-! ## Triggers by command -/

/-- Lines a context may raise: a tenant only those its partition owns (04_markers R109). -/
def State.ctxOwns (s : State) (c : Nat) (lines : BitVec 8) : Bool :=
  (linesOf lines).all fun l => s.lineBy (s.ctx c).perm (s.ctx c).part.toNat l

/-- The TRIGGER descriptor's effect: the lines take the next slot, and the command completes at launch with its FT
(04_markers R109, 10_contexts Table 10.7). -/
def State.effTrigger (s : State) (q : CmdRef) (lines : BitVec 8) : State :=
  if !(s.ctxOwns q.ctx lines) then s.post q opTrigger rScope 0 0 0
  else
    (s.raise lines orCtx q.ctx (meshEnter s.now) s.now false false).post q opTrigger rOk (slotAt (meshEnter s.now)) 0 0

/-- TRIGGER. -/
def execTrigger (t : Nat) (q : CmdRef) (lines : BitVec 8) (s : State) : Host.Outcome State Fault Refusal :=
  onCmd t q (fun s => s.effTrigger q lines) s

/-- TRIGGER_MSG: the Port B message (11_management Table 11.8). -/
def execTriggerMsg (t : Nat) (lines : BitVec 8) (s : State) : Host.Outcome State Fault Refusal :=
  onHub t (fun s =>
    (s.raise lines orPortB 0 (meshEnter s.now) s.now false false).emit
      (.response rOk (bytesOfNat 8 (slotAt (meshEnter s.now))))) s

/-! ## TRIG pins -/

/-- TRIG_IN_EDGE: a level that held for 2 samples, timed at the first; an active edge raises LINE (04_markers R110). The pin blocks of both
hubs sample, so a change while no hub is active is no edge afterwards (R113); edges of a parked pin are discarded (Table 4.17). -/
def execTrigInEdge (t : Nat) (pin : Fin 8) (level : Bool) (s : State) : Host.Outcome State Fault Refusal :=
  onUnit t (fun s =>
    let x := sgetD s.pins pin {}
    if x.func != 1 || x.level == level || x.parked s.now then s
    else
      let s := { s with pins := sput s.pins pin { x with level := level } }
      if s.hubOn && level == x.level' true then s.raise (1 <<< x.line.toNat) orPin pin (pinEnter s.now) s.now false false else s) s

/-- TRIG_OUT_PULSE_END (04_markers R110). -/
def execTrigOutPulseEnd (t : Nat) (pin : Fin 8) (s : State) : Host.Outcome State Fault Refusal :=
  onHub t (fun s =>
    let x := sgetD s.pins pin {}
    match x.pulse with
    | some e =>
      if e ≤ s.now then
        ({ s with pins := sput s.pins pin { x with pulse := none, drv := some (x.level' false) } }).emit (.pin pin false)
      else s
    | none => s) s

/-- A pin whose function a lower-numbered pin has taken behaves as OFF (04_markers R111). -/
def State.pinConflict (s : State) (p : Nat) : Bool :=
  let f := s.rf (Kx.pinCfg p) 31 29
  3 ≤ f && (List.range p).any fun k => s.rf (Kx.pinCfg k) 31 29 == f

/-- The function a pin's configuration asks for (04_markers Table 4.16, R111). -/
def State.pinFunc (s : State) (p : Nat) : Nat := if s.pinConflict p then 0 else s.rf (Kx.pinCfg p) 31 29

/-- The level an output function starts by driving: inactive for TRIG_OUT, high for UART_TX and UART_RTS (04_markers R112). -/
def idleDrive (f : Nat) (pol : Bool) : Option Bool := if f = 2 then some pol else if f = 4 || f = 6 then some true else none

/-- A pin is parked from the first pin-clock edge at or after an instant: its driver is off and its keeper on, its pulse ends, the
characters of its UART that have not left are discarded, and so is the lock of its PPS source (04_markers R112, Table 4.17). -/
def State.pinPark (s : State) (p at_ : Nat) : State :=
  let x := sgetD s.pins p {}
  let c := gridUp 80 at_
  let s := if x.pulse.isSome then s.emit (.pin p false) else s
  let s := if x.func == 4 then s.emit (.uartCut (c + 80)) else s
  let s := { s with pins := sput s.pins p { x with pulse := none, drv := none, keep := true, park := some c } }
  if s.pinFunc p = 3 || x.func == 3 then s.setPps true {} else s

/-- A boundary at an instant: the pins whose function it changes are parked; POL and LINE of the others apply at once (04_markers
R112). -/
def State.pinsMoved (s : State) (at_ : Nat) : State :=
  (List.range 8).foldl (fun s p =>
    let x := sgetD s.pins p {}
    let g := s.rd (Kx.pinCfg p)
    if s.pinFunc p != x.func.toNat then s.pinPark p at_
    else if x.park.isSome || (x.pol == g.getLsbD 28 && x.line == BitVec.ofNat 3 (fld g 18 16)) then s
    else
      let y : PinS := { x with pol := g.getLsbD 28, line := BitVec.ofNat 3 (fld g 18 16),
                               drv := if x.func == 2 && x.pulse.isNone then some (g.getLsbD 28) else x.drv }
      { s with pins := sput s.pins p y }) s

/-- Every pin runs the park sequence: the pin block of a new active hub (04_markers R113). -/
def State.pinsResume (s : State) : State :=
  (List.range 8).foldl (fun s p => if s.pinFunc p = 0 && (sgetD s.pins p {}).func = 0 then s else s.pinPark p s.now) s

/-- Cycle 3 of the park sequence: the pin takes the function, polarity and line of its configuration. An input function starts from the
level sampled, an output function from its idle level (04_markers R112, Table 4.17). DEDUCED (log entry 15): the keeper is on under OFF
only. -/
def State.pinSwitch (s : State) (p : Nat) (sampled : Bool) : State :=
  let f := s.pinFunc p
  let g := s.rd (Kx.pinCfg p)
  let y : PinS :=
    { func := BitVec.ofNat 3 f, pol := g.getLsbD 28, line := BitVec.ofNat 3 (fld g 18 16), level := sampled,
      drv := idleDrive f (g.getLsbD 28), keep := f == 0, txFree := s.now }
  { s with pins := sput s.pins p y }

/-- PIN_FUNCTION_SWITCH: the end of the park sequence that a boundary or a takeover began, at its cycle 3, with the level sampled there
(04_markers R112, Table 4.17). -/
def execPinFunctionSwitch (t : Nat) (pin : Fin 8) (level : Bool) (s : State) : Host.Outcome State Fault Refusal :=
  onHub t (fun s =>
    match (sgetD s.pins pin {}).park with
    | some c => if c + 240 ≤ s.now then s.pinSwitch pin level else s
    | none => s) s

/-! ## HOLD inputs -/

/-- Length of a pin-clock cycle in ticks (04_markers, TRIG pins). -/
def pinCyc : Nat := 80

/-- WIN in ticks (04_markers Table 4.18). -/
def State.holdWin (s : State) : Nat := clamp1 1000 (s.rf Kx.pinHoldCfg 27 18) * pinCyc

/-- A hold starts or ends at an instant: its lines enter the mesh, and a TRIG record of origin HOLD (04_markers R114). DESIGN CHOICE (log
entry 54): HOLDEND is set in the record of every end of a hold; R114 names it for the end at unlocking only. -/
def State.holdEdge (s : State) (start : Bool) (at_ : Nat) (endFlag : Bool) : State :=
  let lines := BitVec.ofNat 8 (if start then s.rf Kx.pinHoldCfg 15 8 else s.rf Kx.pinHoldCfg 7 0)
  let e : MeshEv := { lines := lines, slot := 0, origin := 4, at_ := at_, holdEnd := endFlag }
  let s := { s with hold := { s.hold with held := start } }
  (s.trigHub e lines.toNat false).raise lines orHold 0 (pinEnter at_) at_ false endFlag

/-- Neither agreement nor withdrawal by f + W: the discrepancy (04_markers R114). -/
def State.holdDiscrepancy (s : State) : State :=
  let s := (s.incF Kx.pinHoldStat 31 24 1).setB Kx.pinHoldStat 3 true
  let h := s.hold
  let s := { s with hold := { h with locked := true, win := none, quietAt := if h.a || h.b then none else some s.now } }
  s.faultFree fcHold s.now

/-- A channel of the HOLD input has a new active level (04_markers R114). -/
def State.holdTake (s : State) (chanB active : Bool) : State :=
  let h := s.hold
  let h := if chanB then { h with b := active } else { h with a := active }
  if h.locked then
    { s with hold := { h with quietAt := if h.a || h.b then none else some s.now } }
  else
    match h.win with
    | none => { s with hold := { h with win := if h.a == h.b then none else some (s.now, chanB) } }
    | some (_, firstB) =>
      let s := { s with hold := { h with win := none } }
      if firstB == chanB then s.incF Kx.pinHoldStat 23 16 1
      else if h.a && !h.held then s.holdEdge true s.now false
      else if !h.a && h.held then s.holdEdge false s.now true
      else s

/-- HOLD_CHANGE: a change of a channel that held for 2 samples, timed at the first (04_markers R114). A change later than f + W
finds the discrepancy already there. Both pin blocks sample; while no hub is active the levels alone follow (R113). -/
def execHoldChange (t : Nat) (chanB level : Bool) (s : State) : Host.Outcome State Fault Refusal :=
  onUnit t (fun s =>
    let pol := s.rb Kx.pinHoldCfg (if chanB then 29 else 30)
    let active := level != pol
    if active == (if chanB then s.hold.b else s.hold.a) then s
    else if !(s.rb Kx.pinHoldCfg 31) || !s.hubOn then
      { s with hold := if chanB then { s.hold with b := active } else { s.hold with a := active } }
    else
      let late := match s.hold.win with | some (f, _) => decide (f + s.holdWin < s.now) | none => false
      (if late then s.holdDiscrepancy else s).holdTake chanB active) s

/-- HOLD_WINDOW_EXPIRY: cycle f + W + 1 has come (04_markers R114). -/
def execHoldWindowExpiry (t : Nat) (s : State) : Host.Outcome State Fault Refusal :=
  onHub t (fun s =>
    match s.hold.win with
    | some (f, _) => if f + s.holdWin + pinCyc ≤ s.now then s.holdDiscrepancy else s
    | none => s) s

/-- HOLD_UNLOCK: both channels have been inactive for W cycles (04_markers R114). -/
def execHoldUnlock (t : Nat) (s : State) : Host.Outcome State Fault Refusal :=
  onHub t (fun s =>
    match s.hold.quietAt with
    | some q =>
      if s.hold.locked && q + s.holdWin ≤ s.now then
        let s := { s with hold := { s.hold with locked := false, quietAt := none } }
        if s.hold.held then s.holdEdge false s.now true else s
      else s
    | none => s) s

end Sys2Proof.Machine
end

