-- ==== Sys2Proof/Machine/Sinks.lean ====
section
/-!
DEFINITION. What each sink may receive, and the placement of curds in record rings and in the node-head sink
(05_records R126; 06_admission R145-R147; 10_contexts R248-R254; 12_isolation R287-R290; 08_tensor R198; 09_churn R226).
-/

namespace Sys2Proof.Machine

/-! ## The map of an epoch -/

/-- The unit under the registers of an epoch; in an epoch whose map is gone no partition is defined (12_isolation R287). -/
def State.under (s : State) (epoch : BitVec 32) : State :=
  { s with regs := (s.partRegs epoch).getD [((Kx.secPartdef 0).off, 0)] }

/-- Who looks: a context's permission, partition and number. Permission 0 receives everything but what Table 8.5 withholds. -/
structure Viewer where
  perm : BitVec 2 := 0
  part : BitVec 8 := 0
  ctx  : Option Nat := none
  deriving DecidableEq, Repr

/-- A context as a viewer. -/
def State.viewer (s : State) (c : Nat) : Viewer := { perm := (s.ctx c).perm, part := (s.ctx c).part, ctx := some c }

/-- The partition is the viewer's: any defined one for TENANT, its own for PARTITION (10_contexts R230). -/
def Viewer.owns (w : Viewer) (p : Nat) : Bool := w.perm != 2 || p == w.part.toNat

/-- An engine belongs to the viewer's partition under the registers of `v` (12_isolation R286). -/
def Viewer.has (w : Viewer) (v : State) (die tap : Nat) : Bool :=
  match partIn v.regs die tap with
  | some p => w.owns p
  | none => false

/-- The station holds an engine of the viewer's partition. -/
def Viewer.hasSome (w : Viewer) (v : State) (die : Nat) : Bool := (v.wiredEngs die).any fun e => w.has v die e

/-- Every engine of the station belongs to the viewer's partition. -/
def Viewer.hasAll (w : Viewer) (v : State) (die : Nat) : Bool := (v.wiredEngs die).all fun e => w.has v die e

/-- Every engine that a MASTER map selects on a die belongs to the viewer's partition. -/
def Viewer.hasMaster (w : Viewer) (v : State) (die : Nat) (master : Word) : Bool :=
  (v.wiredEngs die).all fun e => !(master.getLsbD e) || w.has v die e

/-- A device port belongs to a port tap of the viewer's partition (09_churn R226). Station port p is a port of tap p / 2. -/
def Viewer.hasPort (w : Viewer) (v : State) (d : Nat) : Bool :=
  let m := v.rd (Kx.chnPortmap d)
  m.getLsbD 31 && w.has v (fld m 11 6) (fld m 5 0 / 2)

/-! ## Tenant scope, type by type -/

/-- A CNT entry is in scope (03_counters R85). -/
def Viewer.cntEntry (w : Viewer) (v : State) (n : Nat) (e : BitVec 64) : Bool :=
  let i := bitsOf e.toNat 55 48
  if e.getLsbD 56 then
    if i < 32 then w.has v n i else if i < 60 then w.hasAll v n else false
  else
    let c := v.rd (Kx.stnCsel n i)
    if 6 ≤ fld c 29 27 then w.has v n (fld c 22 17 / 2) else w.hasMaster v n (v.rd (Kx.stnCmst n i))

/-- A CNT record with its entries in scope; none where it has none (03_counters R85, 05_records R126). -/
def Viewer.cnt (w : Viewer) (v : State) (n : Nat) (r : Record) : Option Record :=
  let es := r.body.tail.filter (w.cntEntry v n)
  if es.isEmpty then none
  else some { r with body := word64 [(bitsOf (r.body.getD 0 0).toNat 63 32, 32), (es.length, 0)] :: es }

/-- SKETCH records: PARTITION or CLASS scope of the viewer's partition, or streams whose MASTER lies wholly in it
(09_churn R226). -/
def Viewer.sketch (w : Viewer) (v : State) (r : Record) : Bool :=
  let x := (r.body.getD 3 0).toNat
  let kind := bitsOf x 63 61
  let scope := bitsOf x 60 32
  let dfn := bitsOf x 23 16
  let metric := bitsOf (r.body.getD 2 0).toNat 31 0
  if kind = skPart then w.owns scope && v.partDefined scope
  else if kind = skClass then w.owns (scope / 256) && v.partDefined (scope / 256)
  else
    metric == mRlat && v.dies.all fun n => (List.range 4).all fun a =>
      !(v.rb (Kx.stnSkcfg n a) 31 && v.rf (Kx.stnSkcfg n a) 5 0 == dfn) || (kind == skDie && n != scope) ||
        w.hasMaster v n (v.rd (Kx.stnSkmst n a))

/-- STRAGGLER and ANOMALY records: the member is of the viewer's partition (09_churn R226, Table 9.5). -/
def Viewer.member (w : Viewer) (v : State) (input mem : Nat) : Bool :=
  if input = diBusy then w.has v (mem / 32) (mem % 32)
  else if input = diStall || input = diRet then w.hasAll v mem
  else if input = diBytes then w.hasPort v mem
  else false

/-- FAULT records (12_isolation Table 12.2). -/
def Viewer.fault (w : Viewer) (v : State) (r : Record) : Bool :=
  let x := (r.body.getD 0 0).toNat
  let cls := bitsOf x 63 56
  let wh := bitsOf x 39 32
  if cls ∈ [fcTakeover, fcRefloss, fcJrnCopy, fcSwapMissed] then true
  else if cls ∈ [fcSram, fcChannel, fcRoute, fcCurdCrc] then decide (wh < 40) && w.hasSome v wh
  else if cls ∈ [fcStraggler, fcAnomaly] then w.member v (bitsOf x 23 21) (bitsOf x 55 40)
  else false

/-- SKIM records (06_admission R158). -/
def Viewer.skim (w : Viewer) (v : State) (r : Record) : Bool :=
  let x := (r.body.getD 0 0).toNat
  let stn := bitsOf x 55 48
  if stn = 0xFF then bitsOf x 63 56 ∈ [4, 5, 6, 9] else w.hasSome v stn

/-- TRIG records: only lines that the viewer's partition owns (04_markers R109). -/
def Viewer.trig (w : Viewer) (v : State) (r : Record) : Bool :=
  let lines : BitVec 8 := BitVec.ofNat 8 (bitsOf (r.body.getD 0 0).toNat 44 37)
  lines != 0 && (linesOf lines).all fun l => v.lineBy w.perm w.part.toNat l

/-- TSTAT and TCAP records (08_tensor Table 8.5). -/
def Viewer.tensor (w : Viewer) (r : Record) : Bool :=
  if r.ty == .tcap || r.tf.getLsbD 7 then
    match r.own with
    | some o => w.ctx == some o.1 && w.perm != 0
    | none => false
  else if w.perm = 0 then true
  else match r.own with
    | some o => w.perm == 1 || o.2.1 == 1 || o.2.2 == w.part
    | none => false

/-! ## Sensor markers -/

/-- The marker codes of power and temperature readings (12_isolation R290). -/
def mkPower : Nat := 0xFFF8
def mkThermal : Nat := 0xFFF9

/-- A reading of the sensor source (12_isolation R290). -/
def State.isSensor (v : State) (n : Nat) (r : Record) : Bool :=
  v.rb Kx.secSens 31 && r.ty == .mark && n == v.rf Kx.secSens 11 6 && bitsOf (mkSrcOf r) 9 5 == v.rf Kx.secSens 4 0 &&
    (mkCodeOf r == mkPower || mkCodeOf r == mkThermal)

/-- The sensor of a reading: code and number. -/
def sensorOf (r : Record) : Nat × Nat := (mkCodeOf r, bitsOf (r.body.getD 0 0).toNat 31 16)

/-- VALUE of a reading: unsigned for power, signed for temperature (12_isolation R290). -/
def sensorVal (r : Record) : Int :=
  let x := bitsOf (r.body.getD 1 0).toNat 31 0
  if mkCodeOf r = mkThermal then signedOf 32 x else Int.ofNat x

/-- The accepted readings of a sensor with a timestamp in a window of 1 ms. -/
def State.readings (s v : State) (n : Nat) (k : Nat × Nat) (w : Nat) : List Record :=
  (s.jrn.mem.filter fun e => e.2.unit == n).flatMap fun e =>
    e.2.recs.filter fun r => v.isSensor n r && sensorOf r == k && r.ft / msT == w

/-- A reading as a tenant context receives it: the first of its sensor in its window, with the mean of the window before
(12_isolation R290). -/
def State.coarsen (s v : State) (n : Nat) (r : Record) : Option Record :=
  let w := r.ft / msT
  if (s.readings v n (sensorOf r) w).any fun x => decide (x.seq < r.seq) then none
  else
    let l := if w = 0 then [] else s.readings v n (sensorOf r) (w - 1)
    let b0 := (r.body.getD 0 0).toNat
    let b1 := (r.body.getD 1 0).toNat / 2 ^ 32 * 2 ^ 32
    if l.isEmpty then
      -- NOPRIOR is PAYLOAD0 [72], bit 8 of the body's first word
      some { r with body := (r.body.set 0 (BitVec.ofNat 64 (b0 ||| 0x100))).set 1 (BitVec.ofNat 64 b1) }
    else
      let sum := (l.map sensorVal).foldl (· + ·) 0
      let mean := nearestDiv sum (1000 * Int.ofNat l.length) * 1000
      some { r with body := r.body.set 1 (BitVec.ofNat 64 (b1 + (BitVec.ofInt 32 mean).toNat)) }

/-! ## Scope of a record -/

/-- The device ports of a hub-level BW record (05_records Table 5.6). -/
def bwDports (r : Record) : List Nat :=
  (List.range (bitsOf (r.body.getD 2 0).toNat 63 58)).map fun j => bitsOf (r.body.getD (4 + 3 * j) 0).toNat 63 48

/-- PART of the flow of a summary: its own field, or that of the summary that an extension summary follows (05_records Table 5.5,
07_sequence_ledger R172, R184). -/
def summaryPart (r : Record) : Nat :=
  if bitsOf (r.body.getD 0 0).toNat 42 39 = 7 then (r.own.map (·.2.2.toNat)).getD 0 else bitsOf (r.body.getD 2 0).toNat 39 32

/-- A record as a tenant context receives it; none where it is out of scope. DESIGN CHOICE (log entry 58): a BW record of which one port
lies outside the partition is withheld whole. -/
def State.tenantRec (s v : State) (w : Viewer) (c : Curd) (r : Record) : Option Record :=
  let n := c.unit
  let keep := fun (b : Bool) => if b then some r else none
  let x := (r.body.getD 0 0).toNat
  match r.ty with
  | .mark =>
    if n < 40 && v.isSensor n r then s.coarsen v n r
    else keep (decide (n < 40) && r.tf.getLsbD 7 && w.has v n (bitsOf (mkSrcOf r) 9 5))
  | .rpt => keep (decide (n < 40) && r.tf.getLsbD 7 && w.has v n (bitsOf (mkSrcOf r) 9 5))
  | .pcs => keep (r.tf.getLsbD 7 && w.has v n (r.tf.toNat % 32))
  | .cnt => w.cnt v n r
  | .bw =>
    keep (if r.tf.getLsbD 7 then (bwDports r).all fun d => w.hasPort v d else (bwEntries r).all fun e => w.has v n (e.1 / 2))
  | .flow =>
    keep (if r.tf.getLsbD 7 then w.owns (summaryPart r) && v.partDefined (summaryPart r)
      else w.has v n (r.tf.toNat % 32))
  | .gap => keep (decide (n < 40) && w.has v n (bitsOf x 57 53))
  | .stall => keep (w.has v n (bitsOf x 57 53))
  | .skim => keep (w.skim v r)
  | .tsync => keep (r.tf.getLsbD 7 || w.hasSome v n)
  | .trig => keep (w.trig v r)
  | .fault => keep (w.fault v r)
  | .sketch => keep (w.sketch v r)
  | .tstat | .tcap => keep (w.tensor r)
  | .snap | .epoch | .seal | .anchor => some r

/-- A record as a viewer receives it. -/
def State.viewRec (s v : State) (w : Viewer) (c : Curd) (r : Record) : Option Record :=
  if w.perm = 0 then (if r.ty == .tstat || r.ty == .tcap then (if w.tensor r then some r else none) else some r)
  else s.tenantRec v w c r

/-- What a subscription of a viewer receives of a curd: nothing, the curd, or a derived curd (06_admission R146,
05_records R126). -/
def State.selectCurd (s : State) (w : Viewer) (a : SubArgs) (c : Curd) : Option Curd :=
  if !(a.units.getLsbD c.unit) || (w.perm != 0 && c.dev.isSome && c.dev != s.devId) then none
  else
    let v := s.under c.epoch
    let recs := c.recs.filterMap fun r => if a.types.getLsbD (recCode r.ty) then s.viewRec v w c r else none
    if recs.isEmpty then none
    else if recs = c.recs then some c
    else some { c with recs := recs, filtered := true }

/-! ## Record rings -/

/-- Record ring n of context c. -/
def State.ring (s : State) (c n : Nat) : RecRing := sgetD (s.ctx c).recs n {}

/-- Change record ring n of context c. -/
def State.modRing (s : State) (c n : Nat) (f : RecRing → RecRing) : State :=
  s.modCtx c fun x => { x with recs := sput x.recs n (f (sgetD x.recs n {})) }

/-- Positions of record ring n. -/
def State.recSize (s : State) (c n : Nat) : Nat := ringSize (s.rf (Kx.ctxRecCfg c n) 28 24)

/-- Unconsumed entries of a record ring. -/
def RecRing.used (r : RecRing) : Nat := (r.pi + 2 ^ 32 - r.ci) % 2 ^ 32

/-- The high and low thresholds of record ring n; none while HWM is 0 (10_contexts Table 10.5, R254). -/
def State.wmLevels (s : State) (c n : Nat) : Option (Nat × Nat) :=
  let h := s.rf (Kx.ctxRecCfg c n) 15 8
  let l := min (s.rf (Kx.ctxRecCfg c n) 7 0) (h - 1)
  if h = 0 then none else some (h * s.recSize c n / 256, l * s.recSize c n / 256)

/-- Count a watermark crossing (10_contexts R254). -/
def State.crossing (s : State) (c n : Nat) : State :=
  let r := if n < 4 then Kx.ctxWmcnt0 c else Kx.ctxWmcnt1 c
  (s.incF r (8 * (n % 4) + 7) (8 * (n % 4)) 1).ctxStatus c (24 + n)

/-- Follow a ring's occupancy: arm, or cross (10_contexts R254). -/
def State.noteLevel (s : State) (c n : Nat) : State :=
  match s.wmLevels c n with
  | none => s
  | some (h, l) =>
    let r := s.ring c n
    if r.armed && h ≤ r.used then (s.modRing c n fun r => { r with armed := false }).crossing c n
    else if r.used ≤ l then s.modRing c n fun r => { r with armed := true }
    else s

/-- KIND of a record ring entry (10_contexts Table 10.14). -/
def ekCurd : Nat := 0
def ekLapped : Nat := 1
def ekEnd : Nat := 2

/-- Write one entry at the producer index, the curd before it where there is one (10_contexts R248). -/
def State.putEntry (s : State) (c n : Nat) (kind w0 w1 w2 : Nat) (data : Option (List (BitVec 64))) : State :=
  let r := s.ring c n
  let size := s.recSize c n
  let pos := r.pi % size
  let ws := [BitVec.ofNat 64 w0, BitVec.ofNat 64 w1, BitVec.ofNat 64 w2,
    word64 [(r.pi % 2 ^ 32, 32), (kind, 1), (phaseBit r.pi size, 0)]]
  let s := match data with
    | some d => s.ringWrite c (s.rd64 (Kx.ctxRecDataLo c n) (Kx.ctxRecDataHi c n) + 4096 * pos) d
    | none => s
  let s := s.ringWrite c (s.rd64 (Kx.ctxRecEntLo c n) (Kx.ctxRecEntHi c n) + 32 * pos) ws
  (s.modRing c n fun r => { r with pi := (r.pi + 1) % 2 ^ 32, ents := r.ents ++ [{ words := ws }] }).noteLevel c n

/-- A CURD entry (10_contexts Table 10.14). -/
def State.putCurd (s : State) (c n jidx : Nat) (x : Curd) : State :=
  s.putEntry c n ekCurd jidx x.firstSeq (unitCode x.unit * 2 ^ 56 + b1 x.filtered * 2 ^ 55) (some x.words)

/-- A LAPPED entry, with STATUS.LAPPED; in the node ring it names the device (10_contexts Table 10.14, R250; 13_node R321). -/
def State.putLapped (s : State) (c n first last : Nat) (dev : Option Nat := none) : State :=
  let who := match dev with | some d => (0x80 + d) * 2 ^ 56 | none => 0
  (s.putEntry c n ekLapped first last (who + (last + 1 - first) % 2 ^ 55) none).ctxStatus c (16 + n)

/-- Whether record ring n takes a placement: the context runs, the ring is in use and has room (10_contexts R248). -/
def State.ringOpen (s : State) (c n : Nat) : Bool :=
  (s.ctx c).st == csRunning && s.rb (Kx.ctxRecCfg c n) 31 && decide ((s.ring c n).used < s.recSize c n)

/-- The node ring: record ring RING of operator context CTX, held by node aggregation (13_node R321). -/
def State.nodeRing (s : State) : Option (Nat × Nat) :=
  if s.rb Kx.synAgg 31 && s.node.isHead then some (s.rf Kx.synAgg 11 8, s.rf Kx.synAgg 2 0) else none

/-- The command log is running (10_contexts Table 10.9). -/
def State.logOn (s : State) : Bool := s.rb Kx.ctxLogCfg 31

/-- The ring engine may fetch for context c (10_contexts R240, R246): it runs, nothing is held, and every command in progress
stays inside the duplicate window. A descriptor waits for the log entry of the one before. -/
def State.mayFetch (s : State) (c : Nat) : Bool :=
  let x := s.ctx c
  let open_ := (x.log.filter fun e => e.first.isNone).map (·.seq)
  x.st == csRunning && s.logOn && x.held.isEmpty && x.fetch != x.pi && !(x.log.any fun e => !e.logged) &&
    open_.all fun q => decide ((x.nextSeq + 2 ^ 64 - q) % 2 ^ 64 < 64)

/-- Record ring n of context c has an index to consider and room for it (10_contexts R251). -/
def State.ringWork (s : State) (c n : Nat) : Bool :=
  s.ringOpen c n && (s.subOf (.ring c n)).any fun x => decide (x.next < s.jrn.delivTo)

/-- Slots of the raw buffer (16_grayth Table 16.2). -/
def State.grayLen (s : State) : Nat := 2 ^ clampN 4 20 (s.rf Kx.glbGrayCfg 4 0)

/-- RPTR as the full test of a hub cycle sees it (16_grayth R375). -/
def State.grayRptr (s : State) : Nat := if s.gray.rptrAt = some (hubCycle s.now) then s.gray.rptrOld else s.gray.rptr

/-- The raw buffer is full (16_grayth R375). -/
def State.grayFull (s : State) : Bool := decide (s.grayLen ≤ (s.gray.wptr + 2 ^ 32 - s.grayRptr) % 2 ^ 32)

/-- The raw stream among the contexts that share Port A (16_grayth R374). -/
def rawShare : Nat := 4096

/-- SHARE of a context or of the raw stream, and the curds it placed in the present round (10_contexts R251, 16_grayth R374). -/
def State.shareOf (s : State) (c : Nat) : Nat × Nat :=
  if c = rawShare then (s.rf Kx.glbGrayCfg 23 16, s.gray.placed) else ((s.ctx c).share.toNat, (s.ctx c).placed)

/-- The contexts with work for placement, and the raw stream, of nonzero SHARE (10_contexts R251, 16_grayth R374). -/
def State.sharers (s : State) : List Nat :=
  ((s.subs.filterMap fun x => match x.sink with
    | .ring c n => if s.ringWork c n then some c else none
    | .gray => if s.gray.running && !s.grayFull && decide (x.next < s.jrn.delivTo) then some rawShare else none
    | _ => none).filter fun c => (s.shareOf c).1 != 0).eraseDups

/-- Its share of the present round of curds is placed (10_contexts R251). -/
def State.served (s : State) (c : Nat) : Bool := decide ((s.shareOf c).1 ≤ (s.shareOf c).2)

/-- Placement for context c, or for the raw stream, may go: no command waits to be fetched, and the round leaves c a curd of its share; a
SHARE of 0 has its turn when no other has work (10_contexts R251, 16_grayth R374). -/
def State.mayPlace (s : State) (c : Nat) : Bool :=
  !(s.ctxs.any fun e => s.mayFetch e.1) &&
    if (s.shareOf c).1 = 0 then s.sharers.isEmpty else !(s.served c) || s.sharers.all s.served

/-- Count a curd placed; a new round begins when all that have work have had their share (10_contexts R251). -/
def State.countPlaced (s : State) (c : Nat) : State :=
  let s := if s.sharers.all s.served then
      { s with ctxs := s.ctxs.map fun (e : Nat × CtxS) => (e.1, { e.2 with placed := 0 }), gray := { s.gray with placed := 0 } }
    else s
  if c = rawShare then { s with gray := { s.gray with placed := s.gray.placed + 1 } }
  else s.modCtx c fun x => { x with placed := x.placed + 1 }

/-- Consider the next index of a subscription to a record ring: its LAPPED notice, or the curd, a derived curd, or nothing
(06_admission R146, R147; 10_contexts R250, R251). -/
def State.placeRing (s : State) (c n : Nat) : State :=
  if !(s.ringOpen c n) then s
  else match (s.ring c n).due with
    | (isEnd, a, b) :: l =>
      let s := s.modRing c n fun r => { r with due := l }
      if isEnd then s.putEntry c n ekEnd a 0 0 none else s.putLapped c n a b
    | [] =>
      match s.subOf (.ring c n) with
      | none => s
      | some x =>
        match x.lap with
        | some (a, b) => (s.modSub (.ring c n) fun x => { x with lap := none }).putLapped c n a b
        | none =>
          if s.jrn.delivTo ≤ x.next || !(s.mayPlace c) then s
          else
            let j := x.next
            let idle := (s.ring c n).conf = (s.ring c n).pi
            match (s.jrn.mem.find? fun e => e.1 == j).bind fun e => s.selectCurd (s.viewer c) x.args e.2 with
            | some d => ((s.countPlaced c).putCurd c n j d).modSub (.ring c n) fun x => { x with next := j + 1 }
            | none => s.modSub (.ring c n) fun x => { x with next := j + 1, cursor := if idle then j + 1 else x.cursor }

/-! ## The node-head sink -/

/-- The curd of a journal index. -/
def NodeItem.isCurd (j : Nat) : NodeItem → Bool
  | .curd i _ => i == j
  | .lapped _ _ => false

/-- This device takes part in a node with aggregation (13_node R319, R327). -/
def State.nodeSends (s : State) : Bool :=
  s.rb Kx.synId 31 && !s.node.estranged && s.rb Kx.synSubcfg 31 && s.node.nfeat.getLsbD 3 && s.node.head.isSome

/-- This device's index in the node. -/
def State.self (s : State) : Nat := s.rf Kx.synId 5 0

/-- Curds the node buffer holds (13_node Table 13.7). -/
def State.nodeBuf (s : State) : Nat := clamp1 64 (s.rf Kx.synAgg 27 20) * 4096

/-- The node buffer has room (13_node R320). -/
def State.nodeRoom (s : State) : Bool := decide ((s.node.devs.map fun d => d.2.queue.length).sum < s.nodeBuf)

/-- Change what is known of a device. -/
def State.modDev (s : State) (d : Nat) (f : NodeDev → NodeDev) : State :=
  { s with node := { s.node with devs := sput s.node.devs d (f (sgetD s.node.devs d {})) } }

/-- An index is passed over: CURSOR follows where no curd below it is still to be confirmed (06_admission R146). -/
def Sub.passed (x : Sub) : Sub :=
  { x with next := x.next + 1, cursor := if x.last ≤ x.cursor then x.next + 1 else x.cursor }

/-- The curd of index j is confirmed: CURSOR moves past it, and past the indexes after it that were passed over (06_admission R146). -/
def Sub.acked (x : Sub) (j : Nat) : Sub :=
  let c := max x.cursor (j + 1)
  { x with cursor := if x.last ≤ c then max c x.next else c }

/-- The head takes a curd of a device into its node buffer, once: after a takeover on the device it comes again, and where its placement was
confirmed the head only acknowledges it again (06_admission R146, 13_node R322). -/
def State.queueCurd (s : State) (d j : Nat) (c : Curd) : State :=
  let x := sgetD s.node.devs d {}
  if x.got ≤ j then s.modDev d fun y => { y with queue := y.queue ++ [.curd j c], got := j + 1 }
  else if x.queue.any (NodeItem.isCurd j) || s.node.places.any fun p => p.1 == d && p.2.1 == j then s
  else if d = s.self then s.modSub .node fun x => x.acked j
  else s.emit (.recAck d j)

/-- Consider the next index of the node-head sink. The curd goes to the head in a REC frame; the head's own enter its node
buffer. While the member is PLANDIFF, curds of another epoch than the expected one are passed over (13_node R319, R320, R328). -/
def State.placeHead (s : State) : State :=
  if !s.nodeSends || (s.node.isHead && !s.nodeRoom) then s
  else match s.subOf .node with
    | none => s
    | some x =>
      match x.lap with
      | some (a, b) =>
        let s := s.modSub .node fun x => { x with lap := none }
        if s.node.isHead then s.modDev s.self fun y => { y with queue := y.queue ++ [.lapped a b] } else s.emit (.recLapped a b)
      | none =>
        if s.jrn.delivTo ≤ x.next then s
        else
          let j := x.next
          let s1 := s.modSub .node fun x => x.passed
          match (s.jrn.mem.find? fun e => e.1 == j).bind fun e => s.selectCurd {} x.args e.2 with
          | some d =>
            if s.node.plandiff && some d.epoch != s.node.expect then s1
            else
              let s2 := s.modSub .node fun x => { x with next := j + 1, last := j + 1 }
              if s.node.isHead then s2.queueCurd s.self j d else s2.emit (.recFrame j d.words)
          | none => s1

/-- SINK_PLACE (06_admission R146). The other sinks have commands of their own (log entry 24). -/
def execSinkPlace (t : Nat) (sink : Sink) (s : State) : Host.Outcome State Fault Refusal :=
  onHub t (fun s =>
    match sink with
    | .ring c n => s.placeRing c n
    | .node => s.placeHead
    | _ => s) s

/-- A read-back has shown every entry of a record ring: the cursor of its subscription advances (10_contexts R250). -/
def State.confirm (s : State) (c n : Nat) : State :=
  (s.modRing c n fun r => { r with conf := r.pi }).modSub (.ring c n) fun x => { x with cursor := x.next }

/-- PLACEMENT_READBACK: at most once every 1 µs per ring (10_contexts R250). In the node ring it confirms the members' curds, which the head then acknowledges;
the head's own node-head cursor advances (13_node R319). -/
def execPlacementReadback (t : Nat) (ctx : Fin 4096) (ring : Fin 8) (s : State) : Host.Outcome State Fault Refusal :=
  onHub t (fun s =>
    let c := ctx.val
    let n := ring.val
    if (s.ring c n).readAt.any fun a => decide (s.now < a + usT) then s
    else
    let s := s.modRing c n fun r => { r with readAt := some s.now }
    if s.nodeRing = some (c, n) then
      let s := s.modRing c n fun r => { r with conf := r.pi }
      let l := s.node.places
      let s := { s with node := { s.node with places := [] } }
      l.foldl (fun (s : State) p =>
        if p.1 = s.self then s.modSub .node fun x => x.acked p.2.1
        else s.emit (.recAck p.1 p.2.1)) s
    else s.confirm c n) s

end Sys2Proof.Machine
end

