-- ==== Sys2Proof/Machine/Members.lean ====
section
/-!
DEFINITION. What a device knows of its node: who is reachable, who takes part, and its own boundary reports
(13_node R315, R320, R327, R328).
-/

namespace Sys2Proof.Machine

/-- Change the node state. -/
def State.modNode (s : State) (f : Node → Node) : State := { s with node := f s.node }

/-- Frames of the node functions: what `Out.nodeMsg` carries (13_node R310-R328). -/
def nmTimeReply : Nat := 1
def nmStep : Nat := 2
def nmProgress : Nat := 3
def nmBoundary : Nat := 4
def nmSnapshot : Nat := 5
def nmPrepare : Nat := 6
def nmReady : Nat := 7
def nmGo : Nat := 8
def nmReport : Nat := 9
def nmRollback : Nat := 10
def nmReplay : Nat := 11

/-- Reports of a participant: SWAPPED, SWAPMISS, NOGO, and BUSY or refused (13_node R324, R325). -/
def nrSwapped : Nat := 0
def nrSwapMiss : Nat := 1
def nrNoGo : Nat := 2
def nrBusy : Nat := 3

/-- NODE_DISAGREE kinds (13_node Table 13.5). -/
def ndVersion : Nat := 1
def ndTime : Nat := 2
def ndPlan : Nat := 3
def ndHead : Nat := 4
def ndDupId : Nat := 5

/-- A NODE_DISAGREE record; KX_SYN_STATUS.DISAGREE is set with it (13_node Table 13.5, Table 13.6). -/
def State.disagree (s : State) (kind chan d1 d2 : Nat) : State :=
  (s.setB Kx.synStatus 4 true).faultEvent fcNode chan 0x40 (kind * 2 ^ 28) s.now d1 d2

/-- How long a beacon keeps its device reachable (13_node R315). -/
def beaconLife : Nat := 300 * usT

/-- A device is reachable (13_node R315). -/
def Node.reachable (n : Node) (now d : Nat) : Bool :=
  match sget n.devs d with
  | some x => decide (0 < x.routes.length) && decide (now ≤ x.at_ + beaconLife)
  | none => false

/-- The other devices that are reachable. -/
def State.others (s : State) : List (Nat × NodeDev) := s.node.devs.filter fun e => e.1 != s.self && s.node.reachable s.now e.1

/-- This device's major version. -/
def State.nvmaj (s : State) : BitVec 8 := BitVec.ofNat 8 (s.rf Kx.synVer 31 24)

/-- A member serves the node: reachable and of this device's major version, neither EXCLUDED nor PLANDIFF (13_node R320, R330). -/
def State.serving (s : State) (e : Nat × NodeDev) : Bool :=
  e.2.b.nvmaj == s.nvmaj && e.2.b.tq != 3 && !e.2.plandiff && !e.2.b.plandiff

/-- The port of the shortest path to a device, and its hops; ties go to EAST, WEST, SPINE (13_node R307). -/
def State.route (s : State) (d : Nat) : Option (Nat × Nat) :=
  let rs := ((sget s.node.devs d).getD {}).routes.filter fun r => decide (s.now ≤ r.2.2 + beaconLife) && decide (r.1 ∈ s.upPorts)
  rs.foldl (fun (b : Option (Nat × Nat)) r =>
    match b with
    | some (p, h) => if r.2.1 < h then some (r.1, r.2.1) else some (p, h)
    | none => some (r.1, r.2.1)) none

/-- Hops of a device on the shortest path. -/
def State.hops (s : State) (d : Nat) : Nat := if d = s.self then 0 else ((s.route d).map (·.2)).getD 15

/-- This device is one of several in a node that has a head (13_node R316, R327). -/
def State.inNode (s : State) : Bool := s.devId.isSome && s.node.head.isSome && !s.others.isEmpty

/-- At its own boundary a device reports to the head: a boundary that is neither a job restart nor the outcome of a node commit
makes it PLANDIFF, with the epoch before as the one expected (13_node R328). -/
def State.nodeBoundary (s : State) (kind : Nat) (from_ to_ : BitVec 32) : State :=
  if !s.inNode then s
  else
    let k := if s.plan.node then 3 else kind
    let s := s.emit (.nodeMsg (s.node.head.getD 0) nmBoundary k to_.toNat)
    if k = ekRestart then s.modNode fun n => { n with expect := n.expect.map fun _ => to_ }
    else if k = 3 || s.node.plandiff then s
    else
      let s := s.modNode fun n => { n with plandiff := true, expect := some from_ }
      if s.node.isHead then
        (s.modDev s.self fun x => { x with plandiff := true, expect := some from_ }).disagree ndPlan s.self from_.toNat to_.toNat
      else s

end Sys2Proof.Machine
end

