-- ==== Sys2Proof/Machine/Watches.lean ====
section
/-!
DEFINITION. Tensor watches at the hub: arming, removal, retirement, and the hub's tensor-watch registers
(08_tensor R188-R190, R203, R204).
-/

namespace Sys2Proof.Machine

/-! ## Scope -/

/-- Whether an engine belongs to context c's partition under the map in force (10_contexts R230, 12_isolation R286, R287). -/
def State.ctxHas (s : State) (c die tap : Nat) : Bool :=
  let x := s.ctx c
  if x.perm = 0 then true
  else match s.partOf s.plan.epoch die tap with
    | none => false
    | some p => x.perm = 1 || p == x.part.toNat

/-! ## The checks of an ARM, in the order of Table 8.4 -/

/-- Only a tenant context arms a capture or asks for VALUES. -/
def armPriv (s : State) (c : Nat) (a : WatchArgs) : Bool := s.isOper c && (a.capture || a.values)

/-- BADARG of an ARM. -/
def armBad (a : WatchArgs) : Bool :=
  a.tid == 0 || a.stepMode == 3 || (a.stepMode == 1 && a.step1 == 0) || (a.stepMode == 2 && a.step1 < a.step0) ||
    (a.capture && popcount 40 a.dieMask.toNat != 1)

/-- BADFMT of an ARM (08_tensor R186). -/
def armFmt (a : WatchArgs) : Bool :=
  11 ≤ a.fmt.toNat || (a.sfmt != 0xA && a.sfmt != 0xF) ||
    (a.sfmt == 0xA && !(3 ≤ a.fmt.toNat && a.fmt.toNat ≤ 8))

/-- SCOPE of an ARM: an engine that MASTER selects on a die of DIEMASK is outside the context's partition. -/
def State.armScope (s : State) (c : Nat) (a : WatchArgs) : Bool :=
  (List.range 40).any fun n => a.dieMask.getLsbD n && (List.range 32).any fun e =>
    a.master.getLsbD e && s.wiredEng n e && !(s.ctxHas c n e)

/-- The registration that a context names. -/
def State.keyReg (s : State) (c : Nat) (k : BitVec 32) : Option KeyReg := s.sec.regs.find? fun r => r.id == k && r.ctx == c

/-- The tensors a watch is on: TID, and STID with a block scale. -/
def watchOn (a : WatchArgs) : List (BitVec 24) := a.tid :: (if a.sfmt = 0xA then [a.stid] else [])

/-- TID_BUSY of an ARM. -/
def State.armBusy (s : State) (a : WatchArgs) : Bool :=
  s.watches.any fun (_, x) =>
    if a.capture then x.args.capture && x.args.tid == a.tid && x.args.dieMask == a.dieMask
    else !x.args.capture && (watchOn x.args).any fun t => t ∈ watchOn a

/-- NO_WATCH of an ARM: 64 on the device, or 16 held by the context. -/
def State.armFull (s : State) (c : Nat) : Bool :=
  64 ≤ s.watches.length || 16 ≤ (s.watches.filter fun (_, x) => x.ctx == c).length

/-- The result of an ARM that the checks refuse; none when every check passes (08_tensor Table 8.4). -/
def State.armCheck (s : State) (c : Nat) (a : WatchArgs) : Option Nat :=
  if armPriv s c a then some rNoPriv
  else if armBad a then some rBadArg
  else if armFmt a then some rBadFmt
  else if s.armScope c a then some rScope
  else if a.capture && (s.keyReg c a.keyId).isNone then some rNoKey
  else if s.armBusy a then some rTidBusy
  else if s.armFull c then some rNoWatch
  else none

/-! ## Arming and removal -/

/-- From acceptance to the arming or removal instant (08_tensor R190). -/
def armDelay : Nat := 4 * usT

/-- A WID that no watch holds; which of them is a free value. -/
def State.freeWid (s : State) : State × Nat :=
  let l := (List.range 64).filter fun w => (s.watch w).isNone
  let (v, s) := s.draw
  (s, l.getD (v.toNat % max 1 l.length) 0)

/-- The one die of a capture's DIEMASK. -/
def captureDie (a : WatchArgs) : Nat := ((List.range 40).find? fun n => a.dieMask.getLsbD n).getD 0

/-- The effect of a WATCH ARM (08_tensor R190, R199). -/
def State.effWatchArm (s : State) (q : CmdRef) (a : WatchArgs) : State :=
  match s.armCheck q.ctx a with
  | some r => s.post q opWatch r 0 0 0
  | none =>
    let (s, w) := s.freeWid
    let cap := if a.capture then s.capIds else 0
    let z := match s.keyReg q.ctx a.keyId with | some r => r.z | none => 0
    let x : Watch := {
      args := a, ctx := q.ctx, seq := q.seq, irq := q.irq, oper := s.isOper q.ctx, capId := cap, armAt := s.now + armDelay
      okm := if a.capture then captureOkm a.keyId z cap (captureDie a) else 0 }
    let s := { s with watches := sput s.watches w x, capIds := if a.capture then s.capIds + 1 else s.capIds }
    s.postMore q opWatch rArmed (s.now + armDelay) cap.toNat w

/-- WATCH_ARM. -/
def execWatchArm (t : Nat) (q : CmdRef) (a : WatchArgs) (s : State) : Host.Outcome State Fault Refusal :=
  onCmd t q (fun s => s.effWatchArm q a) s

/-- The effect of a WATCH REMOVE: BADARG for a WID the context does not own (08_tensor R190). -/
def State.effWatchRemove (s : State) (q : CmdRef) (w : Nat) : State :=
  match s.watch w with
  | none => s.post q opWatch rBadArg 0 0 0
  | some x =>
    if x.ctx != q.ctx || x.done.isSome then s.post q opWatch rBadArg 0 0 0
    else
      let x := { x with remAt := some (x.remAt.getD (s.now + armDelay)) }
      ({ s with watches := sput s.watches w x }).post q opWatch rOk x.armAt x.capId.toNat w

/-- WATCH_REMOVE. -/
def execWatchRemove (t : Nat) (q : CmdRef) (wid : Fin 64) (s : State) : Host.Outcome State Fault Refusal :=
  onCmd t q (fun s => s.effWatchRemove q wid) s

/-- Close the open accumulation of watch w at station n, and take the watch out of effect there (08_tensor R195). -/
def State.unarmAt (s : State) (w cause n : Nat) : State :=
  let s := match openAcc (s.stn n) w with
    | some a => (s.closeAcc n a.id cause).admitLastc n
    | none => s
  s.modStn n fun st => { st with armed := st.armed.filter (· != w), keys := sdel st.keys w }

/-- Close the open accumulations of watch w at every station, and take it out of effect there (08_tensor R195). -/
def State.unarm (s : State) (w cause : Nat) : State :=
  s.dies.foldl (fun s n => s.beforeTaps n fun s => s.unarmAt w cause n) s

/-- Change watch w. -/
def State.modWatch (s : State) (w : Nat) (f : Watch → Watch) : State :=
  match s.watch w with
  | some x => { s with watches := sput s.watches w (f x) }
  | none => s

/-- A capture has closed, or a STAT watch has reached COUNT at every station in DIEMASK (08_tensor R190). -/
def State.watchDone (s : State) (x : Watch) : Bool :=
  if x.args.capture then x.closes.any fun (_, k) => 0 < k
  else x.args.count != 0 && x.inForce && s.dies.all fun n =>
    !(x.args.dieMask.getLsbD n) || x.args.count.toNat ≤ sgetD x.closes n 0

/-- Station n can take watch w into effect now: it works, and 4 µs have passed since its servo locked (08_tensor R203). -/
def State.watchReady (s : State) (n w : Nat) (x : Watch) : Bool :=
  x.args.dieMask.getLsbD n && s.stnOn n && 2 ≤ (s.stn n).servo.st.toNat && (s.stn n).lockAt + armDelay ≤ s.now &&
    !(w ∈ (s.stn n).armed)

/-- The station takes watch w into effect, with the key and IV that a capture has from the hub. WIDs stand in ascending order, the order
in which cipher units are given (08_tensor R191, R199). -/
def State.armAtStn (s : State) (n w : Nat) (x : Watch) : State :=
  s.modStn n fun st =>
    { st with armed := st.armed.filter (· < w) ++ w :: st.armed.filter (w < ·)
              keys := if x.args.capture then sput st.keys w x.okm else st.keys }

/-- WATCH_EFFECT: the removal instant, or the arming instant; and a STAT watch reloaded after a station's reset
(08_tensor R190, R203). -/
def execWatchEffect (t : Nat) (wid : Fin 64) (s : State) : Host.Outcome State Fault Refusal :=
  onHub t (fun s =>
    match s.watch wid with
    | none => s
    | some x =>
      if x.done.isSome || s.watchDone x then s
      else if x.remAt.any (· ≤ s.now) then
        let s := (s.unarm wid ccRemove).modWatch wid fun x => { x with done := some (BitVec.ofNat 8 rRemoved) }
        if x.oper then s.measChange else s
      else if s.now < x.armAt then s
      else
        let s := if !x.inForce && x.oper then s.measChange else s
        let s := s.modWatch wid fun x => { x with inForce := true }
        (s.dies.filter fun n => s.watchReady n wid x).foldl (fun s n => s.beforeTaps n fun s => s.armAtStn n wid x) s) s

/-- Whether station n still works on watch w. -/
def State.watchBusy (s : State) (w : Nat) : Bool := s.dies.any fun n => (s.stn n).accs.any fun a => a.wid == w

/-- The FINAL completion of a watch (08_tensor R190, 10_contexts R237). -/
def State.postRetired (s : State) (w : Nat) (x : Watch) (res : Nat) : State :=
  s.postFinal { ctx := x.ctx, seq := x.seq, irq := x.irq } opWatch res x.armAt x.capId.toNat w

/-- WATCH_RETIRE: once its stations are done with it, the watch retires and its FINAL completion is posted. -/
def execWatchRetire (t : Nat) (wid : Fin 64) (s : State) : Host.Outcome State Fault Refusal :=
  onHub t (fun s =>
    match s.watch wid with
    | none => s
    | some x =>
      if s.watchBusy wid || (x.done.isNone && !(s.watchDone x)) then s
      else
        let res := match x.done with | some r => r.toNat | none => rDone
        let s := { s with watches := sdel s.watches wid }
        let s := if x.oper && x.inForce && x.done != some (BitVec.ofNat 8 rRemoved) then s.measChange else s
        let s := s.dies.foldl (fun s n => s.modStn n fun st => { st with armed := st.armed.filter (· != wid.val) }) s
        if x.posted then s else s.postRetired wid x res) s

/-- Every watch of a context is retired with a result at once; its places in curds are filled as its reads return
(10_contexts R231, 08_tensor R203). -/
def State.retireWatches (s : State) (c res : Nat) : State :=
  (s.watches.filter fun (_, x) => x.ctx == c && x.done.isNone).foldl (fun s (w, x) =>
    let s := (s.unarm w ccRemove).modWatch w fun x => { x with done := some (BitVec.ofNat 8 res), posted := true }
    let s := if x.oper then s.measChange else s
    s.postRetired w x res) s

/-! ## Hub registers -/

/-- A write of a KX_HUB_TW_EXCL register: dropped with LOCKERR once LOCK is set (08_tensor R188, R204). -/
def State.writeTwExcl (s : State) (p : Port) (off : Nat) (v : Word) : State :=
  if s.rb Kx.hubTwExclCtl 31 then s.setB Kx.hubTwStat 8 true else s.writeHub p off v

/-- EXCL_LOCK: a write of KX_HUB_TW_EXCL_CTL. -/
def execExclLock (t : Nat) (port : Port) (value : Word) (s : State) : Host.Outcome State Fault Refusal :=
  onWrite t port Kx.hubTwExclCtl.off (fun s =>
    s.notDbg port Kx.hubTwExclCtl.off fun s => s.writeTwExcl port Kx.hubTwExclCtl.off value) s

/-- A write of KX_HUB_TW_CFG: setting EN while LOCK is clear is dropped and sets NOLOCK (08_tensor R204). -/
def State.writeTwCfg (s : State) (p : Port) (v : Word) : State :=
  if v.getLsbD 31 && !(s.rb Kx.hubTwExclCtl 31) && s.holdsLease p then
    (s.writeHub p Kx.hubTwCfg.off (setFld v 31 31 (b1 (s.rb Kx.hubTwCfg 31)))).setB Kx.hubTwStat 9 true
  else s.writeHub p Kx.hubTwCfg.off v

/-- TENSOR_WATCH_ENABLE: a write of KX_HUB_TW_CFG. -/
def execTensorWatchEnable (t : Nat) (port : Port) (value : Word) (s : State) : Host.Outcome State Fault Refusal :=
  onWrite t port Kx.hubTwCfg.off (fun s => s.notDbg port Kx.hubTwCfg.off fun s => s.writeTwCfg port value) s

end Sys2Proof.Machine
end

