-- ==== Sys2Proof/Machine/Seal.lean ====
section
/-!
DEFINITION. The Seal engine: its queue and fixed times, seal keys, SEAL records and capture registrations
(12_isolation R297-R302).
-/

namespace Sys2Proof.Machine

/-- Change the secrecy state. -/
def State.modSec (s : State) (f : Sec → Sec) : State := { s with sec := f s.sec }

/-! ## The queue -/

/-- Time of an operation in ticks (12_isolation Table 12.7). A KEY_REGISTER is an ECDH, then a signature. -/
def sealTime (k : SealKind) (p256 : Bool) : Nat :=
  match k with
  | .keygen => (if p256 then 80 else 200) * usT
  | .register => 190 * usT
  | .sign | .seal => (if p256 then 90 else 210) * usT
  | .verify => 400 * usT

/-- Ask for an operation: it runs at once on an idle engine, else waits in order (12_isolation R301). -/
def State.sealAsk (s : State) (o : SealOp) : State :=
  s.modSec fun c =>
    { c with ops := c.ops ++ [o], opEnds := if c.ops.isEmpty then s.now + sealTime o.kind o.p256 else c.opEnds }

/-- The running operation ends; `again` runs in its place, else the next begins. -/
def State.sealNext (s : State) (again : Option SealOp) : State :=
  s.modSec fun c =>
    let ops := again.toList ++ c.ops.tail
    { c with ops := ops, opEnds := match ops with | o :: _ => c.opEnds + sealTime o.kind o.p256 | [] => c.opEnds }

/-- The curve of KX_SEAL_CFG. -/
def State.sealP256 (s : State) : Bool := s.rb Kx.sealCfg 30

/-- Generate a seal key pair on the curve in force (12_isolation R297). -/
def State.sealKeygen (s : State) : State := s.sealAsk { kind := .keygen, p256 := s.sealP256 }

/-- Every chain ends: its SEAL records still asked for are dropped, and the next curd starts a chain (05_records R125). -/
def State.endChains (s : State) : State :=
  ({ s with jrn := { s.jrn with chains := [], gained := [] } }).modSec fun c =>
    { c with ops := c.ops.map fun (o : SealOp) => if o.kind == SealKind.seal then { o with dead := true } else o }

/-- The seal public key. -/
def State.sealPub (s : State) : BitVec 384 × BitVec 384 := Config.pubKey s.sec.keyP256 s.sec.sealKey

/-- r then s as 96 bytes: 48 B each for P-384; 32 B each and 32 zero bytes for P-256 (05_records Table 5.11). -/
def sigBytes (p256 : Bool) (g : BitVec 384 × BitVec 384) : List Byte :=
  if p256 then beBytes 32 g.1.toNat ++ beBytes 32 g.2.toNat ++ List.replicate 32 0
  else beBytes 48 g.1.toNat ++ beBytes 48 g.2.toNat

/-- Sign bytes with the seal key; each signature draws one free value for its nonce. -/
def State.sealSign (s : State) (msg : List Byte) : State × List Byte :=
  ({ s with free := s.free + 1 }, sigBytes s.sec.keyP256 (Config.ecdsa s.sec.keyP256 s.sec.sealKey (Config.sha384 msg) s.free))

/-! ## KEY_REGISTER -/

/-- The field prime of P-384 (FIPS 186-5, which the specification names). -/
def p384 : Nat := 2 ^ 384 - 2 ^ 128 - 2 ^ 96 + 2 ^ 32 - 1

/-- The result of the checks on a tenant's point, in the order of Table 12.8; none where it passes. -/
def pointCheck (x y : Nat) (onCurve : Bool) : Option Nat :=
  if x = 0 && y = 0 then some rAtInfinity
  else if p384 ≤ x || p384 ≤ y then some rBadCoord
  else if !onCurve then some rNotOnCurve
  else none

/-- Registrations held or on their way, of the device or of one context. -/
def State.keysOf (s : State) (c : Option Nat) : Nat :=
  (s.sec.regs.filter fun r => c.all (· == r.ctx)).length +
    (s.sec.ops.filter fun o => (o.kind == .register || o.kind == .sign) && !o.dead && c.all (· == o.ctx)).length

/-- The effect of KEY_REGISTER: a place among 64 on the device and 16 of the context, then the engine (12_isolation R298). -/
def State.effKeyRegister (s : State) (q : CmdRef) (addr : Nat) (point : Option (BitVec 384 × BitVec 384)) : State :=
  if s.isOper q.ctx then s.post q opKeyRegister rNoPriv 0 0 0
  else match point with
    | none => s.post q opKeyRegister rBufErr 0 0 0
    | some (x, y) =>
      if 64 ≤ s.keysOf none || 16 ≤ s.keysOf (some q.ctx) then s.post q opKeyRegister rKeyFull 0 0 0
      else s.sealAsk { kind := .register, ctx := q.ctx, seq := q.seq, irq := q.irq, x := x.toNat, y := y.toNat, addr := addr }

/-- KEY_REGISTER (12_isolation R298). -/
def execKeyRegister (t : Nat) (q : CmdRef) (addr : BitVec 64) (point : Option (BitVec 384 × BitVec 384)) (s : State) :
    Host.Outcome State Fault Refusal :=
  onCmd t q (fun s => s.effKeyRegister q addr.toNat point) s

/-- The ECDH of a registration ends: a rejection, or the signature begins (12_isolation R298, R301, R302). -/
def State.registerEnd (s : State) (o : SealOp) : State :=
  let d := Config.freeKey s.free
  let s := { s with free := s.free + 1 }
  let z := Config.ecdh false d (BitVec.ofNat 384 o.x, BitVec.ofNat 384 o.y)
  match pointCheck o.x o.y z.isSome with
  | some r =>
    let s := s.sealNext none
    if o.dead then s else s.post { ctx := o.ctx, seq := o.seq, irq := o.irq } opKeyRegister r 0 0 0
  | none =>
    let u := Config.pubKey false d
    s.sealNext (some { o with kind := .sign, z := z.getD 0, ux := u.1, uy := u.2, p256 := s.sec.keyP256 })

/-- Write words of a buffer of a context: host memory, or hub SRAM with RINGLOC. -/
def State.bufWrite (s : State) (c addr : Nat) (bs : List Byte) : State := s.ringWrite c addr (padWords bs)

/-- The signature of a registration ends: it is stored under the next KEYID and the buffer is written (12_isolation R298,
Table 12.6). -/
def State.signEnd (s : State) (o : SealOp) (ok : Bool) : State :=
  let q : CmdRef := { ctx := o.ctx, seq := o.seq, irq := o.irq }
  let s := s.sealNext none
  if o.dead then s
  else if !ok then s.post q opKeyRegister rBufErr 0 0 0
  else
    let id := s.sec.nextKey
    let pts := beBytes 48 o.x ++ beBytes 48 o.y ++ beBytes 48 o.ux.toNat ++ beBytes 48 o.uy.toNat
    let (s, sig) := s.sealSign (pts ++ beBytes 4 id.toNat ++ beBytes 8 s.sec.tenant.toNat ++ beBytes 2 o.ctx)
    let s := s.modSec fun c => { c with nextKey := id + 1, regs := c.regs ++ [{ id := id, ctx := o.ctx, z := o.z }] }
    let s := s.bufWrite o.ctx (o.addr + 96) (pts.drop 96 ++ sig ++ beBytes 4 id.toNat ++ List.replicate 28 0)
    s.post q opKeyRegister rOk id.toNat 0 0

/-! ## Seal keys and SEAL records -/

/-- A key generation ends: the new key takes the next KEYID (12_isolation R297); the disclosure changes (R294). -/
def State.keygenEnd (s : State) (o : SealOp) : State :=
  let s := s.sealNext none
  if o.dead then s
  else
    (({ s with free := s.free + 1 }).modSec fun c =>
      { c with sealKey := Config.freeKey s.free, keyId := c.nextKey, nextKey := c.nextKey + 1, keyReady := true,
               keyP256 := o.p256 }).measChange

/-- PERIOD in ticks (12_isolation Table 12.12). -/
def State.sealPeriod (s : State) : Nat := clampN 16 1000 (s.rf Kx.sealCfg 9 0) * msT

/-- A signature of a SEAL record ends: hub source 4 admits the record; one later than PERIOD counts in LAG
(12_isolation R300, 05_records Table 5.11). -/
def State.sealEnd (s : State) (o : SealOp) : State :=
  let s := s.sealNext none
  if o.dead then s
  else
    let head : List (BitVec 64) :=
      [word64 [(unitCode o.unit, 56), (s.sec.keyId.toNat, 0)], BitVec.ofNat 64 o.lastSeq, word64 [(o.ncurd, 32)]] ++ hashWords o.link
    let (s, sig) := s.sealSign (head.flatMap bytesOf64)
    let s := if o.due + s.sealPeriod < s.now then s.incF Kx.sealStatus 15 0 1 else s
    s.hubRec 4 (mkRec .seal (tflags [(b1 s.sec.keyP256, 6)]) 0 (head ++ padWords sig))

/-- SEAL_PERIOD: a SEAL record is asked for each selected chain that gained curds (12_isolation R300). -/
def execSealPeriod (t : Nat) (s : State) : Host.Outcome State Fault Refusal :=
  onHub t (fun s =>
    if !(s.rb Kx.sealCfg 31) || s.now < s.sec.sealAt + s.sealPeriod then s
    else
      let s := s.modSec fun c => { c with sealAt := s.now }
      (List.range 48).foldl (fun (s : State) u =>
        let g := sgetD s.jrn.gained u (0, 0)
        if !(s.sealOn u) || g.1 = 0 then s
        else
          let s := s.sealAsk
            { kind := .seal, unit := u, due := s.now, p256 := s.sealP256, ncurd := g.1, lastSeq := g.2,
              link := sgetD s.jrn.chains u 0 }
          { s with jrn := { s.jrn with gained := sdel s.jrn.gained u } }) s) s

/-! ## KEY_REVOKE and SEAL_PUBKEY -/

/-- An armed capture names the key (12_isolation R299). -/
def State.keyUsed (s : State) (id : BitVec 32) : Bool :=
  s.watches.any fun (_, w) => w.args.capture && w.args.keyId == id && w.done.isNone

/-- The effect of KEY_REVOKE. -/
def State.effKeyRevoke (s : State) (q : CmdRef) (id : BitVec 32) : State :=
  if s.isOper q.ctx then s.post q opKeyRevoke rNoPriv 0 0 0
  else if (s.keyReg q.ctx id).isNone then s.post q opKeyRevoke rBadArg 0 0 0
  else if s.keyUsed id then s.post q opKeyRevoke rKeyInUse 0 0 0
  else
    (s.modSec fun c => { c with regs := c.regs.filter fun r => !(r.id == id && r.ctx == q.ctx) }).post q opKeyRevoke rOk id.toNat 0 0

/-- KEY_REVOKE (12_isolation R299). -/
def execKeyRevoke (t : Nat) (q : CmdRef) (keyId : BitVec 32) (s : State) : Host.Outcome State Fault Refusal :=
  onCmd t q (fun s => s.effKeyRevoke q keyId) s

/-- The effect of SEAL_PUBKEY (12_isolation R297). -/
def State.effSealPubkey (s : State) (q : CmdRef) (buf : Nat) (ok : Bool) : State :=
  if !ok then s.post q opSealPubkey rBufErr 0 0 0
  else
    let (x, y) := s.sealPub
    (s.emit (.pubkey q.ctx buf (s.dmaTee q.ctx) (s.dmaPasid q.ctx) s.sec.keyId s.sec.keyP256 x y)).post q opSealPubkey rOk s.sec.keyId.toNat (b1 s.sec.keyP256) 0

/-- SEAL_PUBKEY (12_isolation R297). -/
def execSealPubkey (t : Nat) (q : CmdRef) (buf : BitVec 64) (ok : Bool) (s : State) : Host.Outcome State Fault Refusal :=
  onCmd t q (fun s => s.effSealPubkey q buf.toNat ok) s

end Sys2Proof.Machine
end

