-- ==== Sys2Proof/Machine/Boundary.lean ====
section
/-!
DEFINITION. Epoch boundaries: what a station and the hub do at a swap, a rollback and a job restart
(03_counters R76; 04_markers R93, R94, R105; 05_records R128, R129; 11_management R272, R273).
-/

namespace Sys2Proof.Machine

/-! ## Plan registers -/

/-- The row of an aperture offset that a plan can stage: a hub register, or a register of a station's window
(11_management R267). Answers the row with its window's base. -/
def planRow (off : Nat) : Option (Nat × Kx.Row) :=
  if 0x2000000 ≤ off && off < 0x2000000 + 40 * 0x10000 then
    let base := off / 0x10000 * 0x10000
    ((Kx.findRow Kx.stnRows (off - base)).filter fun r => r.rwp != 0).map fun r => (base, r)
  else if off < 0x2000000 then ((Kx.findRow Kx.hubRows off).filter fun r => r.rwp != 0).map fun r => (0, r)
  else none

/-- The station whose window holds an offset; none for a hub register. -/
def stnOfOff (off : Nat) : Option Nat := if 0x2000000 ≤ off then some ((off - 0x2000000) / 0x10000) else none

/-- The register at an aperture offset, with its reset value. -/
def regAt (off : Nat) : Reg :=
  match planRow off with
  | some (_, r) => ⟨off, r.rst⟩
  | none => ⟨off, 0⟩

/-- The value a register takes when its RWP fields are written. -/
def State.planned (s : State) (off : Nat) (v : Word) : Word :=
  match planRow off with
  | some (_, r) =>
    let m := BitVec.ofNat 32 r.rwp
    (s.rd (regAt off) &&& ~~~m) ||| (v &&& m)
  | none => s.rd (regAt off)

/-- Activate staged values. -/
def State.activate (s : State) (l : List (Nat × Word)) : State :=
  l.foldl (fun (s : State) x => s.wr (regAt x.1) (s.planned x.1 x.2)) s

/-- The values in force of the registers that a list names. -/
def State.valuesOf (s : State) (l : List (Nat × Word)) : SMap Word :=
  l.foldl (fun (m : SMap Word) x => sput m x.1 (s.rd (regAt x.1))) []

/-- The staged writes of one station, or of the hub. -/
def State.stagedFor (s : State) (n : Option Nat) : List (Nat × Word) :=
  (s.plan.staged.filter fun x => stnOfOff x.1 == n).map fun x => (x.1, x.2.1)

/-- Change the plan. -/
def State.modPlan (s : State) (f : Plan → Plan) : State := { s with plan := f s.plan }

/-! ## The end of an epoch at a station -/

/-- The EPOCHEND capture of instant T, with every kind that falls on it, after the captures due before T (03_counters R76,
Table 3.11). -/
def State.captureEpoch (s : State) (n T : Nat) : State :=
  (((s.capturesBefore (s.captureFuel n) n T).captureAt n T true).settleTime n T).admitBanks n

/-- Curds of station n that closed since it held `k` closed curds name the boundary's cause: of two causes on one die cycle CLOSE names
RESTART or EPOCH before FULL (05_records R118). -/
def State.closedBy (s : State) (n k : Nat) (cause : BitVec 2) : State :=
  s.modStn n fun st =>
    { st with closed := st.closed.take k ++ (st.closed.drop k).map fun (h : Held) => { h with curd := { h.curd with close := cause } } }

/-- The records of the old epoch, in their order, and the close of the curds: RPT, pending GAP, EPOCHEND. GAP records that cannot
be stored are admitted in the new epoch with PRIOR (05_records R128, R129; 01_unit_anatomy R21). -/
def State.leaveEpoch (s : State) (n T : Nat) (cause : BitVec 2) : State :=
  let k := (s.stn n).closed.length
  let s := s.dropRuns n rcEpoch
  let s := s.flushGaps n fun _ => true
  let s := s.captureEpoch n T
  let s := ((s.closeCur n cause).closeRsv n cause).closedBy n k cause
  s.modStn n fun st => { st with gaps := st.gaps.map fun g => { g with prior := true, due := true } }

/-- The first record of a unit after a boundary (05_records R129). -/
def State.epochStn (s : State) (n kind : Nat) (failed : Bool) (from_ to_ : BitVec 32) (bft missed : Nat) : State :=
  let s := s.modStn n fun st => { st with epoch := to_ }
  (s.admitRec n (mkRec .epoch (tflags [(kind, 6), (b1 failed, 5)]) (srcId n 0 0) (epochBody from_ to_ bft missed))).flushGaps n
    fun g => g.prior

/-! ## What a change of the registers does at a station -/

/-- A register's value differs from the one in a map of old values. -/
def State.movedIn (s : State) (old : SMap Word) (r : Reg) : Bool :=
  match sget old r.off with
  | some v => v != s.rd r
  | none => false

/-- Programmable counters whose configuration changed (03_counters R76). -/
def State.movedCtrs (s : State) (old : SMap Word) (n : Nat) : List Nat :=
  (List.range 256).filter fun k =>
    s.movedIn old (Kx.stnCsel n k) || s.movedIn old (Kx.stnCmst n k) || s.movedIn old (Kx.stnCwin n k)

/-- A window offset of the sequencer's or a comparator's registers (04_markers R105, Tables 4.6, 4.8-4.11). -/
def seqOff (y : Nat) : Bool :=
  decide (0x40 ≤ y ∧ y < 0x54) || decide (0x100 ≤ y ∧ y < 0x160) || decide (0x180 ≤ y ∧ y < 0x280)

/-- A register of the sequencer or of a comparator changed at station n (04_markers R105). -/
def State.movedSeq (s : State) (old : SMap Word) : Bool :=
  old.any fun e => decide (0x2000000 ≤ e.1) && seqOff (e.1 % 0x10000) && s.movedIn old (regAt e.1)

/-- The effects of a change of a station's registers, other than on its counters and its sequencer: the sampler is enabled, BW
windows that are off hold nothing, and the hub window is found anew (03_counters R79, R81; 09_churn R207). -/
def State.stnChanged (s : State) (old : SMap Word) (n : Nat) : State :=
  let was := (sget old (Kx.stnPcsCfg n).off).getD (s.rd (Kx.stnPcsCfg n))
  let s := if s.rb (Kx.stnPcsCfg n) 31 && !(was.getLsbD 31) then s.samplerEnable n else s
  let off := (List.range 4).filter fun a => !(s.rb (Kx.stnBwcfg n a) 31)
  let ports := off.flatMap fun a => s.slicePorts n a
  let s := s.modStn n fun st =>
    { st with bwAt := off.foldl (fun m a => sdel m a) st.bwAt, bw := st.bw.filter fun b => !(b.port ∈ ports) }
  s.noteHubWin s.now

/-! ## The swap -/

/-- Swap at station n: its copy edge for T is now. Counters whose configuration changed count from zero, and the EPOCH record goes ahead
of what INIT's entry actions form (11_management R272, 03_counters R76, 04_markers R105, 05_records R129). -/
def State.stnSwap (s : State) (n T : Nat) (to_ : BitVec 32) : State :=
  let from_ := (s.stn n).epoch
  let s := s.leaveEpoch n T closeEpoch
  let l := s.stagedFor (some n)
  let old := s.valuesOf l
  let s := s.activate l
  let ks := s.movedCtrs old n
  let s := s.modStn n fun st =>
    { st with
      prior := some (old, from_)
      saved := some (ks.map fun k => (k, sgetD st.cnt k 0))
      cnt := ks.foldl (fun m k => sdel m k) st.cnt
      seen := st.seen.filter fun k => !(k ∈ ks)
      wrap := st.wrap.filter fun k => !(k ∈ ks)
      pend := st.pend.filter fun p => !(p.key ∈ ks)
      seqrSaved := some st.seqr
      prep := none, go := none }
  let s := s.modPlan fun p =>
    { p with
      seqOld := sput p.seqOld n (sgetD p.seqBy n (0, 0))
      seqBy := match sget p.seqNew n with | some x => sput p.seqBy n x | none => p.seqBy }
  let s := (s.stnChanged old n).epochStn n ekCommit false from_ to_ T 0
  if s.movedSeq old then s.seqInit n (s.stnFt n) else s

/-- The boundary of a rollback at station n, for instant `bft` (11_management R273, 03_counters R76, 04_markers R105). -/
def State.stnRollback (s : State) (n bft : Nat) (to_ : BitVec 32) (missed : Nat) : State :=
  let from_ := (s.stn n).epoch
  let s := s.leaveEpoch n bft closeEpoch
  let st := s.stn n
  let s := match st.prior with
    | none => s
    | some (old, _) =>
      let cur := s.valuesOf (old.map fun (e : Nat × Word) => (e.1, e.2))
      let s := old.foldl (fun (s : State) (e : Nat × Word) => s.wr (regAt e.1) e.2) s
      let held := st.saved.getD []
      let s := s.modStn n fun st =>
        { st with
          cnt := held.foldl (fun (m : SMap Nat) (e : Nat × Nat) => snum m e.1 e.2) st.cnt
          pend := st.pend.filter fun p => !(held.any fun (e : Nat × Nat) => e.1 == p.key)
          seen := held.foldl (fun (l : List Nat) (e : Nat × Nat) => insertNew l e.1) st.seen
          seqr :=
            match st.seqrSaved with
            | some q => { q with tmr := q.tmr.map fun x => s.stnFt n + (x - s.plan.t) }
            | none => st.seqr }
      let s := s.modPlan fun p => { p with seqBy := sput p.seqBy n (sgetD p.seqOld n (0, 0)) }
      s.stnChanged cur n
  let s := s.modStn n fun st => { st with prior := none, saved := none, seqrSaved := none, prep := none, go := none, rbAt := none }
  s.epochStn n ekRollback true from_ to_ bft missed

/-- A station keeps the swap: its restore registers are free (11_management R272). -/
def State.stnKeep (s : State) (n : Nat) : State :=
  s.modStn n fun st => { st with prior := none, saved := none, seqrSaved := none }

/-! ## The hub -/

/-- The hub sources end their curds of the old epoch (01_unit_anatomy R21, 05_records R128). Source 0 ends its own when its EPOCH record is
admitted: records that wait for the standby's confirmation go before it (06_admission R138). -/
def State.hubLeave (s : State) (cause : BitVec 2) : State :=
  (List.range 7).foldl (fun (s : State) k => s.leaveSrc (k + 1) cause) s

/-- Keep the map of the epoch in force (12_isolation R287): with the present one, 16. -/
def State.keepMap (s : State) : State := s.modPlan fun p => { p with maps := ((p.epoch, s.regs) :: p.maps).take 15 }

/-- Units whose sealing was turned on start a chain (05_records R125); a change of CURVE restarts every chain under a new key
(12_isolation R297). -/
def State.sealMoved (s : State) (before : State) : State :=
  if s.sealP256 != before.sealP256 then s.endChains.sealKeygen
  else
    let on := (List.range 48).filter fun u => s.sealOn u && !(before.sealOn u)
    let s := { s with jrn := { s.jrn with chains := on.foldl (fun m u => sdel m u) s.jrn.chains
                                          gained := on.foldl (fun m u => sdel m u) s.jrn.gained } }
    if s.rb Kx.sealCfg 31 && !(before.rb Kx.sealCfg 31) then s.modSec fun c => { c with sealAt := s.now } else s

/-- BP and LINKPCT in force (06_admission Table 6.6). -/
def State.bpNow (s : State) : Nat := clamp1 400 (s.rf Kx.skmBudget 24 16)
def State.linkPct (s : State) : Nat := clampN 10 100 (s.rf Kx.skmBudget 15 8)

/-- The SKIM records of a commit that changes BP or LINKPCT (06_admission Table 6.5). -/
def State.budgetRecs (s : State) (before : State) (T : Nat) : State :=
  if s.bpNow = before.bpNow && s.linkPct = before.linkPct then s
  else
    let off := (s.measured.map fun (_, o) => o.total).sum / 10
    (s.skimRec lvBudget 0xFF 0xFF before.bpNow s.bpNow T off (s.budgetWin / 10)).skimRec lvLink 0xFF 0xFF before.linkPct s.linkPct T
      off (s.budgetWin / 10)

/-- What follows from the hub's registers as they stand after a boundary at `ft`. -/
def State.hubChanged (s : State) (before : State) (ft : Nat) : State :=
  (((s.sealMoved before).churnCommit before.regs ft)).noteHubWin ft

/-- What the swap changes of a station that takes no part: counters whose configuration changed count from zero, and its sequencer
records the scope of the last context that staged its registers (03_counters R76, 04_markers R100). -/
def State.awayMoved (s : State) (old : SMap Word) (n : Nat) : State :=
  let ks := s.movedCtrs old n
  let s := s.modStn n fun st =>
    { st with cnt := ks.foldl (fun m k => sdel m k) st.cnt, seen := st.seen.filter fun k => !(k ∈ ks),
              wrap := st.wrap.filter fun k => !(k ∈ ks), pend := st.pend.filter fun p => !(p.key ∈ ks) }
  s.modPlan fun p =>
    match sget p.seqNew n with
    | some x => { p with seqOld := sput p.seqOld n (sgetD p.seqBy n (0, 0)), seqBy := sput p.seqBy n x }
    | none => p

/-- The hub's RWP registers, and those of stations that take no part, swap at T (11_management R270, R272). -/
def State.hubSwap (s : State) : State :=
  if s.plan.hubSwapped || s.now < s.plan.t || s.plan.phase != .armed then s
  else
    let T := s.plan.t
    let from_ := s.plan.epoch
    let s := s.refill.hubLeave closeEpoch
    let before := s
    let s := s.keepMap
    let l := (s.plan.staged.filter fun x => (stnOfOff x.1).all fun n => !(n ∈ s.plan.parts)).map fun x => (x.1, x.2.1)
    let old := s.valuesOf l
    let s := (s.activate l).modPlan fun p => { p with hubSwapped := true, prior := some (old, from_), epoch := from_ + 1 }
    let s := ((s.dies.filter fun n => !(n ∈ s.plan.parts)).foldl (fun s n => s.awayMoved old n) s).pinsMoved T
    let s := (s.epochHub ekCommit false from_ (from_ + 1) T 0).nodeBoundary ekCommit from_ (from_ + 1)
    ((s.hubChanged before T).budgetRecs before T).repeatAnchor.measChange

/-- The hub's boundary of a rollback at `bft`, into epoch E + 2 (11_management R273). -/
def State.hubRollback (s : State) (bft missed : Nat) : State :=
  match s.plan.prior with
  | none => s
  | some (old, from_) =>
    let s := s.refill.hubLeave closeEpoch
    let before := s
    let s := s.keepMap
    let s := (old.foldl (fun (s : State) e => s.wr (regAt e.1) e.2) s).modPlan fun p =>
      { p with prior := none, epoch := from_ + 2 }
    let s := s.pinsMoved bft
    let s := (s.epochHub ekRollback true (from_ + 1) (from_ + 2) bft missed).nodeBoundary ekRollback (from_ + 1) (from_ + 2)
    ((s.hubChanged before bft).repeatAnchor).measChange

end Sys2Proof.Machine
end

