-- ==== Sys2Proof/Machine/Lease.lean ====
section
/-!
DEFINITION. The KX_SEM lease (11_management R258-R264).
-/

namespace Sys2Proof.Machine

/-! ## Holders -/

/-- OWNKIND of a register path; the debug port never holds the lease (17_setup_registers R383). -/
def okOfPort : Port → BitVec 3
  | .a => okPortA
  | .b => okPortB
  | .dbg => 0

/-- Change the lease. -/
def State.modLease (s : State) (f : Lease → Lease) : State := { s with lease := f s.lease }

/-- A release cause, as LASTREL holds it (11_management Table 11.2). -/
def relReleased : BitVec 3 := 1
def relExpired : BitVec 3 := 2
def relReset : BitVec 3 := 3
def relFault : BitVec 3 := 4
def relForced : BitVec 3 := 5

/-- A commit is in progress: the lease is pinned (11_management R264). -/
def State.pinned (s : State) : Bool :=
  match s.plan.phase with
  | .idle | .opened => false
  | .preparing | .armed | .recover => true

/-- Some service core of the active hub is halted (11_management R263). -/
def State.anyHalted (s : State) : Bool :=
  (List.range 8).any fun k => (sgetD s.pair.cores ((if s.pair.active = .a then 0 else 8) + k) {}).halted

/-- The lease timer stands still (11_management R263). -/
def State.leaseFrozen (s : State) : Bool := s.rb Kx.dbgCtl 31 && s.anyHalted

/-- Stop or resume the lease timer as LEASEFREEZE and the halted cores have it (11_management R263). -/
def State.noteFreeze (s : State) : State :=
  s.modLease fun l =>
    match l.frozenAt with
    | none => if s.leaseFrozen then { l with frozenAt := some s.now } else l
    | some a => if s.leaseFrozen then l else { l with frozenAt := none, ends := l.ends + (s.now - a) }

/-- The lease has run out (11_management R260, R264). -/
def State.leaseOver (s : State) : Bool :=
  s.lease.kind != 0 && !s.pinned && s.lease.frozenAt.isNone && s.lease.ends ≤ s.now

/-- REMAIN: ms left, rounded up (11_management Table 11.2). -/
def State.leaseLeft (s : State) : Nat :=
  if s.lease.kind = 0 then 0 else (s.lease.ends - (s.lease.frozenAt.getD s.now) + msT - 1) / msT

/-! ## The end of a transaction -/

/-- Discard the staged image: the plan is IDLE (11_management R262, R269). -/
def State.dropTxn (s : State) : State :=
  s.modPlan fun p =>
    { p with phase := .idle, staged := [], count := 0, seqNew := [], owner := none, auto := false, node := false, nodeGo := none
             nodeSwap := none, parts := [], answered := [], ready := [], swapped := [], hubSwapped := false, prior := none }

/-- Free the lease, recording the cause. -/
def State.freeLease (s : State) (cause : BitVec 3) : State :=
  s.modLease fun l => { l with kind := 0, id := 0, tag := 0, len := 0, ends := 0, frozenAt := none, forfeit := none, lastRel := cause }

/-- The holder that lost its lease learns of it from its next plan operation (11_management R262). -/
def State.noteLost (s : State) : State :=
  if s.lease.kind == okPortA then s.modLease fun l => { l with lostA := true }
  else if s.lease.kind == okPortB then s.modLease fun l => { l with lostB := true }
  else if s.lease.kind == okCtx then s.modCtx s.lease.id fun x => { x with leaseLost := true }
  else s

/-- An automatic release; while a commit pins the lease it waits for the outcome (11_management R262, R264). -/
def State.autoRelease (s : State) (cause : BitVec 3) : State :=
  if s.lease.kind = 0 then s
  else if s.pinned then s.modLease fun l => { l with forfeit := some (l.forfeit.getD cause) }
  else
    let l := s.lease
    let n := s.plan.count
    let s := (s.noteLost.dropTxn).freeLease cause
    let s := if cause == relExpired then s.setB Kx.semStatus 2 true else s
    s.faultEvent fcLease 0 0x40 (cause.toNat * 2 ^ 29 + l.kind.toNat * 2 ^ 26 + l.id * 2 ^ 14) s.now s.now n

/-- A holder resets or faults: the lease is released if it is that holder's (11_management Table 11.1). -/
def State.ownerGone (s : State) (kind : BitVec 3) (id : Nat) (cause : BitVec 3) : State :=
  if s.lease.kind == kind && s.lease.id == id then s.autoRelease cause else s

/-- Expiry, where it is due (11_management R262). -/
def State.expire (s : State) : State := if s.leaseOver then s.autoRelease relExpired else s

/-- Expiry in the hub cycle in which a commit is logged: expiry wins (11_management R264). -/
def State.expireFirst (s : State) : State :=
  if s.lease.kind != 0 && !s.pinned && s.lease.frozenAt.isNone && decide (hubCycle s.lease.ends ≤ hubCycle s.now) then
    s.autoRelease relExpired
  else s

/-- LEASE_EXPIRY. -/
def execLeaseExpiry (t : Nat) (s : State) : Host.Outcome State Fault Refusal := onHub t (fun s => s.expire) s

/-! ## Grants, renewals and releases -/

/-- A length asked for, in ms (11_management R260). -/
def leaseMs (v : Nat) : Nat := if v = 0 then 100 else min 1000 v

/-- Grant the lease. -/
def State.grantLease (s : State) (kind : BitVec 3) (id : Nat) (tag : BitVec 16) (ms : Nat) (port : Port) : State :=
  s.modLease fun l =>
    { l with kind := kind, id := id, tag := tag, len := ms, ends := s.now + ms * msT
             frozenAt := if s.leaseFrozen then some s.now else none, forfeit := none
             before := l.lastPort, lastPort := some port, cycle := hubCycle s.now }

/-- Restart the lease. -/
def State.renewLease (s : State) (ms : Nat) : State :=
  s.modLease fun l =>
    { l with len := ms, ends := s.now + ms * msT, frozenAt := l.frozenAt.map fun _ => s.now }

/-- Two ports asked for the free lease in one hub cycle, and the one that asked second did not have the grant before
(11_management R259). -/
def State.tieWon (s : State) (p : Port) : Bool :=
  s.lease.cycle = hubCycle s.now && (s.lease.kind == okPortA || s.lease.kind == okPortB) && s.plan.phase == .idle &&
    s.lease.lastPort != some p && s.lease.before.isSome && s.lease.before == s.lease.lastPort

/-- A write to KX_SEM_REQ (11_management R258-R260). -/
def State.semReqWrite (s : State) (p : Port) (v : Word) : State :=
  let s := s.expire
  let tag := BitVec.ofNat 16 (fld v 31 16)
  let ms := leaseMs (fld v 9 0)
  if okOfPort p = 0 then s
  else if s.lease.kind = 0 then s.grantLease (okOfPort p) 0 tag ms p
  else if s.lease.kind == okOfPort p then (if s.lease.tag == tag then s.renewLease ms else s)
  else if s.tieWon p then
    (s.modLease fun l => { l with lastPort := l.before }).grantLease (okOfPort p) 0 tag ms p
  else s

/-- SEM_REQUEST. -/
def execSemRequest (t : Nat) (port : Port) (value : Word) (s : State) : Host.Outcome State Fault Refusal :=
  onWrite t port Kx.semReq.off (fun s => s.notDbg port Kx.semReq.off fun s => s.semReqWrite port value) s

/-- A write to KX_SEM_REL; a pinned lease is not released (11_management R260, R264). -/
def State.semRelWrite (s : State) (p : Port) (v : Word) : State :=
  let s := s.expire
  if okOfPort p = 0 || s.lease.kind != okOfPort p || s.lease.tag.toNat != fld v 31 16 || s.pinned then s
  else s.dropTxn.freeLease relReleased

/-- SEM_RELEASE. -/
def execSemRelease (t : Nat) (port : Port) (value : Word) (s : State) : Host.Outcome State Fault Refusal :=
  onWrite t port Kx.semRel.off (fun s => s.notDbg port Kx.semRel.off fun s => s.semRelWrite port value) s

end Sys2Proof.Machine
end

