-- ==== Sys2Proof/Machine/Plans.lean ====
section
/-!
DEFINITION. Plan transactions: staging, commits, swaps and rollbacks (11_management R265-R277; 16_grayth R377).
-/

namespace Sys2Proof.Machine

/-! ## Who may stage what -/

/-- Every engine of station n belongs to context c's partition. -/
def State.ctxHasAll (s : State) (c n : Nat) : Bool := (s.wiredEngs n).all fun e => s.ctxHas c n e

/-- Every engine whose bit a word sets belongs to context c's partition (03_counters R85, 07_sequence_ledger R162). DESIGN CHOICE (log
entry 59): the bit of a tap that no engine is wired to names no engine, so it lies in every partition. -/
def State.ctxHasBits (s : State) (c n : Nat) (v : Word) : Bool :=
  (s.wiredEngs n).all fun e => !(v.getLsbD e) || s.ctxHas c n e

/-- Every engine that a funnel entry holding `v` can match belongs to context c's partition (04_markers R95). -/
def State.ctxHasEntry (s : State) (c n : Nat) (v : Word) : Bool :=
  let em := fld v 15 11
  !(v.getLsbD 31) || (s.wiredEngs n).all fun e => (e &&& em) != (fld v 20 16 &&& em) || s.ctxHas c n e

/-- The mesh lines that a word of the sequencer names (04_markers R100). -/
def meshNamed (y : Nat) (v : Word) : BitVec 8 :=
  if 0x100 ≤ y && y < 0x140 then BitVec.ofNat 8 (fld v 23 16)
  else if 0x140 ≤ y && y < 0x160 then BitVec.ofNat 8 (fld v 19 12)
  else if 0x48 ≤ y && y < 0x50 && 16 ≤ fld v 31 27 && fld v 31 27 < 24 then BitVec.ofNat 8 (2 ^ (fld v 31 27 - 16))
  else 0

/-- A partition register: KX_STN_PART or KX_SEC_PARTDEF (12_isolation Table 12.1). -/
def isPartReg (off : Nat) : Bool :=
  if 0x2000000 ≤ off then decide (0xE0 ≤ off % 0x10000 ∧ off % 0x10000 < 0x100) else decide (0xB140 ≤ off ∧ off < 0xB160)

/-- A write of KX_SEC_PARTDEF clears the bit of a partition that an open PARTITION context holds (12_isolation R286). -/
def State.partHeld (s : State) (off : Nat) (v : Word) : Bool :=
  decide (off < 0x2000000) && s.ctxs.any fun e =>
    e.2.st != csClosed && e.2.perm == 2 && e.2.part.toNat / 32 == (off - 0xB140) / 4 &&
      (s.rd (regAt off)).getLsbD (e.2.part.toNat % 32) && !(v.getLsbD (e.2.part.toNat % 32))

/-- A tenant context's staged write lies outside its scope: 03_counters R85; 04_markers R95, R100, R111; 06_admission R158;
07_sequence_ledger R162, R182; 08_tensor R204; 09_churn R226; 12_isolation Table 12.12. -/
def State.outOfScope (s : State) (c off : Nat) (v : Word) : Bool :=
  if off < 0x2000000 then !(decide (0x7220 ≤ off ∧ off < 0x7240))
  else
    let n := (off - 0x2000000) / 0x10000
    let y := off % 0x10000
    if y = 0x70 || (0xB0 ≤ y && y < 0xD0) then true
    else if y = 0x24 || (0x1400 ≤ y && y < 0x1800) then !(s.ctxHasBits c n v)
    else if seqOff y then
      !(s.ctxHasAll c n) || !(s.ctxOwns c (meshNamed y v)) || (decide (0x240 ≤ y) && !(s.ctxHasBits c n v))
    else if y = 0x60 || y = 0x6C then !(s.ctxHasBits c n v)
    else if 0x400 ≤ y && y < 0x500 then !(s.ctxHasEntry c n v)
    else false

/-- A write that asks for stall-on-full (04_markers R96). -/
def asksStall (off : Nat) (v : Word) : Bool :=
  decide (0x2000000 ≤ off) &&
    ((decide (0x400 ≤ off % 0x10000 ∧ off % 0x10000 < 0x500) && v.getLsbD 28) || (off % 0x10000 == 0x6C && v != 0))

/-- The result of a context's staged write that the checks refuse; none where it passes (11_management R267, R268). -/
def State.stageCheck (s : State) (c off : Nat) (v : Word) : Option Nat :=
  if off % 4 != 0 || (planRow off).isNone || (stnOfOff off).any (fun n => !(s.present n)) then some rBadReg
  else if isPartReg off then
    if (s.ctx c).perm != 1 then some rNoPriv else if s.partHeld off v then some rPartInUse else none
  else if (s.ctx c).perm != 0 && s.outOfScope c off v then some rScope
  else if asksStall off v && !((s.ctx c).stallp) then some rNoPriv
  else none

/-! ## The staged image -/

/-- BEGIN: the staged image and every shadow are the active image (11_management R266). -/
def State.openTxn (s : State) : State :=
  s.dropTxn.modPlan fun p => { p with phase := .opened }

/-- One staged write: it replaces an earlier one of the same register (11_management R267). -/
def State.stageWrite (s : State) (perm : BitVec 2) (part : BitVec 8) (off : Nat) (v : Word) : State :=
  s.modPlan fun p =>
    { p with
      staged := (p.staged.filter fun x => x.1 != off) ++ [(off, v, perm)]
      count := p.count + 1
      seqNew := match stnOfOff off with
        | some n => if seqOff (off % 0x10000) then sput p.seqNew n (perm, part) else p.seqNew
        | none => p.seqNew }

/-- The RWP registers of a station window, by offset. -/
def stnPlanOffs : List (Nat × Kx.Row) :=
  (List.range 4096).filterMap fun i =>
    ((Kx.findRow Kx.stnRows (4 * i)).filter fun r => r.rwp != 0).map fun r => (4 * i, r)

/-- The value of a station register in its shadow. -/
def State.shadow (s : State) (n y : Nat) : Word :=
  match s.plan.staged.find? fun x => x.1 == stnOff n y with
  | some x => s.planned x.1 x.2.1
  | none => s.rd (regAt (stnOff n y))

/-- The CRC-32C of a station's shadow over its RWP registers (11_management R271). -/
def State.shadowCrc (s : State) (n : Nat) : Word :=
  crc32c (stnPlanOffs.flatMap fun e => bytesOf32 (s.shadow n e.1 &&& BitVec.ofNat 32 e.2.rwp))

/-! ## Commits -/

/-- The participants of a commit (11_management R270, 14_startup R352). -/
def State.participants (s : State) : List Nat :=
  s.dies.filter fun n => s.reach n && decide (2 ≤ (s.stn n).servo.st.toNat)

/-- Send PREPARE for T: the lease is pinned (11_management R270). -/
def State.prepare (s : State) (T : Nat) (owner : Option (Nat × Nat × Bool)) (node : Bool) : State :=
  let parts := s.participants
  s.modPlan fun p =>
    { p with phase := .preparing, t := T, parts := parts, answered := [], ready := [], swapped := [], hubSwapped := false
             owner := owner, node := node, nodeGo := none, nodeSwap := none, rbWait := [] }

/-- T of a commit, or the result that refuses it (11_management R270). -/
def State.commitAt (s : State) (at_ : Nat) : Nat ⊕ Nat :=
  let T := if at_ = 0 then s.now + 4 * usT else at_
  if T < s.now + 4 * usT then .inr rTooSoon else if s.now + secT < T then .inr rTooFar else .inl T

/-- The bit map of a list of stations. -/
def mapOf (l : List Nat) : BitVec 40 := BitVec.ofNat 40 ((List.range 40).foldl (fun a n => a + if n ∈ l then 2 ^ n else 0) 0)

/-- The transaction ends and the lease is released (11_management R269, R272). -/
def State.endTxn (s : State) : State := s.dropTxn.freeLease relReleased

/-- The outcome of a commit, to its owner: a completion, or KX_OP_STATUS.RESULT; the scrub's plan reports to the scrub (12_isolation R303). -/
def State.commitDone (s : State) (res v0 v1 : Nat) : State :=
  match s.plan.owner with
  | some (c, seq, irq) => s.post { ctx := c, seq := seq, irq := irq } opPlanCommit res v0 v1 0
  | none =>
    s.modPlan fun p => if s.lease.kind == okFw then { p with scrubRes := some res } else { p with result := BitVec.ofNat 8 res }

/-- Set KX_OP_STATUS.RESULT. -/
def State.opResult (s : State) (res : Nat) : State := s.modPlan fun p => { p with result := BitVec.ofNat 8 res }

/-- An automatic transaction opens, stages and commits at the earliest T (16_grayth R377). -/
def State.autoTxn (s : State) (l : List (Nat × Word)) : State :=
  let s := if s.lease.kind = 0 then s.grantLease okPortA 0 0x4754 100 .a else s
  let s := l.foldl (fun (s : State) (x : Nat × Word) => s.stageWrite 0 0 x.1 x.2) s.openTxn
  (s.prepare (s.now + 4 * usT) none false).modPlan fun p => { p with auto := true, autoAt := hubCycle s.now, autoHeld := [] }

/-- At the outcome of an automatic transaction the writes held start the next (16_grayth R377). -/
def State.autoNext (s : State) (auto : Bool) : State :=
  if auto && !s.plan.autoHeld.isEmpty then s.autoTxn s.plan.autoHeld else s

/-- The commit did not prepare: the transaction stays open; a lease that its owner forfeited meanwhile ends now
(11_management R264, R271; 16_grayth R377). -/
def State.notReady (s : State) : State :=
  let m := mapOf (s.plan.parts.filter fun n => !(n ∈ s.plan.ready))
  let auto := s.plan.auto
  let s := s.commitDone rNotReady m.toNat s.plan.epoch.toNat
  let s := { s with stns := s.stns.map fun (e : Nat × Stn) => (e.1, { e.2 with prep := none, go := none }) }
  let s := s.modPlan fun p =>
    { p with phase := .opened, map := m, owner := none, parts := [], answered := [], ready := [], node := false, nodeGo := none }
  if auto then (s.endTxn.setB Kx.glbGrayStat 14 true).autoNext true
  else match s.lease.forfeit with
    | some c => s.autoRelease c
    | none => s

/-- The permission that last staged each register (12_isolation R303). -/
def State.markStaged (s : State) : State :=
  s.modPlan fun p =>
    { p with stagedBy := p.staged.foldl (fun l x => (l.filter fun y => y.1 != x.1) ++ [(x.1, x.2.2)]) p.stagedBy }

/-- Every participant has swapped: OK at T + 1 µs (11_management R272). -/
def State.commitOk (s : State) : State :=
  let auto := s.plan.auto
  let s := s.markStaged
  let s := s.plan.parts.foldl (fun (s : State) (n : Nat) => s.stnKeep n) s
  (((s.commitDone rOk s.plan.t s.plan.epoch.toNat).modPlan fun p => { p with map := 0 }).endTxn).autoNext auto

/-! ## Commands of contexts -/

/-- A context holds the lease. -/
def State.ctxHolds (s : State) (c : Nat) : Bool := s.lease.kind == okCtx && s.lease.id == c

/-- The port that a context's requests count as (11_management R259). -/
def State.ctxPort (s : State) (c : Nat) : Port := if (s.ctx c).ringloc then .b else .a

/-- A plan operation of a context; the first after the loss of its lease completes NOLEASE (11_management R262). -/
def State.planOp (s : State) (q : CmdRef) (op : Nat) (f : State → State) : State :=
  let s := s.expire
  if (s.ctx q.ctx).leaseLost then (s.modCtx q.ctx fun x => { x with leaseLost := false }).post q op rNoLease 0 0 0 else f s

/-- A plan operation that needs the context's own open transaction (11_management R269, Table 11.4). -/
def State.txnOp (s : State) (q : CmdRef) (op : Nat) (f : State → State) : State :=
  s.planOp q op fun s =>
    if !(s.ctxHolds q.ctx) || s.plan.phase = .idle then s.post q op rNoTxn 0 0 0
    else if s.pinned then s.post q op rCommitting 0 0 0
    else f s

/-- PLAN_BEGIN (11_management R259, R260, R266). -/
def State.effPlanBegin (s : State) (q : CmdRef) (ms : Nat) : State :=
  s.planOp q opPlanBegin fun s =>
    let s := if s.tieWon (s.ctxPort q.ctx) then s.modLease fun l => { l with kind := 0, lastPort := l.before } else s
    if s.lease.kind = 0 then
      let tmax := clampN 1 1000 (s.rf Kx.semCfg 9 0)
      let len := if s.isOper q.ctx then leaseMs ms else min tmax (leaseMs ms)
      let s := (s.grantLease okCtx q.ctx 0 len (s.ctxPort q.ctx)).openTxn
      s.post q opPlanBegin rOk s.lease.ends s.plan.epoch.toNat 0
    else if !(s.ctxHolds q.ctx) then s.post q opPlanBegin rSemBusy 0 0 0
    else if s.pinned then s.post q opPlanBegin rCommitting 0 0 0
    else s.post q opPlanBegin rTxnOpen 0 0 0

/-- PLAN_BEGIN. -/
def execPlanBegin (t : Nat) (q : CmdRef) (ms : BitVec 10) (s : State) : Host.Outcome State Fault Refusal :=
  onCmd t q (fun s => s.effPlanBegin q ms.toNat) s

/-- The first write of a list that the checks refuse: its index and result. -/
def State.firstBad (s : State) (c : Nat) : Nat → List (Word × Word) → Option (Nat × Nat)
  | _, [] => none
  | i, x :: l =>
    match s.stageCheck c x.1.toNat x.2 with
    | some r => some (i, r)
    | none => s.firstBad c (i + 1) l

/-- PLAN_STAGE: all or nothing, inline writes first (11_management R268). -/
def State.effPlanStage (s : State) (q : CmdRef) (inl : List (Word × Word)) (list : Option (List (Word × Word))) : State :=
  s.txnOp q opPlanStage fun s =>
    if 4 < inl.length then s.post q opPlanStage rBadArg 0 0 0
    else match s.firstBad q.ctx 0 inl, list with
      | some (i, r), _ => s.post q opPlanStage r s.plan.count i 0
      | none, none => s.post q opPlanStage rListErr s.plan.count inl.length 0
      | none, some l =>
        match s.firstBad q.ctx inl.length l with
        | some (i, r) => s.post q opPlanStage r s.plan.count i 0
        | none =>
          let x := s.ctx q.ctx
          let s := (inl ++ l).foldl (fun (s : State) (w : Word × Word) => s.stageWrite x.perm x.part w.1.toNat w.2) s
          (s.renewLease s.lease.len).post q opPlanStage rOk s.plan.count 0 (inl.length + l.length)

/-- PLAN_STAGE. -/
def execPlanStage (t : Nat) (q : CmdRef) (inline_ : List (Word × Word)) (list : Option (List (Word × Word))) (s : State) :
    Host.Outcome State Fault Refusal :=
  onCmd t q (fun s => s.effPlanStage q inline_ list) s

/-- PLAN_COMMIT (11_management R270). -/
def State.effPlanCommit (s : State) (q : CmdRef) (at_ : Nat) : State :=
  s.expireFirst.txnOp q opPlanCommit fun s =>
    match s.commitAt at_ with
    | .inr r => s.post q opPlanCommit r 0 0 0
    | .inl T => s.prepare T (some (q.ctx, q.seq, q.irq)) false

/-- PLAN_COMMIT. -/
def execPlanCommit (t : Nat) (q : CmdRef) (at_ : BitVec 64) (s : State) : Host.Outcome State Fault Refusal :=
  onCmd t q (fun s => s.effPlanCommit q at_.toNat) s

/-- PLAN_ROLLBACK (11_management R269). -/
def State.effPlanRollback (s : State) (q : CmdRef) (force : Bool) : State :=
  if force && !(s.isOper q.ctx) then s.post q opPlanRollback rNoPriv 0 0 0
  else if force && !(s.ctxHolds q.ctx) then
    s.planOp q opPlanRollback fun s =>
      if s.lease.kind = 0 then s.post q opPlanRollback rNoTxn 0 0 0
      else if s.pinned then s.post q opPlanRollback rCommitting 0 0 0
      else
        let n := s.plan.count
        (s.autoRelease relForced).post q opPlanRollback rOk s.now n 0
  else
    s.txnOp q opPlanRollback fun s =>
      let n := s.plan.count
      s.endTxn.post q opPlanRollback rOk s.now n 0

/-- PLAN_ROLLBACK. -/
def execPlanRollback (t : Nat) (q : CmdRef) (force : Bool) (s : State) : Host.Outcome State Fault Refusal :=
  onCmd t q (fun s => s.effPlanRollback q force) s

/-! ## The register path -/

/-- A register path's lease ended since its last plan operation (11_management R262). -/
def State.portLost (s : State) (p : Port) : Bool :=
  match p with | .a => s.lease.lostA | .b => s.lease.lostB | .dbg => false

/-- A plan operation of a register path (11_management R262). -/
def State.portOp (s : State) (p : Port) (f : State → State) : State :=
  let s := s.expire
  if p = .dbg then s.accErr aeDbgWr p Kx.opCtl.off
  else if s.portLost p then
    (s.modLease fun l => if p = .a then { l with lostA := false } else { l with lostB := false }).opResult rNoLease
  else f s

/-- A plan operation on the register path's own transaction. -/
def State.portTxn (s : State) (p : Port) (f : State → State) : State :=
  s.portOp p fun s =>
    if s.lease.kind != okOfPort p || s.plan.phase = .idle then s.opResult rNoTxn
    else if s.pinned then s.opResult rCommitting
    else f s

/-- OP = BEGIN (11_management R266). -/
def State.portBegin (s : State) (p : Port) : State :=
  s.portOp p fun s =>
    if s.lease.kind != okOfPort p then (if s.lease.kind = 0 then s.opResult rNoLease else s.opResult rSemBusy)
    else if s.pinned then s.opResult rCommitting
    else if s.plan.phase = .opened then s.opResult rTxnOpen
    else s.openTxn.opResult rOk

/-- OP = COMMIT (11_management R270). -/
def State.portCommit (s : State) (p : Port) : State :=
  s.expireFirst.portTxn p fun s =>
    match s.commitAt (s.rd64 Kx.opTLo Kx.opTHi) with
    | .inr r => s.opResult r
    | .inl T => s.prepare T none false

/-- OP = ROLLBACK (11_management R269). -/
def State.portRollback (s : State) (p : Port) (force : Bool) : State :=
  if force && s.lease.kind != okOfPort p then
    s.portOp p fun s =>
      if s.lease.kind = 0 then s.opResult rNoTxn
      else if s.pinned then s.opResult rCommitting
      else (s.autoRelease relForced).opResult rOk
  else if force && s.plan.phase = .idle then
    s.portOp p fun s => if s.lease.kind = 0 then s.opResult rNoTxn else (s.autoRelease relForced).opResult rOk
  else s.portTxn p fun s => s.endTxn.opResult rOk

/-- A write to KX_OP_CTL. -/
def State.opCtlWrite (s : State) (p : Port) (v : Word) : State :=
  match fld v 31 30 with
  | 1 => s.portBegin p
  | 2 => s.portCommit p
  | 3 => s.portRollback p (v.getLsbD 29)
  | _ => s

/-- OP_BEGIN. -/
def execOpBegin (t : Nat) (port : Port) (s : State) : Host.Outcome State Fault Refusal :=
  onWrite t port Kx.opCtl.off (fun s => s.portBegin port) s

/-- OP_COMMIT. -/
def execOpCommit (t : Nat) (port : Port) (s : State) : Host.Outcome State Fault Refusal :=
  onWrite t port Kx.opCtl.off (fun s => s.portCommit port) s

/-- OP_ROLLBACK. -/
def execOpRollback (t : Nat) (port : Port) (force : Bool) (s : State) : Host.Outcome State Fault Refusal :=
  onWrite t port Kx.opCtl.off (fun s => s.portRollback port force) s

/-- PREPARE of an automatic transaction goes at the end of the hub cycle of its first write, so the writes of that cycle join the
staged image (16_grayth R377; DESIGN CHOICE, log entry 70). -/
def State.autoJoins (s : State) : Bool :=
  s.plan.auto && s.plan.phase == .preparing && s.plan.autoAt == hubCycle s.now && s.plan.parts.all fun n => (s.stn n).prep.isNone

/-- An RWP write while an automatic transaction may serve it (16_grayth R377). -/
def State.autoWrite (s : State) (off : Nat) (v : Word) : State :=
  if s.autoJoins then s.stageWrite 0 0 off v
  else if s.pinned then
    if s.plan.autoHeld.length < 64 then s.modPlan fun p => { p with autoHeld := p.autoHeld ++ [(off, v)] }
    else s.incF Kx.glbGrayStat 23 16 1
  else s.autoTxn [(off, v)]

/-- AUTOCOMMIT serves an RWP write of the Port A register path: no transaction is open but an automatic one, and no other holder
has the lease (16_grayth R377). -/
def State.autoServes (s : State) (p : Port) : Bool :=
  p == .a && s.rb Kx.glbGrayCfg 30 && !(p ∈ s.lease.fence) && (s.lease.kind = 0 || s.lease.kind == okPortA) &&
    (s.plan.phase == .idle || s.plan.auto)

/-- A whole RWP register written on a register path: staged, or dropped with exactly one of DENIED, NOTXN and COMMITTING
(11_management R261, R267; 12_isolation R286; 17_setup_registers R385). -/
def State.rwpWrite (s : State) (p : Port) (off : Nat) (v : Word) : State :=
  let s := s.expire
  if isPartReg off then s.denied
  else if s.autoServes p then s.autoWrite off v
  else if !(s.holdsLease p) then s.denied
  else match s.plan.phase with
    | .idle => s.setB Kx.opStatus 23 true
    | .opened => s.stageWrite 0 0 off v
    | _ => s.accErr aeCommitting p off

/-! ## PREPARE, GO and the swap -/

/-- PREPARE_RECEIVED: the station holds it and answers READY (11_management R271). -/
def execPrepareReceived (t : Nat) (die : Fin 40) (s : State) : Host.Outcome State Fault Refusal :=
  onHub t (fun s =>
    if s.plan.phase = .preparing && die.val ∈ s.plan.parts && s.reach die then
      s.modStn die fun st => { st with prep := some s.plan.t, go := none }
    else s) s

/-- READY_RECEIVED: it counts with the CRC of the plan store, before T − 1 µs (11_management R271). -/
def execReadyReceived (t : Nat) (die : Fin 40) (crc : BitVec 32) (s : State) : Host.Outcome State Fault Refusal :=
  onHub t (fun s =>
    if s.plan.phase = .preparing && die.val ∈ s.plan.parts && (s.stn die).prep = some s.plan.t && !(die.val ∈ s.plan.answered) then
      let ok := decide (s.now + usT < s.plan.t) && crc == s.shadowCrc die
      let s := s.modPlan fun p =>
        { p with answered := p.answered ++ [die.val], ready := if ok then p.ready ++ [die.val] else p.ready }
      if s.plan.node && !s.node.isHead && s.plan.parts.all (fun n => decide (n ∈ s.plan.ready)) then
        s.emit (.nodeMsg (s.node.head.getD 0) nmReady s.plan.t 0)
      else s
    else s) s

/-- A participant of a node commit that is not the head reports to it (13_node R325). -/
def State.nodeReport (s : State) (what : Nat) : State :=
  if s.plan.node && !s.node.isHead then s.emit (.nodeMsg (s.node.head.getD 0) nmReport what s.plan.t) else s

/-- COMMIT_GO: at T − 1 µs, GO to every participant, or NOTREADY. A node commit also needs the node GO (11_management R271,
13_node R325). -/
def execCommitGo (t : Nat) (s : State) : Host.Outcome State Fault Refusal :=
  onHub t (fun s =>
    if s.plan.phase != .preparing || s.now + usT < s.plan.t then s
    else if s.plan.parts.all (fun n => decide (n ∈ s.plan.ready)) && (!s.plan.node || s.plan.nodeGo = some true) then
      s.modPlan fun p => { p with phase := .armed }
    else (s.nodeReport nrNoGo).notReady) s

/-- GO_RECEIVED: a GO after the station's copy edge is discarded (11_management R272). -/
def execGoReceived (t : Nat) (die : Fin 40) (s : State) : Host.Outcome State Fault Refusal :=
  onHub t (fun s =>
    if s.plan.phase = .armed && s.reach die && (s.stn die).prep = some s.plan.t && s.stnFt die ≤ s.plan.t then
      s.modStn die fun st => { st with go := some s.plan.t }
    else s) s

/-- STATION_SWAP: the copy edge of a station that holds GO; SWAPPED reaches the hub, where one serves (11_management R272, R275). -/
def execStationSwap (t : Nat) (die : Fin 40) (s : State) : Host.Outcome State Fault Refusal :=
  onStn t die (fun s =>
    let open_ := s.plan.phase == .armed || s.plan.phase == .recover
    if open_ && (s.stn die).go = some s.plan.t && s.plan.t ≤ s.stnFt die then
      let s := if s.hubOn then s.hubSwap else s
      let e := match s.plan.prior with | some x => x.2 | none => s.plan.epoch
      let s := s.stnSwap die s.plan.t (e + 1)
      if s.hubOn && decide (s.now ≤ s.plan.t + usT) then s.modPlan fun p => { p with swapped := p.swapped ++ [die.val] } else s
    else s) s

/-- The participants that have not reported SWAPPED. -/
def State.missed (s : State) : List Nat := s.plan.parts.filter fun n => !(n ∈ s.plan.swapped)

/-- COMMIT_CHECK: at T + 1 µs the commit is OK, or ROLLBACK is sent for T + 2 µs (11_management R272, R273). In a node commit the
participant waits for the node outcome (13_node R326). -/
def execCommitCheck (t : Nat) (s : State) : Host.Outcome State Fault Refusal :=
  onHub t (fun s =>
    if s.plan.phase != .armed || s.plan.nodeSwap.isSome || s.now < s.plan.t + usT then s
    else
      let s := s.hubSwap
      if s.missed.isEmpty then
        if s.plan.node then (s.nodeReport nrSwapped).modPlan fun p => { p with nodeSwap := some true } else s.commitOk
      else
        s.modPlan fun p =>
          { p with phase := .recover, rbAt := p.t + 2 * usT, rbWait := p.parts, rbFrom := p.epoch - 1, rbMissed := mapOf s.missed }) s

/-- A station applies the last rollback (11_management R273). -/
def State.applyRollback (s : State) (n bft : Nat) : State :=
  (s.stnRollback n bft (s.plan.rbFrom + 2) s.plan.rbMissed.toNat).modPlan fun p =>
    { p with rbWait := p.rbWait.filter fun k => k != n }

/-- ROLLBACK_RECEIVED: before T + 2 µs the station waits for that instant; after it, it applies the boundary at once
(11_management R273). -/
def execRollbackReceived (t : Nat) (die : Fin 40) (s : State) : Host.Outcome State Fault Refusal :=
  onHub t (fun s =>
    if die.val ∈ s.plan.rbWait && s.stnOn die && s.reach die then
      if s.now ≤ s.plan.rbAt then s.modStn die fun st => { st with rbAt := some s.plan.rbAt }
      else if (s.stn die).rbAt.isSome then s
      else s.applyRollback die (s.stnFt die)
    else s) s

/-- The rollback boundary of the hub and of every station that has the order (11_management R273). -/
def State.rollbackAll (s : State) : State :=
  let s := (s.plan.rbWait.filter fun n => (s.stn n).rbAt.isSome).foldl (fun (s : State) (n : Nat) => s.applyRollback n s.plan.rbAt) s
  s.hubRollback s.plan.rbAt s.plan.rbMissed.toNat

/-- SWAPMISS: the commit completes, the transaction ends and the lease is released (11_management R273). -/
def State.swapMissed (s : State) : State :=
  let auto := s.plan.auto
  (((s.commitDone rSwapMiss s.plan.rbMissed.toNat (s.plan.rbFrom + 2).toNat).modPlan fun p =>
    { p with map := p.rbMissed }).endTxn).autoNext auto

/-- ROLLBACK_BOUNDARY (11_management R273; 13_node R326). -/
def execRollbackBoundary (t : Nat) (s : State) : Host.Outcome State Fault Refusal :=
  onHub t (fun s =>
    if s.plan.phase != .recover || s.plan.nodeSwap.isSome || s.now < s.plan.rbAt then s
    else
      let s := s.rollbackAll
      let (d, s) := s.draws 2
      let s := s.faultEvent fcSwapMissed ((d.getD 0 0).toNat % 65536) ((d.getD 1 0).toNat % 256) (s.plan.rbFrom + 1).toNat
        s.plan.t s.plan.rbMissed.toNat s.plan.t
      if s.plan.node then (s.nodeReport nrSwapMiss).modPlan fun p => { p with nodeSwap := some false } else s.swapMissed) s

end Sys2Proof.Machine
end

