-- ==== Sys2Proof/Machine/Ctx.lean ====
section
/-!
DEFINITION. Observation contexts: opening, closing, running, doorbells, subscriptions and aborts (10_contexts R229-R235,
R247-R255).
-/

namespace Sys2Proof.Machine

/-! ## NOP and ABORT -/

/-- NOP (10_contexts Table 10.7). -/
def State.effNop (s : State) (q : CmdRef) : State := s.post q opNop rOk s.now 0 0

/-- NOP. -/
def execNop (t : Nat) (q : CmdRef) (s : State) : Host.Outcome State Fault Refusal := onCmd t q (fun s => s.effNop q) s

/-- Drop a query in progress (10_contexts Table 10.13). -/
def State.dropQuery (s : State) (id : Nat) : State :=
  { s with churn := { s.churn with qs := s.churn.qs.filter fun y => y.id != id } }

/-- Drop a scheduled snapshot at the hub and at every station (10_contexts Table 10.13). -/
def State.dropSnap (s : State) (id : BitVec 32) : State :=
  let s := { s with snaps := s.snaps.filter fun y => y.id != id }
  { s with stns := s.stns.map fun (e : Nat × Stn) => (e.1, { e.2 with snaps := e.2.snaps.filter fun x => x.1 != id }) }

/-- A snapshot has not reached its decision point (10_contexts Table 10.13). -/
def State.snapOpen (s : State) (x : Snap) : Bool := decide (s.now + 2 * usT < x.t)

/-- A context's QUERY or SNAPSHOT that an abort still ends: its SEQ, IRQ and OPCODE, and the state without it. -/
def State.abortable (s : State) (c seq : Nat) : Option (State × CmdRef × Nat) :=
  match s.churn.qs.find? fun y => y.ctx == c && y.seq == seq && y.from_.isNone with
  | some y => some (s.dropQuery y.id, { ctx := c, seq := seq, irq := y.irq }, opQuery)
  | none =>
    match s.snaps.find? fun x => x.asker.any (fun a => a.1 == c && a.2.1 == seq) && s.snapOpen x with
    | some x => some (s.dropSnap x.id, { ctx := c, seq := seq, irq := x.asker.any (·.2.2) }, opSnapshot)
    | none => none

/-- A command of a context that waits for its completion, outside the log: a QUERY, a SNAPSHOT, a PLAN_COMMIT, a key command or
a TENANT_DETACH. -/
def State.waiting (s : State) (c : Nat) : List (CmdRef × Nat) :=
  let r := fun (seq : Nat) (irq : Bool) => ({ ctx := c, seq := seq, irq := irq } : CmdRef)
  ((s.churn.qs.filter fun y => y.ctx == c && y.from_.isNone).map fun y => (r y.seq y.irq, opQuery)) ++
    (s.snaps.filterMap fun x => (x.asker.filter fun a => a.1 == c).map fun a => (r a.2.1 a.2.2, opSnapshot)) ++
    ((s.plan.owner.filter fun o => o.1 == c).toList.map fun o => (r o.2.1 o.2.2, opPlanCommit)) ++
    ((s.sec.ops.filter fun o => (o.kind == .register || o.kind == .sign) && o.ctx == c && !o.dead).map fun o =>
      (r o.seq o.irq, opKeyRegister)) ++
    ((s.sec.scrubBy.filter fun o => o.1 == c).toList.map fun o => (r o.2.1 o.2.2, opTenantDetach))

/-- ABORT (10_contexts R247). -/
def State.effAbort (s : State) (q : CmdRef) (target : Nat) : State :=
  let d := (q.seq + 2 ^ 64 - target) % 2 ^ 64
  let c := q.ctx
  let late := s.post q opAbort rAbortLate target 0 0
  if d = 0 || 64 < d then s.post q opAbort rNotFound target 0 0
  else match s.abortable c target with
    | some (s, r, op) => (s.post r op rAborted 0 0 0).post q opAbort rOk target 0 0
    | none =>
      match (s.ctx c).log.find? fun e => e.seq == target with
      | some e =>
        if e.first.isSome then late
        else s.modCtx c fun x =>
          { x with log := x.log.map fun e => if e.seq = target then { e with aborts := e.aborts ++ [(q.seq, q.irq)] } else e }
      | none => late

/-- ABORT. -/
def execAbort (t : Nat) (q : CmdRef) (target : BitVec 64) (s : State) : Host.Outcome State Fault Refusal :=
  onCmd t q (fun s => s.effAbort q target.toNat) s

/-! ## Subscriptions -/

/-- A record ring's subscription ends: its LAPPED notice and its END entry wait for their places (10_contexts R249). -/
def State.endSub (s : State) (c n : Nat) : State :=
  match s.subOf (.ring c n) with
  | none => s
  | some x =>
    let s := { s with subs := s.subs.filter fun y => y.sink != Sink.ring c n }
    s.modRing c n fun r =>
      { r with due := r.due ++ (match x.lap with | some (a, b) => [(false, a, b)] | none => []) ++ [(true, x.cursor, 0)] }

/-- The first index of a subscription; a tenant's is not below TFLOOR (06_admission Table 6.3, 12_isolation R289). -/
def State.subStart (s : State) (oper : Bool) (a : SubArgs) : Nat :=
  let floor := if oper then s.oldest else max s.oldest s.sec.tfloor
  if a.start = 0 then s.jrn.widx else if a.start = 1 then floor else max floor a.startIdx

/-- Begin a subscription at an index. -/
def State.beginSub (s : State) (k : Sink) (a : SubArgs) (at_ : Nat) : State :=
  { s with subs := s.subs.filter (fun x => x.sink != k) ++ [{ sink := k, args := a, cursor := at_, next := at_ }] }

/-- SUBSCRIBE (10_contexts R249). A ring that node aggregation holds is not free (13_node R321). -/
def State.effSubscribe (s : State) (q : CmdRef) (n : Nat) (a : SubArgs) : State :=
  let c := q.ctx
  if !(s.rb (Kx.ctxRecCfg c n) 31) || a.start = 3 || s.nodeRing = some (c, n) then s.post q opSubscribe rBadArg 0 0 0
  else
    let at_ := s.subStart (s.isOper c) a
    let s := (s.endSub c n).beginSub (.ring c n) a at_
    let s := if c < 16 then s.measChange else s
    s.post q opSubscribe rOk at_ 0 0

/-- SUBSCRIBE. -/
def execSubscribe (t : Nat) (q : CmdRef) (ring : Fin 8) (a : SubArgs) (s : State) : Host.Outcome State Fault Refusal :=
  onCmd t q (fun s => s.effSubscribe q ring a) s

/-- UNSUBSCRIBE (10_contexts R249). -/
def State.effUnsubscribe (s : State) (q : CmdRef) (n : Nat) : State :=
  let c := q.ctx
  match s.subOf (.ring c n) with
  | none => s.post q opUnsubscribe rBadArg 0 0 0
  | some x =>
    let s := s.endSub c n
    let s := if c < 16 then s.measChange else s
    s.post q opUnsubscribe rOk x.cursor 0 0

/-- UNSUBSCRIBE. -/
def execUnsubscribe (t : Nat) (q : CmdRef) (ring : Fin 8) (s : State) : Host.Outcome State Fault Refusal :=
  onCmd t q (fun s => s.effUnsubscribe q ring) s

/-! ## Opening, modifying and closing -/

/-- The ring configuration registers of a context take their reset values (10_contexts R231). -/
def State.clearCfg (s : State) (c : Nat) : State :=
  let b := 0x1000000 + 0x1000 * c
  { s with regs := s.regs.filter fun e => !(decide (b + 0x80 ≤ e.1 ∧ e.1 < b + 0x200)) }

/-- CTX_OPEN's own checks, in order (10_contexts R231, 12_isolation R285). -/
def State.openCheck (s : State) (a : CtxArgs) : Option Nat :=
  let c := a.ctx.toNat
  if c < 16 || a.perm = 3 || (a.perm = 2 && !(s.partDefined a.part.toNat)) || a.ringloc then some rBadArg
  else if a.perm != 0 && s.sec.tstate = 0 then some rNoTenant
  else if a.perm != 0 && s.sec.tstate = 2 then some rScrubbing
  else if (s.ctx c).st != csClosed then some rCtxBusy
  else none

/-- CTX_OPEN (10_contexts R231). -/
def State.effCtxOpen (s : State) (q : CmdRef) (a : CtxArgs) : State :=
  s.issue q opCtxOpen true fun s =>
    match s.openCheck a with
    | some r => s.post q opCtxOpen r a.ctx.toNat 0 0
    | none =>
      let s := (s.clearCfg a.ctx.toNat).modCtx a.ctx.toNat fun _ =>
        { st := csStopped, perm := a.perm, stallp := a.stallp, pasiden := a.pasiden, pasid := a.pasid, part := a.part
          share := a.share, ringDirty := true, seqDirty := true }
      s.measChange.post q opCtxOpen rOk a.ctx.toNat 0 0

/-- CTX_OPEN. -/
def execCtxOpen (t : Nat) (q : CmdRef) (a : CtxArgs) (s : State) : Host.Outcome State Fault Refusal :=
  onCmd t q (fun s => s.effCtxOpen q a) s

/-- CTX_MODIFY (10_contexts R231). -/
def State.effCtxModify (s : State) (q : CmdRef) (a : CtxArgs) : State :=
  s.issue q opCtxModify true fun s =>
    let c := a.ctx.toNat
    if (s.ctx c).st = csClosed then s.post q opCtxModify rBadArg c 0 0
    else
      let s := s.modCtx c fun x =>
        let x := { x with share := a.share, stallp := a.stallp }
        if c < 16 && x.st = csStopped then { x with ringloc := a.ringloc, pasiden := a.pasiden, pasid := a.pasid } else x
      s.measChange.post q opCtxModify rOk c 0 0

/-- CTX_MODIFY. -/
def execCtxModify (t : Nat) (q : CmdRef) (a : CtxArgs) (s : State) : Host.Outcome State Fault Refusal :=
  onCmd t q (fun s => s.effCtxModify q a) s

/-- Place what an ended subscription still owes a ring, as far as the ring can take it (10_contexts R231, R249). -/
def State.placeDue : Nat → State → Nat → Nat → State
  | 0, s, _, _ => s
  | k + 1, s, c, n =>
    match (s.ring c n).due with
    | [] => s
    | (isEnd, a, b) :: l =>
      if !(s.rb (Kx.ctxRecCfg c n) 31) || (s.ctx c).ringDirty || s.recSize c n ≤ (s.ring c n).used then s
      else
        let s := s.modRing c n fun r => { r with due := l }
        State.placeDue k (if isEnd then s.putEntry c n ekEnd a 0 0 none else s.putLapped c n a b) c n

/-- The waiting commands of a context complete ABORTED; a PLAN_COMMIT runs to its outcome, and a KEY_REGISTER stores nothing
(10_contexts R231; 11_management R274; 12_isolation R303). -/
def State.abortAll (s : State) (c : Nat) : State :=
  let w := (s.waiting c).filter fun x => x.2 != opPlanCommit
  let logged := ((s.ctx c).log.filter fun e => e.first.isNone && e.logged).map fun e =>
    ({ ctx := c, seq := e.seq, irq := (e.words.getD 1 0).getLsbD 47 }, bitsOf (e.words.getD 1 0).toNat 63 48)
  let l := w ++ logged.filter fun x => x.2 != opPlanCommit && !(w.any fun y => y.1.seq == x.1.seq)
  let s := { s with churn := { s.churn with qs := s.churn.qs.filter fun y => y.ctx != c || y.from_.isSome } }
  let s := (s.snaps.filter fun x => x.asker.any fun a => a.1 == c).foldl (fun (s : State) (x : Snap) =>
    if s.snapOpen x then s.dropSnap x.id else s.modSnap x.id fun x => { x with asker := none }) s
  let s := s.modSec fun k =>
    { k with ops := k.ops.map fun (o : SealOp) => if (o.kind == .register || o.kind == .sign) && o.ctx == c then { o with dead := true } else o }
  l.foldl (fun (s : State) (x : CmdRef × Nat) => s.post x.1 x.2 rAborted 0 0 0) s

/-- The number of no context: what is posted to it is discarded (11_management R274). -/
def noCtx : Nat := 4096

/-- Close a context: its commands, watches, subscriptions and registrations, its lease, then CLOSED (10_contexts R231;
12_isolation R299; 11_management Table 11.1). -/
def State.closeCtx (s : State) (c res : Nat) : State :=
  let s := s.modCtx c fun x => { x with st := csStopping }
  let s := (s.abortAll c).retireWatches c res
  let s := (List.range 8).foldl (fun (s : State) n => let s := s.endSub c n; State.placeDue 8 s c n) s
  let s := s.modSec fun k => { k with regs := k.regs.filter fun r => r.ctx != c }
  let s := s.modPlan fun p => { p with owner := p.owner.map fun o => if o.1 = c then (noCtx, o.2) else o }
  let s := s.ownerGone okCtx c relReset
  ({ s with ctxs := sdel s.ctxs c }).measChange

/-- CTX_CLOSE (10_contexts R231). -/
def State.effCtxClose (s : State) (q : CmdRef) (c : Nat) : State :=
  s.issue q opCtxClose true fun s =>
    if c < 16 then s.post q opCtxClose rBadArg 0 0 0
    else
      let s := if (s.ctx c).st = csClosed then s else s.closeCtx c rRemoved
      s.post q opCtxClose rOk s.now 0 0

/-- CTX_CLOSE. -/
def execCtxClose (t : Nat) (q : CmdRef) (ctx : Fin 4096) (s : State) : Host.Outcome State Fault Refusal :=
  onCmd t q (fun s => s.effCtxClose q ctx) s

/-! ## Doorbells -/

/-- An access to context c's doorbell page: a closed context takes no write, a tenant page needs the T bit while the TDI is
LOCKED or RUN, and takes no write during a scrub (10_contexts R233; 12_isolation R292, R303). -/
def State.pageOpen (s : State) (tee : Bool) (c : Nat) : Bool :=
  let tenant := decide (16 ≤ c)
  let tdi := s.sec.tdi == .locked || s.sec.tdi == .run
  (s.ctx c).st != csClosed && !(tenant && tdi && !tee) && !((s.ctx c).perm != 0 && s.sec.tstate == 2)

/-- A free-running index `v` lies ahead of `from_`, by at most half the count. -/
def aheadOf (v from_ : Nat) : Bool :=
  let d := (v + 2 ^ 32 - from_) % 2 ^ 32
  decide (0 < d ∧ d < 2 ^ 31)

/-- Command doorbell (10_contexts R235). -/
def State.dbCmd (s : State) (c v : Nat) : State :=
  let x := s.ctx c
  let off := fun (a : Nat) => (a + 2 ^ 32 - x.fetch) % 2 ^ 32
  if ringSize (s.rf (Kx.ctxCmdCfg c) 4 0) < off v then s.ctxStatus c sbDbErr
  else if off x.pi < off v then s.modCtx c fun x => { x with pi := v }
  else s

/-- Completion doorbell: the entries go back to the unit, and what was held is posted (10_contexts R235, R246). -/
def State.dbCpl (s : State) (c v : Nat) : State :=
  let x := s.ctx c
  if aheadOf v x.cplPi then s.ctxStatus c sbDbErr
  else if aheadOf v x.cplCi then
    (s.modCtx c fun x => { x with cplCi := v, cpls := x.cpls.drop ((v + 2 ^ 32 - x.cplCi) % 2 ^ 32) }).postHeld c
  else s

/-- Record doorbell (10_contexts R235, R254). -/
def State.dbRec (s : State) (c n v : Nat) : State :=
  let r := s.ring c n
  if !(s.rb (Kx.ctxRecCfg c n) 31) || aheadOf v r.pi then s.ctxStatus c sbDbErr
  else if aheadOf v r.ci then
    (s.modRing c n fun r => { r with ci := v, ents := r.ents.drop ((v + 2 ^ 32 - r.ci) % 2 ^ 32) }).noteLevel c n
  else s

/-- A write to a doorbell register from a port. -/
def onDoor (t : Nat) (p : Port) (tee : Bool) (c off : Nat) (f : State → State) (s : State) : Host.Outcome State Fault Refusal :=
  onWrite t p off (fun s => s.notDbg p off fun s => if s.pageOpen tee c then f s else s) s

/-- DB_CMD. -/
def execDbCmd (t : Nat) (port : Port) (tee : Bool) (ctx : Fin 4096) (value : Word) (s : State) : Host.Outcome State Fault Refusal :=
  onDoor t port tee ctx (Kx.ctxDbCmd ctx).off (fun s => s.dbCmd ctx value.toNat) s

/-- DB_CPL. -/
def execDbCpl (t : Nat) (port : Port) (tee : Bool) (ctx : Fin 4096) (value : Word) (s : State) : Host.Outcome State Fault Refusal :=
  onDoor t port tee ctx (Kx.ctxDbCpl ctx).off (fun s => s.dbCpl ctx value.toNat) s

/-- DB_REC. -/
def execDbRec (t : Nat) (port : Port) (tee : Bool) (ctx : Fin 4096) (ring : Fin 8) (value : Word) (s : State) :
    Host.Outcome State Fault Refusal :=
  onDoor t port tee ctx (Kx.ctxDbRec ctx ring).off (fun s => s.dbRec ctx ring value.toNat) s

/-! ## RUN -/

/-- FCAUSE codes (10_contexts Table 10.5). -/
def fcsReadErr : BitVec 4 := 1
def fcsFlushErr : BitVec 4 := 2
def fcsBadCfg : BitVec 4 := 3
def fcsNoLog : BitVec 4 := 4

/-- The extents of a context's rings: base and bytes (10_contexts R248). -/
def State.ringExtents (s : State) (c : Nat) : List (Nat × Nat) :=
  [(s.rd64 (Kx.ctxCmdBaseLo c) (Kx.ctxCmdBaseHi c), 64 * ringSize (s.rf (Kx.ctxCmdCfg c) 4 0)),
    (s.rd64 (Kx.ctxCplBaseLo c) (Kx.ctxCplBaseHi c), 32 * s.cplSize c)] ++
    ((List.range 8).filter fun n => s.rb (Kx.ctxRecCfg c n) 31).flatMap fun n =>
      [(s.rd64 (Kx.ctxRecDataLo c n) (Kx.ctxRecDataHi c n), 4096 * s.recSize c n),
        (s.rd64 (Kx.ctxRecEntLo c n) (Kx.ctxRecEntHi c n), 32 * s.recSize c n)]

/-- No two extents of a list overlap. -/
def allApart : List (Nat × Nat) → Bool
  | [] => true
  | a :: l => l.all (fun b => apart a b) && allApart l

/-- The rings of context c meet R255, beside those of the other contexts in hub SRAM that run. -/
def State.sramRingsOk (s : State) (c : Nat) : Bool :=
  let others := (List.range 16).filter fun k => k != c && (s.ctx k).ringloc && (s.ctx k).st != csStopped
  let l := s.ringExtents c ++ others.flatMap fun k => s.ringExtents k
  l.all (fun e => decide (e.1 + e.2 ≤ sramSize)) && allApart l

/-- RUN = 1: the record rings are armed, and one that stands at its high watermark crosses (10_contexts R234, R254). -/
def State.runCtx (s : State) (c : Nat) : State :=
  let x := s.ctx c
  let s := s.modCtx c fun x => { x with run := true }
  let refuse := fun (f : BitVec 4) => (s.modCtx c fun x => { x with fcause := f }).ctxStatus c sbCfgErr
  if x.st != csStopped then s
  else if !s.logOn then refuse fcsNoLog
  else if !(s.rb (Kx.ctxRecCfg c 0) 31) || (x.ringloc && !(s.sramRingsOk c)) then refuse fcsBadCfg
  else
    let s := s.modCtx c fun x =>
      let x := if x.ringDirty then { x with pi := 0, fetch := 0, cplPi := 0, cplCi := 0, cpls := [] } else x
      let x := if x.seqDirty then { x with nextSeq := s.rd64 (Kx.ctxSeq0Lo c) (Kx.ctxSeq0Hi c) } else x
      { x with st := csRunning, fcause := 0, ringDirty := false, seqDirty := false
               recs := x.recs.map fun (e : Nat × RecRing) =>
                 (e.1, if (s.ctx c).ringDirty then { e.2 with pi := 0, ci := 0, ents := [], conf := 0, armed := true }
                       else { e.2 with armed := true }) }
    let s := if x.ringDirty then
        { s with subs := s.subs.map fun (y : Sub) =>
            match y.sink with
            | .ring k _ => if k = c then { y with next := y.cursor } else y
            | _ => y }
      else s
    ((List.range 8).filter fun n => s.rb (Kx.ctxRecCfg c n) 31).foldl (fun (s : State) n => s.noteLevel c n) (s.postHeld c)

/-- RUN = 0: a running or faulted context stops once nothing is in progress (10_contexts Table 10.1). -/
def State.stopCtx (s : State) (c : Nat) : State :=
  (s.modCtx c fun x =>
    { x with run := false, st := if x.st = csRunning || x.st = csFaulted then csStopping else x.st }).ctxIdle c

/-- CONTEXT_RUN. -/
def execContextRun (t : Nat) (port : Port) (tee : Bool) (ctx : Fin 4096) (s : State) : Host.Outcome State Fault Refusal :=
  onDoor t port tee ctx (Kx.ctxCtl ctx).off (fun s => s.runCtx ctx) s

/-- CONTEXT_STOP. -/
def execContextStop (t : Nat) (port : Port) (tee : Bool) (ctx : Fin 4096) (s : State) : Host.Outcome State Fault Refusal :=
  onDoor t port tee ctx (Kx.ctxCtl ctx).off (fun s => s.stopCtx ctx) s

/-- HOST_READ_ERROR: the context enters FAULTED, and a lease it holds is released (10_contexts R229, 11_management Table 11.1). -/
def execHostReadError (t : Nat) (ctx : Fin 4096) (fetch : Bool) (s : State) : Host.Outcome State Fault Refusal :=
  onHub t (fun s =>
    if (s.ctx ctx).st != csRunning then s
    else
      let s := s.modCtx ctx fun x => { x with st := csFaulted, fcause := if fetch then fcsReadErr else fcsFlushErr }
      (s.ctxStatus ctx sbFault).ownerGone okCtx ctx relFault) s

/-- COMPLETION_SIGNAL_TIMEOUT: COALUS µs since the earliest unsignalled completion (10_contexts R253). -/
def execCompletionSignalTimeout (t : Nat) (ctx : Fin 4096) (s : State) : Host.Outcome State Fault Refusal :=
  onHub t (fun s =>
    let x := s.ctx ctx
    let us := s.rf (Kx.ctxCplCfg ctx) 31 16
    if us = 0 || x.unsig = 0 || s.now < x.unsigAt + us * usT then s else s.ctxSignal ctx 0) s

/-- Unmask a vector: a pending one sends its one message (10_contexts R252). -/
def State.msixUnmask (s : State) (v : Nat) : State :=
  let was := decide (v ∈ s.msix.pending)
  let s := { s with msix := { s.msix with unmasked := insertNew s.msix.unmasked v, pending := s.msix.pending.filter (· != v) } }
  if was then s.emit (.msix v) else s

/-- MSIX_UNMASK. -/
def execMsixUnmask (t : Nat) (vec : Fin 4112) (s : State) : Host.Outcome State Fault Refusal :=
  onHub t (fun s => s.msixUnmask vec) s

/-! ## The command log -/

/-- The regions of the two log copies (10_contexts R242). -/
def State.logRegions (s : State) : List (Nat × Nat) :=
  (List.range 2).map fun i => (s.rd64 (Kx.ctxLogLo i) (Kx.ctxLogHi i), 8 * 2 ^ 20)

/-- The checks of an enable of the command log (10_contexts R242). -/
def State.logCheck (s : State) (v : Word) : Bool :=
  let l := s.logRegions
  let others := ((s.jrnRegions (s.rd Kx.hubJrnCfg)).map (·.2)) ++ (if s.ledOn then s.ledRegions (s.rd Kx.ledCfg) else []) ++
    (if s.chnOn then [s.chnRegion (s.rd Kx.chnCfg)] else [])
  s.jrnOn && fld v 19 16 != fld v 15 12 && apart (l.getD 0 (0, 0)) (l.getD 1 (0, 0)) && l.all fun r => others.all fun o => apart r o

/-- A write of KX_CTX_LOG_CFG (10_contexts R242). Bits [5:0] are the status bits that W1C clears. -/
def State.writeLogCfg (s : State) (p : Port) (v : Word) : State :=
  let m : Word := 0x800FF000
  let old := s.rd Kx.ctxLogCfg
  let s := s.wr Kx.ctxLogCfg (old &&& ~~~(v &&& 0x36 &&& ~~~(s.hwSet Kx.ctxLogCfg)))
  let changes := ((old ^^^ v) &&& m) != 0
  let keep := s.rd Kx.ctxLogCfg &&& ~~~m
  if s.logOn then (if changes then s.setB Kx.ctxLogCfg 2 true else s)
  else
    s.rwsWrite p changes fun s =>
      let v := v &&& m
      if !(v.getLsbD 31) then s.wr Kx.ctxLogCfg (keep ||| v)
      else if s.logCheck v then s.wr Kx.ctxLogCfg (keep ||| v ||| 1)
      else s.wr Kx.ctxLogCfg (keep ||| (v &&& 0x7FFFFFFF) ||| 2)

/-- COMMAND_LOG_ENABLE. -/
def execCommandLogEnable (t : Nat) (port : Port) (value : Word) (s : State) : Host.Outcome State Fault Refusal :=
  onWrite t port Kx.ctxLogCfg.off (fun s => s.notDbg port Kx.ctxLogCfg.off fun s => s.writeLogCfg port value) s

end Sys2Proof.Machine
end

