-- ==== Sys2Proof/Machine/Queries.lean ====
section
/-!
DEFINITION. Queries and their answers (09_churn R223-R226; 07_sequence_ledger R183, R184; 12_isolation R289; 13_node R330).
-/

namespace Sys2Proof.Machine

/-! ## Metrics -/

/-- METRIC codes without a sketch definition (07_sequence_ledger Table 7.8, 09_churn Table 9.11). -/
def mFlowRead : Nat := 0x0100
def mLive : Nat := 0x0101
def mTokens : Nat := 0x0104
def mKv : Nat := 0x0105
def mPreempts : Nat := 0x0106
def mRefusals : Nat := 0x0107
def mExperts : Nat := 0x0108
def mPortTotal : Nat := 0x0220
def mExpLoad : Nat := 0x0221
def mDetState : Nat := 0x0230

/-- A ledger metric. -/
def isLedger (m : Nat) : Bool := decide (0x0100 ≤ m ∧ m ≤ 0x0108)

/-- A sketch metric: it names a definition. -/
def isSketch (m : Nat) : Bool := !(isLedger m) && !(metricScopes m).isEmpty

/-- The scopes of a metric; none for a code that is no metric (07_sequence_ledger Table 7.8, 09_churn Table 9.2). -/
def queryScopes (m : Nat) : List Nat :=
  if m = mFlowRead then [skFlow]
  else if m = mRefusals then [skPart, skDevice, skNode]
  else if isLedger m then [skPart, skClass, skDie, skDevice, skNode]
  else if isSketch m then metricScopes m ++ [skNode]
  else if m = mPortTotal || m = mExpLoad || m = mDetState then [skDevice, skNode]
  else []

/-- Bits of an answer's FLAGS (09_churn Table 9.12). -/
def qfCatchup : Nat := 0
def qfIncomplete : Nat := 1
def qfWidened : Nat := 2
def qfTrunc : Nat := 3
def qfPartial : Nat := 4
def qfOver : Nat := 5
def qfMissing : Nat := 6
def qfTakeover : Nat := 7

/-- Set a flag where a condition holds. -/
def flagIf (b : Bool) (i : Nat) (w : BitVec 8) : BitVec 8 := if b then setFlag w i else w

/-! ## Scope -/

/-- The definition's inputs lie wholly in the viewer's partition (09_churn R226). -/
def Viewer.definition (w : Viewer) (v : State) (a : QueryArgs) : Bool :=
  let i := a.param.toNat
  let part := if a.kind.toNat = skPart then some (a.scope.toNat % 256)
    else if a.kind.toNat = skClass then some (a.scope.toNat / 256 % 256) else none
  match part with
  | some p => w.owns p && v.partDefined p
  | none =>
    a.metric.toNat == mRlat && v.dies.all fun n => (List.range 4).all fun k =>
      !(v.rb (Kx.stnSkcfg n k) 31 && v.rf (Kx.stnSkcfg n k) 5 0 == i) ||
        (a.kind.toNat == skDie && n != a.scope.toNat % 64) || w.hasMaster v n (v.rd (Kx.stnSkmst n k))

/-- The device ports that a PORTTOTAL query names. -/
def State.namedPorts (s : State) (a : QueryArgs) : List Nat :=
  s.dports.filter fun d =>
    if a.param.getLsbD 31 then s.dportClass d == a.param.toNat % 2 ^ 31 else d == a.param.toNat

/-- A detector's members. -/
def State.membersOf (s : State) (d : Nat) : List DetMem :=
  (s.churn.mems.filter fun p => p.det == d).mergeSort fun x y => decide (x.mem ≤ y.mem)

/-- A tenant's query lies in its scope (07_sequence_ledger R184, 09_churn R226). -/
def State.queryScope (s : State) (w : Viewer) (a : QueryArgs) : Bool :=
  let m := a.metric.toNat
  let k := a.kind.toNat
  if w.perm = 0 then true
  else if k = skNode then false
  else if isLedger m then
    let part := if k = skPart then some (a.scope.toNat % 256) else if k = skClass then some (a.scope.toNat / 256 % 256) else none
    match part with
    | some p => w.owns p && s.partDefined p
    | none => true
  else if isSketch m then w.definition s a
  else if m = mPortTotal then (s.namedPorts a).all fun d => w.hasPort s d
  else if m = mDetState then (s.membersOf a.param.toNat).all fun p => w.member s (s.detInput a.param.toNat) p.mem
  else m != mExpLoad

/-- The results of a query's checks at LOG, in the order of Table 9.13; none where they pass. -/
def State.queryCheck (s : State) (w : Viewer) (a : QueryArgs) : Option Nat :=
  let ss := queryScopes a.metric.toNat
  if !(s.queryScope w a) then some rScope
  else if ss.isEmpty then some rBadMetric
  else if !(a.kind.toNat ∈ ss) || a.qs.any (fun q => decide (10000 < q.toNat)) then some rBadScope
  else none

/-! ## Windows -/

/-- The watermark as of which an answer stands: every FLOW event below it has been applied (07_sequence_ledger R183). -/
def State.asof (s : State) : Nat :=
  let next := ((s.subOf .ledger).map (·.next)).getD s.jrn.accTo
  let behind := (s.jrn.mem.filter fun e => decide (next ≤ e.1) && decide (e.1 < s.jrn.accTo)).flatMap fun e =>
    (e.2.recs.filter fun r => r.ty == .flow).map (·.ft)
  (s.led.buf.map (·.ft) ++ if s.ledOn then behind else []).foldl min s.wm

/-- The window asked for, up to ASOF. -/
def askedWin (a : QueryArgs) (asof : Nat) : Nat × Nat :=
  (a.wstart.toNat, if a.wend = 0 then asof else min asof a.wend.toNat)

/-- The stored windows of a list that a query answers from: those it overlaps, for a tenant none that begins before QFLOOR
(09_churn R224, 12_isolation R289); and whether QFLOOR kept any out. -/
def State.fromWins {α : Type} (s : State) (w : Viewer) (a : QueryArgs) (asof : Nat) (span : α → Nat × Nat) (l : List α) :
    List α × Bool :=
  let (ws, we) := askedWin a asof
  let over_ := l.filter fun x => decide ((span x).1 < we) && decide (ws < (span x).2)
  let keep := over_.filter fun x => w.perm = 0 || decide (s.sec.qfloor ≤ (span x).1)
  (keep, decide (keep.length < over_.length))

/-- What an answer's header says of its span (09_churn R224). -/
def spanOf (a : QueryArgs) (asof since : Nat) (cut : Bool) (l : List (Nat × Nat)) (ans : Answer) : Answer :=
  let (ws, we) := askedWin a asof
  let lo := (l.map (·.1)).foldl min ((l.map (·.1)).headD ws)
  let hi := min asof ((l.map (·.2)).foldl max 0)
  { ans with
    asof := asof, start := lo, stop := hi
    flags := flagIf (cut || decide (lo < ws) || decide (we < hi)) qfWidened
      (flagIf (decide (ws < since)) qfTrunc ans.flags) }

/-! ## Ledger metrics -/

/-- A flow, or an accumulator of its partition, class and die, lies in the query's scope and the viewer's. -/
def inScope (w : Viewer) (a : QueryArgs) (pkey cls odie : Nat) : Bool :=
  let k := a.kind.toNat
  let sc := a.scope.toNat
  (w.perm = 0 || (decide (pkey < 256) && w.owns pkey)) &&
    (if k = skPart then pkey == sc % 256
     else if k = skClass then pkey == sc / 256 % 256 && cls == sc % 256
     else if k = skDie then odie == sc % 64
     else true)

/-- The live flows in scope. -/
def State.flowsIn (s : State) (w : Viewer) (a : QueryArgs) : List Flow :=
  (s.led.table.map (·.2)).filter fun f => f.live && inScope w a f.pkey f.cls f.odie

/-- The sum of KV blocks that a query's scope stands for (SCOPEKIND, SCOPEID of the accumulators). -/
def kvKey (w : Viewer) (a : QueryArgs) : Nat × Nat :=
  let k := a.kind.toNat
  let sc := a.scope.toNat
  if k = skPart then (skPart, sc % 256)
  else if k = skClass then (skClass, sc % 65536)
  else if k = skDie then
    if w.perm = 0 then (skDie, sc % 64)
    else if w.perm = 2 then (kvPartDie, w.part.toNat * 64 + sc % 64)
    else (kvTenantDie, sc % 64)
  else if w.perm = 0 then (skDevice, 0)
  else if w.perm = 2 then (skPart, w.part.toNat)
  else (kvTenant, 0)

/-- A ledger bucket's span. -/
def State.bucketSpan (s : State) (b : Nat) : Nat × Nat :=
  let g := clampN 1 1000 (s.rf Kx.chnQcfg 9 0) * msT
  (b * g, (b + 1) * g)

/-- The largest sum of a scope over a span of buckets (07_sequence_ledger Table 7.8). -/
def State.kvPeak (s : State) (k : Nat × Nat) (lo hi : Nat) : Nat :=
  let l := s.led.kvs.filter fun x => x.kind == k.1 && x.scope == k.2
  let inside := l.filter fun x => decide (lo ≤ x.bucket) && decide (x.bucket < hi)
  if inside.isEmpty then
    let before := l.filter fun x => decide (x.bucket < lo)
    (before.foldl (fun (m : Nat × Nat) x => if m.1 ≤ x.bucket + 1 then (x.bucket + 1, x.last) else m) (0, 0)).2
  else inside.foldl (fun m x => max m x.peak) 0

/-- The sketch of a list of inputs. -/
def sketchOf (l : List Nat) : Sketch := l.foldl (fun (k : Sketch) v => k.input v) {}

/-- A ledger event of the span was lost in the query's scope (07_sequence_ledger R173). -/
def State.lossIn (s : State) (w : Viewer) (a : QueryArgs) (lo hi : Nat) : Bool :=
  s.led.loss.any fun e => e.2 != 0 && decide (lo < e.2) && decide (e.2 ≤ hi) &&
    (if a.kind.toNat = skPart then e.1 == a.scope.toNat % 256
     else if a.kind.toNat = skClass then e.1 == a.scope.toNat / 256 % 256
     else w.perm = 0 || (decide (e.1 < 256) && w.owns e.1))

/-- FLOW_READ (07_sequence_ledger R183, R184). -/
def State.flowRead (s : State) (w : Viewer) (a : QueryArgs) : Answer :=
  let h : BitVec 21 := a.scope.setWidth 21
  let mine := fun (f : Flow) => f.handle == h && (w.perm = 0 || (!f.noPart && w.owns f.part))
  let now := (sget s.led.table (slotOf h)).filter fun f => f.live && mine f
  let old := (s.led.queue.find? fun e => mine e.2).map (·.2)
  match now.orElse fun _ => old with
  | none => { result := rNotLive, asof := s.asof }
  | some f =>
    { asof := s.asof, start := s.asof, stop := s.asof, count := 1, words := f.words (s.flowFlags f)
      flags := flagIf (s.flowLost f) qfIncomplete 0 }

/-- The other ledger metrics (07_sequence_ledger Table 7.8). -/
def State.ledgerAnswer (s : State) (w : Viewer) (a : QueryArgs) : Answer :=
  let m := a.metric.toNat
  let asof := s.asof
  let g := (s.bucketSpan 0).2
  let (ws, we) := askedWin a asof
  let fs := s.flowsIn w a
  let lo := ws / g
  let hi := (we + g - 1) / g
  let floor := if w.perm = 0 then 0 else (s.sec.qfloor + g - 1) / g
  let first := max lo floor
  let none_ := decide (we ≤ ws) || decide (hi ≤ first)
  let within := fun (b : Nat) => decide (first ≤ b) && decide (b < hi)
  let accs := s.led.accs.filter fun x => within x.bucket && inScope w a x.part x.cls x.odie
  let base : Answer := spanOf a asof s.led.since (decide (lo < floor)) [(first * g, hi * g)]
    { flags := flagIf (s.lossIn w a (first * g) (hi * g)) qfIncomplete 0 }
  if !s.ledOn then { result := rNoHist, asof := asof }
  else if m = mLive then
    let n := fun (x : FlowSt) => (fs.filter fun f => f.st == x).length
    { base with start := asof, stop := asof, count := fs.length
                nums := [n .opened, n .decode, n .preempted, fs.length] }
  else if m = mExperts then
    if !s.ledExt then { result := rNoExt, asof := asof }
    else { base with start := asof, stop := asof, count := fs.length
                     nums := (List.range 16).map fun i => (fs.map fun f => sgetD f.ext i 0).sum }
  else if none_ then { result := rNoHist, asof := asof }
  else if m = mKv then
    { base with count := fs.length, nums := [(fs.map (·.kvCur)).sum, s.kvPeak (kvKey w a) first hi] }
  else if m = mTokens then
    { base with count := accs.length
                nums := [(accs.map (·.prompt)).sum, (accs.map (·.prefill)).sum, (accs.map (·.decode)).sum] }
  else if m = mPreempts then { base with count := accs.length, nums := [(accs.map (·.preempts)).sum] }
  else if m = mRefusals then
    let rs := s.led.refs.filter fun x => within x.bucket && inScope w a x.part 0 0
    { base with count := rs.length
                nums := ((List.range 9).map fun c => (rs.map fun x => sgetD x.causes c 0).sum) ++ [(rs.map (·.inc)).sum] }
  else
    let k := accs.foldl (fun (k : Sketch) x => k.merge (sketchOf (if m = mItl then x.gaps else x.ttfts))) {}
    { base with count := k.count, quant := true, lvls := k.lvls, min := k.min, max := k.max
                nums := if m = mItl then (List.range 16).map fun i =>
                    (accs.map fun x => ((x.itl.filter fun e => e.1 == i).map (·.2)).sum).sum
                  else []
                flags := flagIf k.over_ qfOver base.flags }

/-! ## Sketches, ports, experts and detectors -/

/-- A sketch metric, from the stored windows of the definition (09_churn R224). -/
def State.sketchAnswer (s : State) (w : Viewer) (a : QueryArgs) : Answer :=
  let asof := s.wm
  let kind := if a.kind.toNat = skNode then skDevice else a.kind.toNat
  let sc := if kind = skPart then a.scope.toNat % 256 else if kind = skClass then a.scope.toNat % 65536
    else if kind = skDie then a.scope.toNat % 64 else 0
  let mine := s.churn.hist.filter fun x =>
    x.dfn == a.param.toNat && x.metric == a.metric.toNat && x.kind.toNat == kind && x.scope == sc
  let (l, cut) := s.fromWins w a asof (fun (x : Inst) => (x.start, x.stop)) mine
  if l.isEmpty then { result := rNoHist, asof := asof }
  else
    let any := fun (i : Nat) => l.any fun x => x.flags.getLsbD i
    let flags := flagIf (any sfIncomplete) qfIncomplete (flagIf (any sfOver) qfOver
      (flagIf (any sfMissing) qfMissing (flagIf (any sfTakeover) qfTakeover 0)))
    let ans : Answer :=
      if isHot a.metric.toNat then
        let h := l.foldl (fun (h : Hitters) x => h.merge x.hh) {}
        { flags := flags, count := h.ents.length, hot := true, ents := h.ents, total := h.total }
      else
        let k := l.foldl (fun (k : Sketch) x => k.merge x.sk) {}
        { flags := flags, count := k.count, quant := true, lvls := k.lvls, min := k.min, max := k.max }
    spanOf a asof s.churn.since cut (l.map fun x => (x.start, x.stop)) ans

/-- PORTTOTAL, from hub BW windows (09_churn R224, R225). -/
def State.portAnswer (s : State) (w : Viewer) (a : QueryArgs) : Answer :=
  let ds := s.namedPorts a
  let asof := s.wm
  let (l, cut) := s.fromWins w a asof (fun (x : HubBw) => (x.start, x.start + x.got)) (s.churn.hbwHist.filter fun x => x.dport ∈ ds)
  if l.isEmpty then { result := rNoHist, asof := asof }
  else
    let lacks := l.any fun x => x.act == actMark
    spanOf a asof s.churn.since cut (l.map fun x => (x.start, x.start + x.got))
      { count := l.length
        flags := flagIf lacks qfIncomplete 0
        nums := [(l.map (·.rx)).sum, (l.map (·.tx)).sum, if lacks then actMark else (l.map (·.act)).sum,
          (l.map (·.peak)).foldl max 0] }

/-- EXPLOAD, from expert-load windows, whose history is what the ring's slots hold (09_churn R224, R225). -/
def State.expertAnswer (s : State) (w : Viewer) (a : QueryArgs) : Answer :=
  let asof := s.wm
  let layer := a.param.toNat
  let (l, cut) := s.fromWins w a asof (fun (x : ExpWin) => (x.start, x.stop))
    (s.churn.exps.filter fun x => !x.busy && decide (layer < x.nlayer))
  let kept := (s.churn.exps.filter fun x => !x.busy).map (·.start)
  if l.isEmpty then { result := rNoHist, asof := asof }
  else
    let n := (l.map (·.nexp)).foldl max 0
    spanOf a asof (max s.churn.since (kept.foldl min (kept.headD 0))) cut (l.map fun x => (x.start, x.stop))
      { count := l.length
        flags := flagIf (l.any fun x => x.flags.getLsbD xfIncomplete) qfIncomplete
          (flagIf (l.any fun x => x.flags.getLsbD xfTakeover) qfTakeover 0)
        nums := (List.range n).map fun e => (l.map fun x => sgetD x.cnts (layer * 4096 + e) 0).sum }

/-- DETSTATE: per member the value, m, d, threshold and state. A threshold that no one test decided is a free value
(09_churn R225). -/
def State.detAnswer (s : State) (a : QueryArgs) : State × Answer :=
  let d := a.param.toNat
  let l := s.membersOf d
  if !(decide (d < 32) && s.detOn d) || l.isEmpty then (s, { result := rNoHist, asof := s.wm })
  else
    let one := fun (acc : State × List (BitVec 64)) (p : DetMem) =>
      let (th, s) := match p.thr with | some x => (x, acc.1) | none => acc.1.draw
      (s, acc.2 ++ [p.val, p.m, p.d, th, word64 [(b1 p.sIn, 1), (b1 p.aIn, 0)]])
    let (s, ws) := l.foldl one (s, [])
    (s, { asof := s.wm, start := s.wm, stop := s.wm, count := l.length, words := ws })

/-- Every answer given while the ledger rebuilds carries CATCHUP, and every other than a ledger metric's while Churn does; one given
before the watermark has passed WEND carries PARTIAL (07_sequence_ledger R180, R183; 09_churn R224, R228). -/
def State.marked (s : State) (a : QueryArgs) (x : Answer) : Answer :=
  let partial_ := flagIf (a.wend != 0 && decide (x.asof < a.wend.toNat)) qfPartial x.flags
  { x with flags := flagIf (s.led.catchup || (s.churn.catchup && !(isLedger a.metric.toNat))) qfCatchup partial_ }

/-- The entries that a query fetches into the ledger's cache: the flow's, or the extension entries of the flows in scope
(07_sequence_ledger R176). -/
def State.queryTouch (s : State) (w : Viewer) (a : QueryArgs) : State :=
  let m := a.metric.toNat
  if m = mFlowRead && s.ledOn then s.modLed fun l => l.touch (slotOf (a.scope.setWidth 21)) false true
  else if m = mExperts && s.ledOn && s.ledExt then
    (s.flowsIn w a).foldl (fun (s : State) f => s.modLed fun l => l.touch (slotOf f.handle + 2 ^ 20) false true) s
  else s

/-- This device's answer to a query (09_churn R224). -/
def State.answer (s : State) (w : Viewer) (a : QueryArgs) : State × Answer :=
  let m := a.metric.toNat
  let s := s.queryTouch w a
  let (s, x) :=
    if m = mFlowRead then (s, s.flowRead w a)
    else if isLedger m then (s, s.ledgerAnswer w a)
    else if m = mPortTotal then (s, s.portAnswer w a)
    else if m = mExpLoad then (s, s.expertAnswer w a)
    else if m = mDetState then s.detAnswer a
    else (s, s.sketchAnswer w a)
  (s, s.marked a x)

/-! ## Answers -/

/-- Merge two devices' answers to a query of a metric: accumulators add, PORTTOTAL's PEAK is the larger, and its ACT reads as
not counted where one is (13_node R330). -/
def Answer.merge (m : Nat) (a b : Answer) : Answer :=
  if a.result != rOk then b
  else if b.result != rOk then a
  else
    let n := max a.nums.length b.nums.length
    let k := (Sketch.merge { lvls := a.lvls, count := a.count, min := a.min, max := a.max }
      { lvls := b.lvls, count := b.count, min := b.min, max := b.max })
    let h := Hitters.merge { ents := a.ents, total := a.total } { ents := b.ents, total := b.total }
    { flags := a.flags ||| b.flags, asof := min a.asof b.asof, start := min a.start b.start, stop := max a.stop b.stop
      count := if a.hot then h.ents.length else a.count + b.count
      nums := (List.range n).map fun i =>
        let x := a.nums.getD i 0
        let y := b.nums.getD i 0
        if m = mPortTotal && i = 3 then max x y
        else if m = mPortTotal && i = 2 && (x = actMark || y = actMark) then actMark
        else x + y
      words := a.words ++ b.words
      quant := a.quant, lvls := if a.quant then k.lvls else [], min := k.min, max := k.max
      hot := a.hot, ents := if a.hot then h.ents else [], total := if a.hot then h.total else 0 }

/-- The body of an answer (09_churn R225). The quantiles of no inputs are free values. -/
def State.answerBody (s : State) (a : QueryArgs) (x : Answer) : State × List (BitVec 64) :=
  let nums := x.nums.map fun n => BitVec.ofNat 64 n
  if x.result != rOk then (s, [])
  else if x.quant && x.count = 0 then
    let (l, s) := s.draws (2 + a.qs.length)
    (s, nums ++ l)
  else if x.quant then
    let k : Sketch := { lvls := x.lvls, count := x.count, min := x.min, max := x.max }
    (s, nums ++ [BitVec.ofNat 64 x.min, BitVec.ofNat 64 x.max] ++ a.qs.map fun q => BitVec.ofNat 64 (k.point q.toNat 10000))
  else if x.hot then
    (s, BitVec.ofNat 64 x.total :: x.ents.flatMap fun e => [BitVec.ofNat 64 e.1, BitVec.ofNat 64 e.2.1, BitVec.ofNat 64 e.2.2])
  else (s, nums ++ x.words)

/-- The header of an answer (09_churn Table 9.12). -/
def answerHead (a : QueryArgs) (x : Answer) (res bodyLen : Nat) : List (BitVec 64) :=
  [word64 [(a.metric.toNat, 48), (res, 40), (x.flags.toNat, 32), (bodyLen, 0)], BitVec.ofNat 64 x.asof, BitVec.ofNat 64 x.start,
    BitVec.ofNat 64 x.stop, word64 [(a.kind.toNat, 61), (a.scope.toNat, 32)], word64 [(a.param.toNat, 32)], BitVec.ofNat 64 x.count, 0]

/-- Write an answer and complete its query (09_churn R225, 10_contexts Table 10.7). -/
def State.finishQuery (s : State) (q : CmdRef) (a : QueryArgs) (x : Answer) : State :=
  let (s, body) := s.answerBody a x
  let len := 8 * body.length
  if a.alen.toNat < 64 + len then s.post q opQuery rTooSmall x.asof len 0
  else (s.ringWrite q.ctx a.addr.toNat (answerHead a x x.result len ++ body)).post q opQuery x.result x.asof len 0

/-- A RINGLOC context's answer buffer leaves the SRAM or overlaps a ring (11_management R280). -/
def State.bufBad (s : State) (c addr len : Nat) : Bool :=
  (s.ctx c).ringloc && (decide (sramSize < addr + len) ||
    ((List.range 16).filter fun k => (s.ctx k).ringloc).any fun k => (s.ringExtents k).any fun e => !(apart (addr, len) e))

/-- The members that a node query goes to: neither ESTRANGED, EXCLUDED nor PLANDIFF (13_node R330). -/
def State.queryMembers (s : State) : List Nat := (s.others.filter s.serving).map (·.1)

/-- Node queries are in use: FEAT bit 2 in NFEAT (13_node R327, R330). -/
def State.nodeQueries (s : State) : Bool := s.node.nfeat.getLsbD 2 && !s.node.estranged

/-- Register a query (09_churn R224, 13_node R330). -/
def State.registerQuery (s : State) (x : Query) : State :=
  let id := s.churn.nextQ
  let node := x.args.kind.toNat = skNode
  let others := if !node then [] else if s.node.isHead then s.queryMembers else (s.node.head.filter fun h => x.from_ != some h).toList
  let s := s.modChurn fun c =>
    { c with nextQ := id + 1
             qs := c.qs ++ [{ x with id := id, since := s.now, waiting := others, node := if node then some [] else none }] }
  others.foldl (fun (s : State) d => s.emit (.nodeQuery d x.args)) s

/-- QUERY: checked and registered at LOG (09_churn R223-R226, 10_contexts R241). -/
def State.effQuery (s : State) (q : CmdRef) (a : QueryArgs) : State :=
  let w := s.viewer q.ctx
  let mine := (s.churn.qs.filter fun y => y.ctx == q.ctx && y.from_.isNone).length
  if s.bufBad q.ctx a.addr.toNat a.alen.toNat then s.post q opQuery rBadArg 0 0 0
  else match s.queryCheck w a with
    | some r => s.finishQuery q a (s.marked a { result := r, asof := s.wm })
    | none =>
      if a.kind.toNat = skNode && !s.nodeQueries then s.finishQuery q a (s.marked a { result := rBadScope, asof := s.wm })
      else if 64 ≤ s.churn.qs.length || 4 ≤ mine then s.finishQuery q a (s.marked a { result := rQBusy, asof := s.wm })
      else s.registerQuery { ctx := q.ctx, seq := q.seq, irq := q.irq, args := a }

/-- QUERY. -/
def execQuery (t : Nat) (q : CmdRef) (a : QueryArgs) (s : State) : Host.Outcome State Fault Refusal :=
  onCmd t q (fun s => s.effQuery q a) s

/-- Answer a query now: to its context, or to the device that passed it on (09_churn R225, 13_node R330). -/
def State.answerNow (s : State) (x : Query) (missing : Bool) : State :=
  let s := s.dropQuery x.id
  let w := if x.from_.isSome then ({} : Viewer) else s.viewer x.ctx
  let (s, own) := s.answer w x.args
  let got := (x.node.getD []).map (·.2)
  let m := x.args.metric.toNat
  let ans :=
    if x.node.isSome && !s.node.isHead && x.from_.isNone && !got.isEmpty then got.foldl (Answer.merge m) { result := rNoHist }
    else got.foldl (Answer.merge m) own
  let ans := { ans with flags := flagIf missing qfMissing ans.flags }
  match x.from_ with
  | some d => s.emit (.nodeAns d ans)
  | none => s.finishQuery { ctx := x.ctx, seq := x.seq, irq := x.irq } x.args ans

/-- QUERY_ANSWER: the watermark has passed WEND and every member asked has answered (09_churn R224, 13_node R330). -/
def execQueryAnswer (t : Nat) (id : Nat) (s : State) : Host.Outcome State Fault Refusal :=
  onHub t (fun s =>
    match s.churn.qs.find? fun y => y.id == id with
    | none => s
    | some x => if x.waiting.isEmpty && (x.args.wend = 0 || x.args.wend.toNat ≤ s.asof) then s.answerNow x x.partial_ else s) s

/-- QUERY_WAIT_TIMEOUT: WAIT µs have passed; the answer is as of the watermark, with PARTIAL (09_churn R224). -/
def execQueryWaitTimeout (t : Nat) (id : Nat) (s : State) : Host.Outcome State Fault Refusal :=
  onHub t (fun s =>
    match s.churn.qs.find? fun y => y.id == id with
    | none => s
    | some x => if x.waiting.isEmpty && x.since + x.args.wait.toNat * usT ≤ s.now then s.answerNow x x.partial_ else s) s

end Sys2Proof.Machine
end

