-- ==== Sys2Proof/Machine/Node.lean ====
section
/-!
DEFINITION. The node: sync ports, beacons and the head, node time, triggers, aggregation, snapshots, commits and queries
(13_node R305-R331; 02_fabric_time R54).
-/

namespace Sys2Proof.Machine

/-! ## Sync ports -/

/-- A sync port. -/
def State.port (s : State) (p : Nat) : NodePort := sgetD s.node.ports p {}

/-- Change a sync port. -/
def State.modPort (s : State) (p : Nat) (f : NodePort → NodePort) : State :=
  s.modNode fun n => { n with ports := sput n.ports p (f (sgetD n.ports p {})) }

/-- STATE codes of a sync port (13_node Table 13.6). -/
def spDown : BitVec 2 := 0
def spTraining : BitVec 2 := 1
def spUp : BitVec 2 := 2
def spRetired : BitVec 2 := 3

/-- SYNC_PORT_TRAINED (13_node R307). -/
def execSyncPortTrained (t : Nat) (port : Fin 3) (peer : BitVec 6) (delay : BitVec 8) (s : State) :
    Host.Outcome State Fault Refusal :=
  onHub t (fun s =>
    if !(s.rb (Kx.synPcfg port) 31) || (s.port port).st == spRetired then s
    else s.modPort port fun x => { x with st := spUp, peer := some peer, delay := delay.toNat }) s

/-- SYNC_LINK_LOSS: the port leaves UP; an enabled port trains again (13_node R315). -/
def execSyncLinkLoss (t : Nat) (port : Fin 3) (s : State) : Host.Outcome State Fault Refusal :=
  onHub t (fun s =>
    if (s.port port).st == spRetired then s
    else s.modPort port fun x => { x with st := if s.rb (Kx.synPcfg port) 31 then spTraining else spDown, peer := none }) s

/-- Channel of a sync port (14_startup Table 14.4). -/
def syncChan (p : Nat) : Nat := 0x6000 + p

/-- SYNC_REPLAY_REQUEST: the sender replays from the failed frame; a replay is an error event of the port (13_node R309). -/
def execSyncReplayRequest (t : Nat) (port : Fin 3) (seq : Nat) (s : State) : Host.Outcome State Fault Refusal :=
  onHub t (fun s =>
    if (s.port port).st != spUp then s
    else
      (((s.incF (Kx.synPstat port) 7 0 1).emit (.nodeMsg (((s.port port).peer.map (·.toNat)).getD 0) nmReplay seq 0)).channelError
        (syncChan port))) s

/-! ## The head -/

/-- HEALTHY (13_node R315). -/
def State.healthy (s : State) : Bool := s.hubOn && s.jrnOn && !s.node.estranged && !s.upPorts.isEmpty

/-- The claims in force: a reachable device's own, and this device's (13_node R316, R317). -/
def State.claims (s : State) : List (Nat × Nat) :=
  (s.others.filter fun e => e.2.b.claim != 0 && e.2.b.claimDev == e.1).map (fun e => (e.2.b.claim, e.1)) ++
    (if s.node.claim = 0 then [] else [(s.node.claim, s.self)])

/-- The head this device computes (13_node R316). -/
def State.computeHead (s : State) : Option Nat :=
  match s.claims.foldl (fun (b : Option (Nat × Nat)) x =>
    match b with | some y => some (if y.1 < x.1 then x else y) | none => some x) none with
  | some x => some x.2
  | none =>
    let l := (s.others.filter fun e => e.2.b.healthy && e.2.b.headOk).map (·.1) ++
      (if s.healthy && s.rb Kx.synId 30 then [s.self] else [])
    l.foldl (fun (b : Option Nat) d => match b with | some x => some (min x d) | none => some d) none

/-- Depth on the node tree, eccentricity and diameter (13_node R311, R315). -/
def State.nodeDepth (s : State) : Nat := match s.node.head with | some h => min 15 (s.hops h) | none => 0
def State.nodeEcc (s : State) : Nat := min 15 ((s.others.map fun e => s.hops e.1).foldl max 0)
def State.nodeDiam (s : State) : Nat := (s.others.map fun e => e.2.b.ecc).foldl max s.nodeEcc

/-- What an outgoing beacon says (13_node R315). -/
def State.beacon (s : State) : Beacon :=
  let best := s.claims.foldl (fun (b : Nat × Nat) x => if b.1 < x.1 then x else b) (0, 0)
  { dev := s.self, nvmaj := s.nvmaj, nvmin := BitVec.ofNat 8 (s.rf Kx.synVer 23 16), feat := s.rd Kx.synFeat
    healthy := s.healthy, headOk := s.rb Kx.synId 30, claim := best.1, claimDev := best.2, head := s.node.head
    depth := s.nodeDepth, ecc := s.nodeEcc, epoch := s.plan.epoch, plandiff := s.node.plandiff, tq := s.clk.devTq }

/-- The node-head subscription's terms (13_node R319, Table 13.7). -/
def State.nodeArgs (s : State) : SubArgs :=
  let st := s.rf Kx.synSubcfg 1 0
  { units := BitVec.ofNat 48 (s.rd64 Kx.synSubuLo Kx.synSubuHi), types := s.rd Kx.synSubt
    start := BitVec.ofNat 2 (if 2 ≤ st then 0 else st) }

/-- The node-head sink starts when the device joins, and ends when it leaves or the sink is disabled; with a new head, each index
not acknowledged is sent again (13_node R319, R322). -/
def State.noteSink (s : State) (changed : Bool) : State :=
  let have_ := (s.subOf .node).isSome
  if s.nodeSends && !have_ then (s.beginSub .node s.nodeArgs (s.subStart true s.nodeArgs)).measChange
  else if have_ && !(s.rb Kx.synSubcfg 31 && s.rb Kx.synId 31) then
    { s with subs := s.subs.filter fun x => x.sink != Sink.node }.measChange
  else if changed then s.modSub .node fun x => { x with next := x.cursor }
  else s

/-- A device gives up the head role: its node ring takes an END entry, whose cursor the specification does not give
(13_node R318). -/
def State.dropHead (s : State) : State :=
  let (e, s) := s.draw
  let s := match s.nodeRing with
    | some (c, n) => s.modRing c n fun r => { r with due := r.due ++ [(true, e.toNat, 0)] }
    | none => s
  s.modNode fun n =>
    { n with isHead := false, headCand := 0, op := none, places := []
             devs := n.devs.map fun (x : Nat × NodeDev) => (x.1, { x.2 with queue := [], got := 0 }) }

/-- Compute the head anew, with what follows: the role is given up, a major version that differs estranges, and the features in
use are those all members share (13_node R316, R327). -/
def State.refreshNode (s : State) : State :=
  if !(s.rb Kx.synId 31) then s
  else
    let old := s.node.head
    let h := s.computeHead
    let s := if s.node.isHead && h != some s.self then s.dropHead else s
    let hb := (h.bind fun d => sget s.node.devs d).map (·.b)
    let ver := match h with | some d => d != s.self && (hb.getD {}).nvmaj != s.nvmaj | none => false
    let was := s.node.estranged
    let peers := (s.others.filter fun e => e.2.b.nvmaj == s.nvmaj).map (·.2.b)
    let s := s.modNode fun n =>
      { n with head := h, estranged := n.dup || ver
               nfeat := if h.isNone then 0 else peers.foldl (fun (m : BitVec 32) b => m &&& b.feat) (s.rd Kx.synFeat)
               nvminn := peers.foldl (fun (m : BitVec 8) b => if b.nvmin < m then b.nvmin else m)
                 (BitVec.ofNat 8 (s.rf Kx.synVer 23 16)) }
    let s :=
      if ver && !was then
        let own := s.beacon
        let o := hb.getD {}
        let w := fun (b : Beacon) => (word64 [(b.nvmaj.toNat, 40), (b.nvmin.toNat, 32), (b.feat.toNat, 0)]).toNat
        s.disagree ndVersion (h.getD 0) (w own) (w o)
      else s
    s.noteSink (old != h)

/-- Abort the node commit that a new head finds before T − 10 µs; later, its reports are awaited. A new head that takes no part in the
commit knows of it from the PREPARE, up to the rollback instant (13_node R326). -/
def State.adoptOp (s : State) : State :=
  match s.node.nt with
  | some T =>
    if !s.plan.node && decide (T + 20 * usT < s.now) then s.modNode fun n => { n with nt := none }
    else if s.now + 10 * usT < T then
      let s := (s.emit (.nodeMsg 64 nmGo 0 0)).modNode fun n => { n with nt := none, result := BitVec.ofNat 8 rNotReady }
      if s.plan.node then s.notReady else s
    else
      s.modNode fun n =>
        { n with op := some { kind := 1, t := T, parts := if s.plan.node then [s.self] else [], gone := true
                              due := max (T + 10 * usT) (s.now + 10 * usT) } }
  | none => s

/-- A device takes the head role: each member's epoch is the one it reports (13_node R316, R328). -/
def State.takeHead (s : State) : State :=
  (s.modNode fun n =>
    { n with isHead := true
             devs := n.devs.map fun (x : Nat × NodeDev) =>
               (x.1, { x.2 with expect := some x.2.b.epoch, plandiff := x.2.b.plandiff, queue := [], got := 0 }) }).adoptOp

/-- BEACON_SEND: the device computes the head, counts its beacon instants, and floods (13_node R315, R316, R318). -/
def execBeaconSend (t : Nat) (s : State) : Host.Outcome State Fault Refusal :=
  onHub t (fun s =>
    if !(s.rb Kx.synId 31) then s
    else
      let s := s.refreshNode
      let mine := s.node.head == some s.self
      let s := s.modNode fun n => { n with headCand := if mine then min 2 (n.headCand + 1) else 0 }
      let s := if mine && !s.node.isHead && s.node.headCand = 2 then s.takeHead else s
      let other := s.others.find? fun e => e.2.b.head.isSome && e.2.b.head != s.node.head
      let s := s.modNode fun n => { n with conflict := if other.isSome then min 3 (n.conflict + 1) else 0 }
      let s := match other with
        | some e =>
          if s.node.conflict = 2 then s.disagree ndHead e.1 (s.node.head.getD 0) (e.2.b.head.getD 0) else s
        | none => s
      s.upPorts.foldl (fun (s : State) (p : Nat) => s.emit (.beacon p s.beacon)) s) s

/-- BEACON_RECEIVED: it is flooded on where it came by the shortest path, and the head is computed anew. A beacon of this device's
own index that is not its own means a duplicated identity (13_node R307, R315, R327, R328). -/
def execBeaconReceived (t : Nat) (port : Fin 3) (b : Beacon) (s : State) : Host.Outcome State Fault Refusal :=
  onHub t (fun s =>
    if !(s.rb Kx.synId 31) || (s.port port).st != spUp then s
    else if b.dev = s.self then
      if b.echo || s.node.dup then s
      else
        ((s.modNode fun n => { n with dup := true, estranged := true }).setB Kx.synStatus 5 true).disagree ndDupId s.self
          (2 ^ port.val) 0
    else
      let joins := !(s.node.reachable s.now b.dev)
      let s := s.modDev b.dev fun x =>
        { x with b := b, at_ := s.now, routes := sput x.routes port.val (b.hops + 1, s.now)
                 expect := if s.node.isHead && (joins || x.expect.isNone) then some b.epoch else x.expect
                 plandiff := if s.node.isHead && joins then b.plandiff else x.plandiff }
      let s := s.modNode fun n =>
        if n.claimHi < b.claim then { n with claimHi := b.claim, claimDev := b.claimDev } else n
      let s :=
        if (s.route b.dev).any fun r => r.1 == port.val then
          (s.upPorts.filter fun p => p != port.val).foldl (fun (s : State) (p : Nat) =>
            s.emit (.beacon p { b with hops := b.hops + 1 })) s
        else s
      s.refreshNode) s

/-- BEACON_TIMEOUT: a device without a beacon for 300 µs is unreachable (13_node R315). -/
def execBeaconTimeout (t : Nat) (dev : BitVec 6) (s : State) : Host.Outcome State Fault Refusal :=
  onHub t (fun s =>
    match sget s.node.devs dev.toNat with
    | some x =>
      if x.at_ + beaconLife < s.now then
        (s.modNode fun n => { n with devs := sdel n.devs dev.toNat }).refreshNode
      else s
    | none => s) s

/-- A write of KX_SYN_CLAIM (13_node R317). -/
def State.claimWrite (s : State) (p : Port) (v : Word) : State :=
  let on := v.getLsbD 31
  s.rwsWrite p (on != s.rb Kx.synClaim 31) fun s =>
    let s := s.setB Kx.synClaim 31 on
    let s :=
      if on then s.modNode fun n => { n with claim := n.claimHi + 1, claimHi := n.claimHi + 1, claimDev := s.self }
      else s.modNode fun n => { n with claim := 0 }
    s.refreshNode

/-- HEAD_CLAIM. -/
def execHeadClaim (t : Nat) (port : Port) (value : Word) (s : State) : Host.Outcome State Fault Refusal :=
  onWrite t port Kx.synClaim.off (fun s => s.notDbg port Kx.synClaim.off fun s => s.claimWrite port value) s

/-! ## Node time -/

/-- The device time state after a node exchange that measured `o` ticks from the head, with the count of exchanges toward a better
one (02_fabric_time R54). -/
def alignNext (q : BitVec 2) (k : Nat) (o : Int) : BitVec 2 × Nat :=
  let a := o.natAbs
  if q = 3 then
    if 8000 < a then (3, 0) else if k + 1 < 8 then (3, k + 1) else (2, 0)
  else if 8000 < a then (3, 0)
  else if q = 2 then
    if 200 < a then (2, 0) else if k + 1 < 8 then (2, k + 1) else (0, 0)
  else if 400 < a then (2, 0)
  else (q, 0)

/-- The device time state changes by a node exchange: TSYNC, and a FAULT record unless it is aligned (13_node R329). -/
def State.nodeAlign (s : State) (o : Int) : State :=
  let (q, k) := alignNext s.clk.devTq s.node.aligned o
  let s := s.modNode fun n => { n with aligned := k }
  if q = s.clk.devTq then s
  else
    let s := s.setDevTq q tsDevState o
    if q = 0 then { s with clk := { s.clk with suspect := false } }
    else s.disagree ndTime s.self (BitVec.ofInt 64 o).toNat q.toNat

/-- A resync runs after an exchange that measured `o`: the exchange makes the device TIME_SUSPECT, or one made it so before and the device is
not aligned again (02_fabric_time R54). A device that is SUSPECT after a reference outage alone resyncs once an exchange measures more
than 50 ns. -/
def State.resyncs (s : State) (o : Int) : Bool :=
  let q := (alignNext s.clk.devTq s.node.aligned o).1
  if q = 2 then s.clk.devTq != 2 || s.node.resync || decide (400 < o.natAbs) else q == 3 && s.node.resync

/-- The probe of an exchange with the smallest round trip, the first of equals (13_node R310, 02_fabric_time R43). -/
def bestProbe (l : List NodeProbe) : Option NodeProbe :=
  l.foldl (fun (b : Option NodeProbe) (x : NodeProbe) =>
    match b with
    | none => some x
    | some y => some (if x.t4 - x.t1 < y.t4 - y.t1 then x else y)) none

/-- Twice the offset that a probe measures, and twice its delay, under the asymmetry of the cable (02_fabric_time R43). -/
def probeHalf (x : NodeProbe) (asym : Int) : Int :=
  ((Int.ofNat x.t2 - Int.ofNat x.t1) - (Int.ofNat x.t4 - Int.ofNat x.t3)) - asym
def probeTrip (x : NodeProbe) : Int := (Int.ofNat x.t4 - Int.ofNat x.t1) - (Int.ofNat x.t3 - Int.ofNat x.t2)

/-- NODE_TIME_EXCHANGE: once in a microsecond, OFFH is the offset of the best probe plus the parent's; the servo slews by the gains of
R44 (13_node R310). Replies from a device that is not the parent measure nothing. -/
def execNodeTimeExchange (t : Nat) (port : Fin 3) (parent : BitVec 6) (probes : List NodeProbe) (s : State) :
    Host.Outcome State Fault Refusal :=
  onHub t (fun s =>
    match s.node.head.bind fun h => s.route h, bestProbe (probes.take 8) with
    | some (p, _), some x =>
      if p != port.val || (s.port p).peer != some parent then s
      else if s.node.slot = some (s.now / usT) || s.node.estranged || s.node.isHead || !(s.rb Kx.synId 31) then s
      else
        let half := probeHalf x (signedOf 12 (s.rf (Kx.synPcfg p) 11 0))
        let o := half.tdiv 2 + x.offh
        let resync := s.resyncs o
        let v := s.node.servo.count (2 * o)
        let v := if resync then { v with high := true } else v.gain
        let v := { v with st := svLocked, resid := half }
        let s := s.modPort p fun y => { y with delay := ((probeTrip x).tdiv 8).toNat }
        let s := s.modNode fun n =>
          { n with offh := o, servo := v.correct s.now (2 * o), resync := resync, slot := some (s.now / usT) }
        s.nodeAlign o
    | _, _ => s) s

/-- NODE_PROBE: a parent replies with its timestamps and its OFFH, 0 at the head (13_node R310). -/
def execNodeProbe (t : Nat) (port : Fin 3) (s : State) : Host.Outcome State Fault Refusal :=
  onHub t (fun s =>
    if (s.port port).st != spUp then s
    else s.emit (.nodeMsg (((s.port port).peer.map (·.toNat)).getD 0) nmTimeReply s.now (BitVec.ofInt 64 s.node.offh).toNat)) s

/-- Rounded toward zero to a multiple of 8 ticks (13_node R312). -/
def stepTicks (o : Int) : Nat := o.natAbs / 8 * 8

/-- NODE_STEP_ORDER: what the head orders for a member's OFFH. Of the instants R312 allows it names 6 µs of the member's FT ahead,
as in the worked example, and 50 µs (log entry 26). -/
def execNodeStepOrder (t : Nat) (dev : BitVec 6) (offh : Int) (join : Bool) (s : State) : Host.Outcome State Fault Refusal :=
  onHub t (fun s =>
    let d := dev.toNat
    if !s.node.isHead || d = s.self || !(s.node.reachable s.now d) then s
    else if 8000 < offh then
      s.emit (.nodeMsg d nmStep ((Int.ofNat s.now - offh).toNat + 6 * usT) (stepTicks offh))
    else if offh < -8000000 && join then
      let at_ := s.now + 50 * usT
      let s := (s.others.filter fun e => e.1 != d).foldl (fun (s : State) (e : Nat × NodeDev) =>
        s.emit (.nodeMsg e.1 nmStep at_ (stepTicks offh))) s
      { s with clk := { s.clk with steps := s.clk.steps ++ [(at_, stepTicks offh)] } }
    else s) s

/-- NODE_STEP_RECEIVED: a device-wide forward step is scheduled (13_node R312, 02_fabric_time R40). -/
def execNodeStepReceived (t : Nat) (at_ : BitVec 64) (ticks : BitVec 64) (s : State) : Host.Outcome State Fault Refusal :=
  onHub t (fun s =>
    if !s.inNode || s.node.isHead then s
    else { s with clk := { s.clk with steps := s.clk.steps ++ [(at_.toNat, ticks.toNat)] } }) s

/-! ## Triggers -/

/-- How long a TRIG block is remembered (13_node R313). -/
def trigLife : Nat := 10 * usT

/-- TRIG_BLOCK_RECEIVED; an estranged device only relays it (13_node R313, R327). -/
def execTrigBlockReceived (t : Nat) (port : Fin 3) (origin : BitVec 6) (line : Fin 8) (serial : BitVec 8) (ctrl : Bool) (s : State) :
    Host.Outcome State Fault Refusal :=
  onHub t (fun s =>
    let s := s.modNode fun n => { n with seen := n.seen.filter fun x => decide (s.now ≤ x.2.2 + trigLife) }
    if !(s.rb Kx.synId 31) || (s.port port).st != spUp || s.node.seen.any fun x => x.1 == origin.toNat && x.2.1 == serial.toNat then s
    else
      let s := s.modNode fun n => { n with seen := n.seen ++ [(origin.toNat, serial.toNat, s.now)] }
      let s := (s.upPorts.filter fun p => p != port.val).foldl (fun (s : State) (p : Nat) =>
        s.emit (.trigBlock p origin.toNat line serial)) s
      if s.devId.isSome && s.rb (Kx.hubTrigCfg line) 28 then
        s.raise ((1 : BitVec 8) <<< line.val) orNode (origin.toNat / 8 * 256 + origin.toNat % 8) (meshEnter s.now) s.now ctrl false
      else s) s

/-! ## Aggregation -/

/-- NODE_PROGRESS: a member sends its device watermark to the head (13_node R320). -/
def execNodeProgress (t : Nat) (s : State) : Host.Outcome State Fault Refusal :=
  onHub t (fun s =>
    if !s.inNode || s.node.isHead then s else s.emit (.nodeMsg (s.node.head.getD 0) nmProgress s.wm 0)) s

/-- NODE_PROGRESS_RECEIVED (13_node R320). -/
def execNodeProgressReceived (t : Nat) (dev : BitVec 6) (wm : BitVec 64) (s : State) : Host.Outcome State Fault Refusal :=
  onHub t (fun s =>
    if !s.node.isHead || (sget s.node.devs dev.toNat).isNone then s
    else s.modDev dev.toNat fun x => { x with prog := max x.prog wm.toNat }) s

/-- The node watermark: the least progress over the members that count (13_node R320). -/
def State.nodeWm (s : State) : Nat :=
  let own := if s.clk.devTq != 3 && !s.node.plandiff then [s.wm] else []
  let l := own ++ (s.others.filter s.serving).map fun e => e.2.prog
  l.foldl min (l.headD 0)

/-- REC_FRAME_RECEIVED: the head queues a member's curd, or its LAPPED notice, while its node buffer has room
(13_node R319, R320). -/
def execRecFrameReceived (t : Nat) (dev : BitVec 6) (x : NodeItem) (s : State) : Host.Outcome State Fault Refusal :=
  onHub t (fun s =>
    if !s.node.isHead || !s.nodeRoom || !(s.node.nfeat.getLsbD 3) || (sget s.node.devs dev.toNat).isNone then s
    else match x with
      | .curd j c => s.queueCurd dev.toNat j c
      | .lapped _ _ => s.modDev dev.toNat fun y => { y with queue := y.queue ++ [x] }) s

/-- A LAPPED notice, which waits for no watermark. -/
def NodeItem.isLapped : NodeItem → Bool
  | .curd _ _ => false
  | .lapped _ _ => true

/-- FTBASE of a curd in the node buffer. -/
def NodeItem.ftBase : NodeItem → Nat
  | .curd _ c => c.ftBase
  | .lapped _ _ => 0

/-- The device whose curd is placed next: an EXCLUDED device's and a LAPPED notice at once, else the least FTBASE that the node
watermark has passed (13_node R320). -/
def State.nextPlace (s : State) : Option Nat :=
  let l := s.node.devs.filter fun e => !e.2.queue.isEmpty
  let tq := fun (e : Nat × NodeDev) => if e.1 = s.self then s.clk.devTq else e.2.b.tq
  let ft := fun (e : Nat × NodeDev) => (e.2.queue.head?.map NodeItem.ftBase).getD 0
  match l.find? fun e => tq e == 3 || (e.2.queue.head?.any NodeItem.isLapped) with
  | some e => some e.1
  | none =>
    let least := l.foldl (fun (b : Option (Nat × Nat)) (e : Nat × NodeDev) =>
      match b with
      | some x => if ft e < x.2 then some (e.1, ft e) else b
      | none => some (e.1, ft e)) none
    match least with
    | some (d, f) => if f < s.nodeWm then some d else none
    | none => none

/-- NODE_PLACE: the head places one curd in the node ring (13_node R320, R321). -/
def execNodePlace (t : Nat) (s : State) : Host.Outcome State Fault Refusal :=
  onHub t (fun s =>
    match s.nodeRing, s.nextPlace with
    | some (c, n), some d =>
      if !(s.ringOpen c n) then s
      else if !(s.ring c n).due.isEmpty then s.placeRing c n
      else match (sgetD s.node.devs d {}).queue with
        | [] => s
        | .lapped a b :: l => (s.modDev d fun y => { y with queue := l }).putLapped c n a b (some d)
        | .curd j x :: l =>
          let pi := (s.ring c n).pi
          let s := s.modDev d fun y => { y with queue := l }
          (s.putCurd c n j x).modNode fun m => { m with places := m.places ++ [(d, j, pi)] }
    | _, _ => s) s

/-- NODE_ACK_RECEIVED: the node-head cursor advances (13_node R319). -/
def execNodeAckReceived (t : Nat) (jidx : Nat) (s : State) : Host.Outcome State Fault Refusal :=
  onHub t (fun s => s.modSub .node fun x => if jidx < x.next then x.acked jidx else x) s

/-- BOUNDARY_REPORT at the head (13_node R328). -/
def execBoundaryReport (t : Nat) (dev : BitVec 6) (kind : BitVec 2) (epoch : BitVec 32) (s : State) :
    Host.Outcome State Fault Refusal :=
  onHub t (fun s =>
    let d := dev.toNat
    match sget s.node.devs d with
    | none => s
    | some x =>
      if !s.node.isHead then s
      else if 2 ≤ kind.toNat then s.modDev d fun y => { y with expect := some epoch }
      else if x.plandiff then s
      else
        (s.modDev d fun y => { y with plandiff := true }).disagree ndPlan d ((x.expect.getD 0).toNat) epoch.toNat) s

/-! ## Node snapshots -/

/-- Set the result of a node operation and its map. -/
def State.nodeResult (s : State) (res : Nat) (m : BitVec 64) : State :=
  s.modNode fun n => { n with result := BitVec.ofNat 8 res, nmap := m }

/-- The bit of a device. -/
def devBit (d : Nat) : BitVec 64 := (1 : BitVec 64) <<< d

/-- The map of a list of devices. -/
def devMap (l : List Nat) : BitVec 64 := l.foldl (fun (m : BitVec 64) d => m ||| devBit d) 0

/-- KX_SYN_NCMD SNAPSHOT (13_node R323). -/
def State.nodeSnapshot (s : State) : State :=
  let nt := s.rd64 Kx.synNtLo Kx.synNtHi
  let T := if nt = 0 then s.now + 50 * usT else nt
  if !s.node.isHead || !(s.node.nfeat.getLsbD 0) then s.nodeResult rBadArg 0
  else if T < s.now + 50 * usT then s.nodeResult rTooSoon 0
  else
    let id := s.node.snapId + 1
    let s := s.modNode fun n => { n with snapId := id }
    let s := (s.others.filter fun e => e.2.b.nvmaj == s.nvmaj && e.2.b.tq != 3).foldl (fun (s : State) (e : Nat × NodeDev) =>
      s.emit (.nodeMsg e.1 nmSnapshot T id.toNat)) s
    match s.requestSnap (some T) none id with
    | (s, .ok _ _) => s.nodeResult rOk 0
    | (s, _) => s.nodeResult rOk (devBit s.self)

/-- NODE_SNAPSHOT. -/
def execNodeSnapshot (t : Nat) (port : Port) (s : State) : Host.Outcome State Fault Refusal :=
  onWrite t port Kx.synNcmd.off (fun s => s.notDbg port Kx.synNcmd.off fun s => s.nodeSnapshot) s

/-- NODE_SNAPSHOT_RECEIVED: the member applies R77; a refusal is reported (13_node R323). -/
def execNodeSnapshotReceived (t : Nat) (at_ : BitVec 64) (id : BitVec 32) (s : State) : Host.Outcome State Fault Refusal :=
  onHub t (fun s =>
    if !s.inNode || s.node.isHead || s.clk.devTq = 3 then s
    else match s.requestSnap (some at_.toNat) none id with
      | (s, .ok _ _) => s
      | (s, _) => s.emit (.nodeMsg (s.node.head.getD 0) nmReport nrBusy id.toNat)) s

/-! ## Node commits -/

/-- The open transaction belongs to a register path (13_node R324). -/
def State.pathTxn (s : State) : Bool :=
  s.plan.phase == .opened && (s.lease.kind == okPortA || s.lease.kind == okPortB)

/-- This device takes part in a node commit for T: its lease is pinned and PREPARE goes to its stations (13_node R325). -/
def State.joinCommit (s : State) (T : Nat) : State := (s.prepare T none true).modNode fun n => { n with nt := some T }

/-- The devices of a bit map. -/
def devsOf (m : BitVec 64) : List Nat := (List.range 64).filter fun d => m.getLsbD d

/-- KX_SYN_NCMD COMMIT (13_node R324). -/
def State.nodeCommit (s : State) (parts busy : BitVec 64) : State :=
  let T := s.rd64 Kx.synNtLo Kx.synNtHi
  let busy := if s.lease.kind != 0 && !s.pathTxn then busy ||| devBit s.self else busy
  if !s.node.isHead || !(s.node.nfeat.getLsbD 1) then s.nodeResult rBadArg 0
  else if s.node.op.isSome then s.nodeResult rCommitting 0
  else if T < s.now + 50 * usT then s.nodeResult rTooSoon 0
  else if s.now + secT < T then s.nodeResult rTooFar 0
  else if busy != 0 then s.nodeResult rNotReady busy
  else
    let own := s.pathTxn
    let ds := (devsOf parts).filter fun d => d != s.self && s.node.reachable s.now d
    let s := (s.emit (.nodeMsg 64 nmPrepare T 0)).modNode fun n =>
      { n with op := some { kind := 1, t := T, parts := ds ++ (if own then [s.self] else []), due := T + 10 * usT } }
    if own then s.joinCommit T else s

/-- NODE_COMMIT. -/
def execNodeCommit (t : Nat) (port : Port) (parts busy : BitVec 64) (s : State) : Host.Outcome State Fault Refusal :=
  onWrite t port Kx.synNcmd.off (fun s => s.notDbg port Kx.synNcmd.off fun s => s.nodeCommit parts busy) s

/-- NODE_PREPARE_RECEIVED (13_node R324, R325). -/
def execNodePrepareReceived (t : Nat) (at_ : BitVec 64) (s : State) : Host.Outcome State Fault Refusal :=
  onHub t (fun s =>
    if !s.inNode || s.node.isHead then s
    else if s.pathTxn then s.joinCommit at_.toNat
    else if s.lease.kind != 0 then s.emit (.nodeMsg (s.node.head.getD 0) nmReport nrBusy at_.toNat)
    else s.modNode fun n => { n with nt := some at_.toNat }) s

/-- NODE_READY_RECEIVED (13_node R325). -/
def execNodeReadyReceived (t : Nat) (dev : BitVec 6) (s : State) : Host.Outcome State Fault Refusal :=
  onHub t (fun s =>
    let d := dev.toNat
    s.modNode fun n =>
      { n with op := n.op.map fun o =>
          if o.gone then o else { o with parts := insertNew o.parts d, ready := insertNew o.ready d } }) s

/-- All stations of this device are ready in its node commit. -/
def State.ownReady (s : State) : Bool :=
  s.plan.node && s.plan.phase == .preparing && s.plan.parts.all fun n => decide (n ∈ s.plan.ready)

/-- The participants that have answered neither READY nor swapped, by a test of the device itself. -/
def opMissing (o : NodeOp) (self : Nat) (own : Bool) (done : List Nat) : List Nat :=
  o.parts.filter fun d => if d = self then !own else !(d ∈ done)

/-- The head ends a node commit without a swap (13_node R325). -/
def State.abortCommit (s : State) (m : BitVec 64) : State :=
  let s := ((s.emit (.nodeMsg 64 nmGo 0 0)).nodeResult rNotReady m).modNode fun n => { n with op := none, nt := none }
  if s.plan.node && s.plan.phase == .preparing then s.notReady else s

/-- NODE_GO_DECISION: at T − 10 µs (13_node R325). -/
def execNodeGoDecision (t : Nat) (s : State) : Host.Outcome State Fault Refusal :=
  onHub t (fun s =>
    match s.node.op with
    | none => s
    | some o =>
      if o.gone || s.now + 10 * usT < o.t then s
      else
        let miss := opMissing o s.self s.ownReady o.ready
        if miss.isEmpty then
          ((s.emit (.nodeMsg 64 nmGo 1 o.t)).modNode fun n => { n with op := some { o with gone := true } }).modPlan fun p =>
            if p.node then { p with nodeGo := some true } else p
        else s.abortCommit (devMap miss)) s

/-- NODE_GO_RECEIVED (13_node R325, R326). -/
def execNodeGoReceived (t : Nat) (go : Bool) (s : State) : Host.Outcome State Fault Refusal :=
  onHub t (fun s =>
    if !s.plan.node || s.plan.phase != .preparing then (if go then s else s.modNode fun n => { n with nt := none })
    else if go then s.modPlan fun p => { p with nodeGo := some true }
    else (s.modNode fun n => { n with nt := none }).notReady) s

/-- NODE_SWAP_REPORT_RECEIVED. A BUSY ends the commit at once; the refusal of a snapshot sets its bit (13_node R323-R325). -/
def execNodeSwapReportReceived (t : Nat) (dev : BitVec 6) (kind : BitVec 2) (s : State) : Host.Outcome State Fault Refusal :=
  onHub t (fun s =>
    let d := dev.toNat
    if !s.node.isHead then s
    else if kind.toNat = nrBusy then
      match s.node.op with
      | some o => if o.gone then s else s.abortCommit (devBit d)
      | none => s.modNode fun n => { n with nmap := n.nmap ||| devBit d }
    else if kind.toNat = nrSwapped then
      s.modNode fun n => { n with op := n.op.map fun o => { o with parts := insertNew o.parts d, swapped := insertNew o.swapped d } }
    else s.modNode fun n => { n with op := n.op.map fun o => { o with parts := insertNew o.parts d } }) s

/-- The node outcome is OK at a participant: its commit is kept, and it leaves PLANDIFF (13_node R326, R328). -/
def State.nodeOk (s : State) : State :=
  if s.plan.node && s.plan.nodeSwap == some true then
    s.commitOk.modNode fun n => { n with nt := none, plandiff := false, expect := none }
  else s

/-- NODE_REPORT_DEADLINE: at T + 10 µs the head has its outcome: OK, or a rollback is ordered (13_node R325, R328). -/
def execNodeReportDeadline (t : Nat) (ok : Bool) (s : State) : Host.Outcome State Fault Refusal :=
  onHub t (fun s =>
    if !s.node.isHead then (if ok && s.inNode && s.plan.t + 10 * usT ≤ s.now then s.nodeOk else s)
    else match s.node.op with
      | none => s
      | some o =>
        if !o.gone || o.missed.isSome || s.now < o.due then s
        else
          let miss := opMissing o s.self (s.plan.nodeSwap == some true) o.swapped
          if miss.isEmpty then
            let s := (s.nodeResult rOk 0).modNode fun n =>
              { n with op := none
                       devs := n.devs.map fun (x : Nat × NodeDev) =>
                         (x.1, if x.1 ∈ o.parts then { x.2 with plandiff := false } else x.2) }
            s.nodeOk
          else
            ((s.emit (.nodeMsg 64 nmRollback (o.due + 10 * usT) 0)).nodeResult rSwapMiss (devMap miss)).modNode fun n =>
              { n with op := some { o with missed := some (devMap miss) } }) s

/-- A participant's rollback boundary of a node commit at `bft`: it applies where it did swap (13_node R325, R326). -/
def State.nodeUndo (s : State) (bft : Nat) : State :=
  let s :=
    if s.plan.nodeSwap == some true then
      let s := s.modPlan fun p => { p with rbFrom := p.epoch - 1, rbMissed := 0, rbAt := bft, rbWait := p.parts }
      let s := (s.plan.parts.filter fun n => s.stnOn n && s.reach n).foldl (fun (s : State) (n : Nat) => s.applyRollback n bft) s
      s.hubRollback bft 0
    else s
  s.swapMissed.modNode fun n => { n with nt := none }

/-- NODE_ROLLBACK: at T + 20 µs (13_node R325). -/
def execNodeRollback (t : Nat) (s : State) : Host.Outcome State Fault Refusal :=
  onHub t (fun s =>
    let at_ := match s.node.op with | some o => o.due + 10 * usT | none => s.plan.t + 20 * usT
    if s.now < at_ || (s.node.isHead && !(s.node.op.any fun o => o.missed.isSome)) then s
    else
      let s := s.modNode fun n => { n with op := none }
      if s.plan.node && s.plan.nodeSwap.isSome then s.nodeUndo at_ else s) s

/-! ## Node queries -/

/-- NODE_QUERY_RECEIVED (13_node R330). -/
def execNodeQueryReceived (t : Nat) (dev : BitVec 6) (a : QueryArgs) (s : State) : Host.Outcome State Fault Refusal :=
  onHub t (fun s =>
    if !s.nodeQueries || !s.inNode then s
    else if 64 ≤ s.churn.qs.length then s.emit (.nodeAns dev.toNat { result := rQBusy, asof := s.wm })
    else s.registerQuery { args := a, from_ := some dev.toNat }) s

/-- NODE_QUERY_ANSWER_RECEIVED (13_node R330). -/
def execNodeQueryAnswerReceived (t : Nat) (id : Nat) (dev : BitVec 6) (ans : Answer) (s : State) : Host.Outcome State Fault Refusal :=
  onHub t (fun s =>
    s.modChurn fun c =>
      { c with qs := c.qs.map fun (x : Query) =>
          if x.id = id && dev.toNat ∈ x.waiting then
            { x with waiting := x.waiting.filter (· != dev.toNat), node := some (x.node.getD [] ++ [(dev.toNat, ans)]) }
          else x }) s

/-- NODE_QUERY_TIMEOUT: the members that have not answered within 1 ms are left out, and the answer sets MISSING (13_node R330). -/
def execNodeQueryTimeout (t : Nat) (id : Nat) (s : State) : Host.Outcome State Fault Refusal :=
  onHub t (fun s =>
    s.modChurn fun c =>
      { c with qs := c.qs.map fun (x : Query) =>
          if x.id = id && !x.waiting.isEmpty && decide (x.since + msT ≤ s.now) then { x with waiting := [], partial_ := true } else x }) s

/-! ## Registers -/

/-- What follows a write of the sync-link registers: ports train or go down, a device leaves the node, a corrected identity is no
duplicate, and the node-head sink ends (13_node R305, R327, Table 13.6). -/
def State.noteSyn (s : State) (idMoved : Bool) : State :=
  let s := (List.range 3).foldl (fun (s : State) (p : Nat) =>
    let x := s.port p
    let on := s.rb (Kx.synPcfg p) 31
    if x.st == spRetired then s
    else if !on && x.st != spDown then s.modPort p fun x => { x with st := spDown, peer := none }
    else if on && x.st == spDown then s.modPort p fun x => { x with st := spTraining }
    else s) s
  let s := if idMoved then s.modNode fun n => { n with dup := false, estranged := false } else s
  let s :=
    if s.rb Kx.synId 31 then s
    else
      let s := if s.node.isHead then s.dropHead else s
      let s := s.modNode fun n =>
        { n with head := none, headCand := 0, conflict := 0, estranged := false, nfeat := 0, plandiff := false, expect := none, aligned := 0 }
      if s.clk.suspect then s else s.setDevTq 0 tsDevState 0
  s.noteSink false

end Sys2Proof.Machine
end

