-- ==== Sys2Proof/Machine/Egress.lean ====
section
/-!
DEFINITION. The egress port and the Caravan transport (15_egress R359-R372).
-/

namespace Sys2Proof.Machine

/-- Stream k. -/
def State.strm (s : State) (k : Nat) : Strm := sgetD s.egr.strms k {}

/-- Change stream k. -/
def State.modStrm (s : State) (k : Nat) (f : Strm → Strm) : State :=
  { s with egr := { s.egr with strms := sput s.egr.strms k (f (s.strm k)) } }

/-- STATE of a stream as it is held; WAIT and DOWN are read from the window and the port (15_egress Table 15.3). -/
def esOff : BitVec 3 := 0
def esSend : BitVec 3 := 1
def esWait : BitVec 3 := 2
def esStalled : BitVec 3 := 3
def esDown : BitVec 3 := 4
def esEnding : BitVec 3 := 5

/-! ## Lanes and sub-ports (15_egress R361-R363) -/

/-- Lane l may be used: ACTIVE, and enabled in LANEEN. -/
def State.laneOk (s : State) (l : Nat) : Bool := s.rb Kx.egrCfg (8 + l) && (s.chan (0x5000 + l)).st == chActive

/-- MODE, with 0b11 taken as 0b00. -/
def State.egrMode (s : State) : Nat := if s.rf Kx.egrCfg 30 29 = 3 then 0 else s.rf Kx.egrCfg 30 29

/-- WIDTH that the lanes allow at 800G (15_egress R362). -/
def State.laneWidth (s : State) : BitVec 2 :=
  let low := [0, 1, 2, 3].all s.laneOk
  let high := [4, 5, 6, 7].all s.laneOk
  if low && high then 0 else if low then 1 else if high then 2 else 3

/-- The lanes of sub-port k in the present mode (15_egress Table 15.1). -/
def State.subLanes (s : State) (k : Nat) : List Nat :=
  if s.egrMode = 1 then (if k < 2 then (List.range 4).map (4 * k + ·) else [])
  else if s.egrMode = 2 then (if k < 4 then [2 * k, 2 * k + 1] else [])
  else if k = 0 then (if s.egr.width = 1 then [0, 1, 2, 3] else if s.egr.width = 2 then [4, 5, 6, 7] else
    if s.egr.width = 0 then List.range 8 else []) else []

/-- Sub-port k may come up: the port is enabled, the mode has it and its lanes are usable. -/
def State.subOk (s : State) (k : Nat) : Bool :=
  s.rb Kx.egrCfg 31 && !(s.subLanes k).isEmpty && (s.subLanes k).all s.laneOk

/-- Sub-port k is up. -/
def State.subUp (s : State) (k : Nat) : Bool := k < 4 && s.egr.up.getLsbD k

/-- The sub-port a stream uses: PORT, or ALTPORT once it has moved (15_egress R363). -/
def State.strmPort (s : State) (k : Nat) : Nat :=
  if (s.strm k).onAlt then s.rf (Kx.egrScfg k) 24 22 else s.rf (Kx.egrScfg k) 28 26

/-- Stream k reads DOWN. -/
def State.strmDown (s : State) (k : Nat) : Bool := !(s.subUp (s.strmPort k))

/-- STATE of KX_EGR_SSTAT (15_egress Table 15.3). -/
def State.strmState (s : State) (k : Nat) : BitVec 3 :=
  let x := s.strm k
  if x.st = esOff then esOff
  else if s.strmDown k then esDown
  else if x.st = esEnding then esEnding
  else if x.st = esStalled then esStalled
  else if x.window < x.next then esWait
  else esSend

/-! ## Packets (15_egress R365) -/

def ptData : Nat := 0x01
def ptLapped : Nat := 0x02
def ptProbe : Nat := 0x03
def ptEnd : Nat := 0x04

/-- FLAGS: RETX, FILTERED (15_egress Table 15.2). -/
def packetFlags (retx filtered : Bool) : BitVec 8 := BitVec.ofNat 8 (b1 retx + 2 * b1 filtered)

/-- The unit's MAC and IPv6 addresses. -/
def State.egrMac (s : State) : BitVec 48 := BitVec.ofNat 48 (s.rf Kx.egrMacHi 15 0 * 2 ^ 32 + (s.rd Kx.egrMacLo).toNat)
def State.egrAddr (s : State) : BitVec 128 :=
  BitVec.ofNat 128 ((List.range 4).foldl (fun a i => a * 2 ^ 32 + (s.rd (Kx.egrIp i)).toNat) 0)

/-- The receiver's address of stream k. -/
def State.strmDst (s : State) (k : Nat) : BitVec 128 :=
  BitVec.ofNat 128 ([Kx.egrSdst0 k, Kx.egrSdst1 k, Kx.egrSdst2 k, Kx.egrSdst3 k].foldl (fun a r => a * 2 ^ 32 + (s.rd r).toNat) 0)

/-- DEVID of a Caravan header: INNODE, BOARD, SLOT (15_egress Table 15.2). -/
def State.cvDevId (s : State) : Nat :=
  match s.devId with
  | some d => 0x8000 + d / 8 % 8 * 0x1000 + d % 8 * 0x200
  | none => 0

/-- The 48 B header of a Caravan packet; its integers are big-endian (15_egress Table 15.2). -/
def State.cvHeader (s : State) (k ty : Nat) (flags : BitVec 8) (csn jidx plen : Nat) : List Byte :=
  beBytes 2 0x4356 ++ beBytes 1 0x10 ++ beBytes 1 ty ++ beBytes 1 k ++ [flags] ++ beBytes 2 s.cvDevId ++
    beBytes 4 (s.strm k).session.toNat ++ beBytes 4 plen ++ beBytes 8 csn ++ beBytes 8 jidx ++ beBytes 8 s.now ++ beBytes 8 0

/-- The frame that carries a packet of stream k (15_egress R359, R360, R365). -/
def State.cvFrame (s : State) (k ty : Nat) (flags : BitVec 8) (csn jidx : Nat) (body : List Byte) : CvFrame :=
  { sub := s.strmPort k
    dmac := BitVec.ofNat 48 (s.rf (Kx.egrSmacHi k) 15 0 * 2 ^ 32 + (s.rd (Kx.egrSmacLo k)).toNat), smac := s.egrMac
    vlan := if s.rb Kx.egrCfg 28 then some (s.rf Kx.egrCfg 2 0, s.rf Kx.egrCfg 27 16) else none
    dscp := s.rf (Kx.egrScfg k) 21 16, sip := s.egrAddr, dip := s.strmDst k
    sport := s.rf (Kx.egrSport k) 31 16, dport := s.rf (Kx.egrSport k) 15 0
    hdr := s.cvHeader k ty flags csn jidx body.length, body := body }

/-- Send a packet of stream k. -/
def State.sendPacket (s : State) (k ty : Nat) (flags : BitVec 8) (csn jidx : Nat) (body : List Byte) : State :=
  s.emit (.caravan (s.cvFrame k ty flags csn jidx body))

/-- RTO and DEAD in ticks (15_egress Table 15.3). -/
def State.rto (s : State) : Nat := max 20 (s.rf Kx.egrTiming 31 16) * usT
def State.dead (s : State) : Nat := max 1 (s.rf Kx.egrTiming 15 0) * msT

/-- Ticks a packet holds a stream under RATE: 4,096 B at RATE x 100 MB/s (15_egress R368, log entry 37). -/
def State.paceTicks (s : State) (k : Nat) : Nat :=
  let r := min 1000 (s.rf (Kx.egrScfg k) 15 0)
  if r = 0 then 0 else (327680 + r - 1) / r

/-- Send a PROBE; it takes no CSN (15_egress R366). -/
def State.sendProbe (s : State) (k : Nat) : State :=
  (s.sendPacket k ptProbe 0 0 0 []).modStrm k fun x => { x with probeAt := s.now }

/-- The subscription arguments of stream k (15_egress R364). -/
def State.strmArgs (s : State) (k : Nat) : SubArgs :=
  { units := BitVec.ofNat 48 (s.rf (Kx.egrSunitHi k) 15 0 * 2 ^ 32 + (s.rd (Kx.egrSunitLo k)).toNat)
    types := s.rd (Kx.egrStype k)
    start := BitVec.ofNat 2 (s.rf (Kx.egrScfg k) 30 29)
    startIdx := s.rd64 (Kx.egrSidxLo k) (Kx.egrSidxHi k) }

/-- The curd that stream k carries for an index: operator scope (15_egress R364). -/
def State.strmCurd (s : State) (k jidx : Nat) : Option Curd :=
  (s.jrn.mem.find? fun e => e.1 == jidx).bind fun e => s.selectCurd {} (s.strmArgs k) e.2

/-- The CSNs already sent whose curds lie in slots up to an index: the first and the last, or 1 and 0 for none (15_egress R370). -/
def Strm.goneCsns (x : Strm) (last csn : Nat) : Nat × Nat :=
  let gone := (x.sent.filter fun e => match e.2.1 with | .data j => decide (j ≤ last) | _ => false).map (·.1)
  if gone.isEmpty then (1, 0) else (gone.foldl min csn, gone.foldl max 0)

/-- Send, or send again, what a CSN carries; a resend reads the curd from the journal (15_egress R369, R370). The integers of the bodies of
LAPPED and END are taken as big-endian, as those of the header are (log entry 37). -/
def State.sendCsn (s : State) (k csn : Nat) (kind : CsnKind) (retx : Bool) : State :=
  match kind with
  | .data j =>
    match s.strmCurd k j with
    | some c => s.sendPacket k ptData (packetFlags retx c.filtered) csn j (c.words.flatMap bytesOf64)
    | none => s
  | .lapped f l cf cl => s.sendPacket k ptLapped (packetFlags retx false) csn 0 ([f, l, l + 1 - f, cf, cl].flatMap (beBytes 8))
  | .probe => s.sendProbe k
  | .endMark => s.sendPacket k ptEnd (packetFlags retx false) csn 0 (beBytes 8 csn)

/-- A CSN is sent for the first time. -/
def State.firstSend (s : State) (k : Nat) (kind : CsnKind) : State :=
  let csn := (s.strm k).next
  let s := s.sendCsn k csn kind false
  s.modStrm k fun x =>
    { x with
      next := csn + 1, paceAt := s.now + s.paceTicks k, ackAt := if x.sent.isEmpty then max x.ackAt s.now else x.ackAt
      sent := x.sent ++ [(csn, kind, s.now, 0)] }

/-- A resend: RETX, and the stream's count (15_egress R369, Table 15.3). -/
def State.resendCsn (s : State) (k csn : Nat) : State :=
  match (s.strm k).sent.find? fun e => e.1 == csn with
  | none => s
  | some e =>
    let s := (s.sendCsn k csn e.2.1 true).incF (Kx.egrSstat k) 15 0 1
    s.modStrm k fun x =>
      { x with
        paceAt := s.now + s.paceTicks k
        sent := x.sent.map fun (y : Nat × CsnKind × Nat × Nat) => if y.1 = csn then (y.1, y.2.1, s.now, y.2.2.2 + 1) else y }

/-- A stream that was lapped: what lies in overwritten slots is never resent (15_egress R370). -/
def State.sendLapped (s : State) (k first last : Nat) : State :=
  let s := (s.setB (Kx.egrSstat k) 28 true).modSub (.stream k) fun x => { x with lap := none }
  let g := (s.strm k).goneCsns last (s.strm k).next
  let s := s.firstSend k (.lapped first last g.1 g.2)
  s.modStrm k fun x =>
    let dead := fun (e : Nat × CsnKind × Nat × Nat) => match e.2.1 with | .data j => decide (j ≤ last) | _ => false
    let gone := (x.sent.filter dead).map (·.1)
    { x with
      sent := x.sent.filter fun e => !(dead e)
      resend := x.resend.filter fun c => !(c ∈ gone), retry := x.retry.filter fun c => !(c ∈ gone) }

/-- The next index that stream k sends, or passes over (15_egress R366; 06_admission R146). -/
def State.sendNext (s : State) (k : Nat) : State :=
  match s.subOf (.stream k) with
  | none => s
  | some x =>
    match x.lap with
    | some (a, b) => s.sendLapped k a b
    | none =>
      if s.jrn.delivTo ≤ x.next then s
      else
        let j := x.next
        let idle := (s.strm k).sent.isEmpty
        match s.strmCurd k j with
        | some _ =>
          let s := { s with egr := { s.egr with last := sput s.egr.last (s.strmPort k) k } }
          (s.firstSend k (.data j)).modSub (.stream k) fun y => { y with next := j + 1 }
        | none => s.modSub (.stream k) fun y => { y with next := j + 1, cursor := if idle then j + 1 else y.cursor }

/-- What stream k has to send now, by the order of R368: 0 a resend that an ACK prompted or a control packet, 1 a timeout resend, 2 new
DATA; none where it has nothing, or no room under its window and rate. -/
def State.cvClass (s : State) (k : Nat) : Option Nat :=
  let x := s.strm k
  if x.st = esOff || s.strmDown k || x.wait || s.now < x.paceAt then none
  else if !x.resend.isEmpty then some 0
  else if !x.retry.isEmpty then some 1
  else if x.window < x.next || x.st = esStalled then none
  else if x.st = esEnding then (if x.sent.any fun e => e.2.1 == .endMark then none else some 0)
  else match s.subOf (.stream k) with
    | none => none
    | some y => if y.lap.isSome then some 0 else if s.jrn.delivTo ≤ y.next then none else some 2

/-- Stream k's turn on its sub-port: no other stream there has a packet of a higher rank, and new DATA goes round robin (15_egress R368). -/
def State.cvTurn (s : State) (k : Nat) : Bool :=
  match s.cvClass k with
  | none => false
  | some c =>
    let p := s.strmPort k
    let dist := fun (i : Nat) => (i + 31 - sgetD s.egr.last p 15) % 16
    !((List.range 16).any fun i => i != k && s.strmPort i == p &&
      match s.cvClass i with
      | some d => decide (d < c) || (c == 2 && d == 2 && decide (dist i < dist k))
      | none => false)

/-- CARAVAN_SEND: ACK-prompted resends, then timeout resends, then new packets within the window and the rate; a LAPPED packet
goes before END (15_egress R368, R369; 17_setup_registers Table 17.4). -/
def execCaravanSend (t : Nat) (str : Fin 16) (s : State) : Host.Outcome State Fault Refusal :=
  onHub t (fun s =>
    let k := str.val
    let x := s.strm k
    if !(s.cvTurn k) then s
    else
      match x.resend with
      | c :: l => (s.modStrm k fun x => { x with resend := l }).resendCsn k c
      | [] =>
        match x.retry with
        | c :: l => (s.modStrm k fun x => { x with retry := l }).resendCsn k c
        | [] =>
          if x.window < x.next || x.st = esStalled then s
          else if x.st = esEnding then
            if x.sent.any fun e => e.2.1 == .endMark then s
            else match (s.subOf (.stream k)).bind (·.lap) with
              | some (a, b) => s.sendLapped k a b
              | none => s.firstSend k .endMark
          else s.sendNext k) s

/-! ## Acknowledgements (15_egress R367, R370) -/

/-- A stream is over: it reads OFF, and its subscription is gone (15_egress R369). -/
def State.strmOff (s : State) (k : Nat) : State :=
  { (s.modStrm k fun _ => {}) with subs := s.subs.filter fun x => x.sink != Sink.stream k }

/-- Bits of BITMAP that name CSNs held beyond `base` - 1. -/
def heldCsns (base : Nat) (m : BitVec 256) : List Nat := ((List.range 256).filter fun k => m.getLsbD k).map (base + ·)

/-- An ACK with a valid session. A CUMCSN of all ones says that no CSN is held yet (log entry 37). -/
def State.takeAck (s : State) (k cum cumJ window : Nat) (m : BitVec 256) : State :=
  let x := s.strm k
  let base := (cum + 1) % 2 ^ 64
  let held := heldCsns base m
  if !x.wait && (decide (x.next < base) || held.any fun c => decide (x.next ≤ c)) then s.incF (Kx.egrSstat k) 23 16 1
  else
    let old := match x.cum with | some c => c.1 + 1 | none => 0
    let s := s.modStrm k fun x => { x with ackAt := s.now, st := if x.st = esStalled then esSend else x.st }
    if base < old then s
    else
      let s := s.modStrm k fun x =>
        { x with
          cum := if base = 0 then none else some (cum, cumJ), window := window, holds := held
          sent := x.sent.filter fun e => decide (base ≤ e.1)
          resend := x.resend.filter fun c => decide (base ≤ c) && !(c ∈ held)
          retry := x.retry.filter fun c => decide (base ≤ c) && !(c ∈ held)
          asked := x.asked.filter fun c => decide (base ≤ c) }
      let s := if base = 0 then s else s.modSub (.stream k) fun y => { y with cursor := max y.cursor (cumJ + 1) }
      if x.wait then
        let s := s.modStrm k fun x => { x with wait := false, next := base, sent := [], holds := [], resend := [], retry := [], asked := [] }
        s.modSub (.stream k) fun y =>
          if base = 0 then { y with next := y.cursor } else { y with cursor := cumJ + 1, next := cumJ + 1 }
      else
        let top := held.foldl max 0
        let now_ := s.strm k
        let miss := (now_.sent.map (·.1)).filter fun c => !(c ∈ held) && decide (c < top) && !(c ∈ now_.asked)
        let s := s.modStrm k fun x =>
          { x with resend := x.resend ++ miss, asked := x.asked ++ miss, retry := x.retry.filter fun c => !(c ∈ miss) }
        let ended := x.sent.any fun e => e.2.1 == .endMark && decide (e.1 < base)
        if (s.strm k).st = esEnding && ended then s.strmOff k else s

/-- A frame is discarded: RXDROP (15_egress R371). -/
def State.rxDrop (s : State) : State := s.incF Kx.egrStatus 15 8 1

/-- CARAVAN_ACK. -/
def execCaravanAck (t : Nat) (str : Fin 16) (session : BitVec 32) (cum cumJ window : BitVec 64) (bitmap : BitVec 256)
    (s : State) : Host.Outcome State Fault Refusal :=
  onHub t (fun s =>
    let x := s.strm str
    if x.st = esOff || x.session != session then s.rxDrop
    else s.takeAck str cum.toNat cumJ.toNat window.toNat bitmap) s

/-- RETRANSMIT_TIMEOUT: the CSN is due again; a stream without an ACK, or with a closed window, sends a PROBE (15_egress R369). -/
def execRetransmitTimeout (t : Nat) (str : Fin 16) (csn : Nat) (s : State) : Host.Outcome State Fault Refusal :=
  onHub t (fun s =>
    let k := str.val
    let x := s.strm k
    if x.st = esOff || s.strmDown k then s
    else
      let due := x.sent.any fun e => e.1 == csn && !(csn ∈ x.holds) && decide (e.2.2.1 + s.rto ≤ s.now)
      let s :=
        if due && !(csn ∈ x.resend) && !(csn ∈ x.retry) && !x.wait then s.modStrm k fun x => { x with retry := x.retry ++ [csn] } else s
      let every := if x.st = esStalled then s.dead else s.rto
      let needs := !x.sent.isEmpty || x.wait
      let closed := decide (x.window < x.next)
      if (needs && decide (max x.ackAt x.probeAt + every ≤ s.now)) || (closed && decide (x.probeAt + every ≤ s.now)) then s.sendProbe k
      else s) s

/-- STREAM_STALL: no ACK for DEAD ms; an ending stream reads OFF (15_egress R369). -/
def execStreamStall (t : Nat) (str : Fin 16) (s : State) : Host.Outcome State Fault Refusal :=
  onHub t (fun s =>
    let k := str.val
    let x := s.strm k
    match x.endAt with
    | some e => if x.st = esEnding && e + s.dead ≤ s.now then s.strmOff k else s
    | none =>
      if x.st = esSend && (!x.sent.isEmpty || x.wait || decide (x.window < x.next)) && x.ackAt + s.dead ≤ s.now then
        s.modStrm k fun x => { x with st := esStalled }
      else s) s

/-! ## Port restarts and takeovers (15_egress R363, R370) -/

/-- After a restart or a takeover the stream probes, and the next ACK sets its cursor. -/
def State.strmResume (s : State) (k : Nat) : State :=
  if (s.strm k).st = esOff then s
  else
    (s.modStrm k fun x =>
      { x with wait := true, resend := [], retry := [], holds := [], asked := [], ackAt := s.now
               window := (match x.cum with | some c => c.1 + 1 | none => 0) + 63 }).sendProbe k

/-- Streams of sub-ports that are not up move to ALTPORT where it is; a stream back on its PORT resumes there. -/
def State.strmMove (s : State) (k : Nat) : State :=
  let x := s.strm k
  let main := s.rf (Kx.egrScfg k) 28 26
  let alt := s.rf (Kx.egrScfg k) 24 22
  if x.st = esOff then s
  else if x.onAlt && s.subUp main then (s.modStrm k fun x => { x with onAlt := false }).strmResume k
  else if !x.onAlt && !(s.subUp main) && s.rb (Kx.egrScfg k) 25 && s.subUp alt then
    (s.modStrm k fun x => { x with onAlt := true }).strmResume k
  else s

/-- A sub-port goes down. -/
def State.subDown (s : State) (k : Nat) : State :=
  let s := { s with egr := { s.egr with up := s.egr.up &&& ~~~((1 : BitVec 4) <<< k) } }
  (List.range 16).foldl (fun (s : State) i => s.strmMove i) s

/-- SUBPORT_UP: its streams send a PROBE and resume (15_egress R363). -/
def execSubportUp (t : Nat) (sub : Fin 4) (s : State) : Host.Outcome State Fault Refusal :=
  onHub t (fun s =>
    if !(s.subOk sub) || s.subUp sub then s
    else
      let s := { s with egr := { s.egr with up := s.egr.up ||| ((1 : BitVec 4) <<< sub.val) } }
      let here := (List.range 16).filter fun i => (s.strm i).st != esOff && s.strmPort i == sub.val
      let s := here.foldl (fun (s : State) i => s.strmResume i) s
      (List.range 16).foldl (fun (s : State) i => if i ∈ here then s else s.strmMove i) s) s

/-- EGRESS_LINK_DOWN: the peer or the module takes a sub-port down (15_egress R363). -/
def execEgressLinkDown (t : Nat) (sub : Fin 4) (s : State) : Host.Outcome State Fault Refusal :=
  onHub t (fun s => if s.subUp sub then s.subDown sub else s) s

/-- A stream on the port has resends pending (15_egress R362). -/
def State.resendsPending (s : State) : Bool :=
  (List.range 16).any fun k => !(s.strm k).resend.isEmpty || !(s.strm k).retry.isEmpty

/-- PORT_RESTART: the port re-forms after a lane retired or came back. A full width waits until no resend is pending
(15_egress R362). -/
def execPortRestart (t : Nat) (s : State) : Host.Outcome State Fault Refusal :=
  onHub t (fun s =>
    let restart := fun (s : State) => s.incF Kx.egrStatus 7 0 1
    if !(s.rb Kx.egrCfg 31) then s
    else if s.egrMode = 0 then
      let w := s.laneWidth
      let wider := w = 0 || s.egr.width = 3
      let lost := s.egr.owed != 0
      if w = s.egr.width && !lost then s
      else if w = 0 && wider && s.resendsPending && !lost then s
      else restart ({ s with egr := { s.egr with width := w, owed := 0 } }.subDown 0)
    else
      let lost := (List.range 4).filter fun k => s.egr.owed.getLsbD k || (s.subUp k && !(s.subOk k))
      let s := { s with egr := { s.egr with owed := 0 } }
      lost.foldl (fun (s : State) (k : Nat) => restart (s.subDown k)) s) s

/-- The streams of a hub that becomes active (15_egress R370). -/
def State.egrTakeover (s : State) : State := (List.range 16).foldl (fun (s : State) k => s.strmResume k) s

/-! ## Received frames (15_egress R371) -/

/-- A received frame is kept: one with the tag that the port expects and without extension headers (15_egress R359, R371). -/
def State.keeps (s : State) (f : RxFrame) : Bool :=
  let mine := (List.range 16).any fun k =>
    (s.strm k).st != esOff && s.rf (Kx.egrSport k) 31 16 == f.dport.toNat && s.rf (Kx.egrSport k) 15 0 == f.sport.toNat &&
      s.strmDst k == f.sip && (s.strm k).session == f.session
  let vid := if s.rb Kx.egrCfg 28 then some (BitVec.ofNat 12 (s.rf Kx.egrCfg 27 16)) else none
  f.fits && !f.ext && f.vlan == vid && f.dmac == s.egrMac && f.dip == s.egrAddr && (f.ns || (f.udp && mine && f.sumOk && f.ackLen))

/-- EGRESS_FRAME_RX: what is kept follows as a CARAVAN_ACK or a NEIGHBOR_SOLICITATION. -/
def execEgressFrameRx (t : Nat) (f : RxFrame) (s : State) : Host.Outcome State Fault Refusal :=
  onHub t (fun s =>
    if !(s.rb Kx.egrCfg 31) then s
    else if f.pause then (s.setB Kx.egrStatus 17 true).rxDrop
    else if s.keeps f then s
    else s.rxDrop) s

/-- NEIGHBOR_SOLICITATION: answered for the unit's own address (15_egress Table 15.1). -/
def execNeighborSolicitation (t : Nat) (target : BitVec 128) (s : State) : Host.Outcome State Fault Refusal :=
  onHub t (fun s =>
    if s.rb Kx.egrCfg 31 && s.egr.up != 0 && target == s.egrAddr then s.emit (.neighborAdv s.egrAddr) else s) s

/-! ## Registers (15_egress R364, R369, R372) -/

/-- A stream starts (15_egress R364). -/
def State.strmStart (s : State) (k : Nat) : State :=
  let n := s.egr.session + 1
  let s := { s with egr := { s.egr with session := n } }
  let s := s.modStrm k fun _ => { st := esSend, session := n, ackAt := s.now }
  let a := s.strmArgs k
  (s.beginSub (.stream k) a (s.subStart true a)).strmMove k

/-- A write dropped under R372. -/
def State.egrCfgErr (s : State) : State := s.setB Kx.egrStatus 16 true

/-- A write of KX_EGR_SCFG[k] (15_egress R364, R369, R372). -/
def State.writeScfg (s : State) (p : Port) (k : Nat) (v : Word) : State :=
  let r := Kx.egrScfg k
  let x := s.strm k
  s.rwsWrite p (s.rd r != v) fun s =>
    let moved := (s.rd r ^^^ v) &&& 0x7FFFFFFF#32 != 0
    if x.st = esOff then
      let s := s.wr r v
      if v.getLsbD 31 then s.strmStart k else s
    else
      let s := if moved || (x.st = esEnding && v.getLsbD 31) then s.egrCfgErr else s
      if v.getLsbD 31 || x.st = esEnding then s
      else (s.setB r 31 false).modStrm k fun x => { x with st := esEnding, endAt := some s.now }

/-- STREAM_START. -/
def execStreamStart (t : Nat) (port : Port) (str : Fin 16) (value : Word) (s : State) : Host.Outcome State Fault Refusal :=
  let r := Kx.egrScfg str
  onWrite t port r.off (fun s => s.notDbg port r.off fun s => s.writeScfg port str (value ||| 0x80000000#32)) s

/-- STREAM_END. -/
def execStreamEnd (t : Nat) (port : Port) (str : Fin 16) (value : Word) (s : State) : Host.Outcome State Fault Refusal :=
  let r := Kx.egrScfg str
  onWrite t port r.off (fun s => s.notDbg port r.off fun s => s.writeScfg port str (value &&& 0x7FFFFFFF#32)) s

/-- A write of another register of stream k: dropped while the stream is not OFF (15_egress R372). -/
def State.writeStrmReg (s : State) (p : Port) (k off : Nat) (v : Word) : State :=
  if (s.strm k).st != esOff then s.egrCfgErr else s.writeHub p off v

/-- A write of KX_EGR_CFG: while EN is set only its clearing acts, and that is the operator's restart
(15_egress R362, R372, log entry 37). -/
def State.writeEgrCfg (s : State) (p : Port) (v : Word) : State :=
  let r := Kx.egrCfg
  if s.rb r 31 && v.getLsbD 31 then s.egrCfgErr
  else
    s.rwsWrite p (s.rd r != v &&& 0xFFFFFF07#32) fun s =>
      let was := s.rb r 31
      let s := s.wr r (v &&& 0xFFFFFF07#32)
      if was then (List.range 4).foldl (fun (s : State) k => s.subDown k) (s.incF Kx.egrStatus 7 0 1)
      else { s with egr := { s.egr with width := if s.egrMode = 0 then s.laneWidth else 3 } }

/-- A write of KX_EGR_MAC or KX_EGR_IP (15_egress R372). -/
def State.writeEgrAddr (s : State) (p : Port) (off : Nat) (v : Word) : State :=
  if s.rb Kx.egrCfg 31 then s.egrCfgErr else s.writeHub p off v

end Sys2Proof.Machine
end

