-- ==== Sys2Proof/Machine/Gray.lean ====
section
/-!
DEFINITION. Grayth mode: the raw record stream and its registers (16_grayth R373-R379). Its automatic transactions stand with the
plans.
-/

namespace Sys2Proof.Machine

/-- The selection of the raw stream (16_grayth R373). -/
def grayArgs : SubArgs := { units := 0xFFFFFFFFFFFF, types := 0xFFFFFFFF }

/-- A block is in its slot and confirmed: WPTR advances and is written back (16_grayth R374). -/
def State.grayPut (s : State) (ws : List (BitVec 64)) : State :=
  let base := s.rf Kx.glbGrayBaseLo 31 12 * 4096 + 2 ^ 32 * (s.rd Kx.glbGrayBaseHi).toNat
  let s := s.emit (.raw (base + 4096 * (s.gray.wptr % s.grayLen)) ws)
  let w := (s.gray.wptr + 1) % 2 ^ 32
  let wba := s.rf Kx.glbGrayWbaLo 31 3 * 8 + 2 ^ 32 * (s.rd Kx.glbGrayWbaHi).toNat
  ({ s with gray := { s.gray with wptr := w } }).emit (.raw wba [BitVec.ofNat 64 w])

/-- A skip block (16_grayth R376). -/
def skipBlock (first last : Nat) : List (BitVec 64) :=
  [word64 [(0x4753, 48), (1, 44)], BitVec.ofNat 64 first, BitVec.ofNat 64 last, BitVec.ofNat 64 (last + 1 - first)] ++
    List.replicate 508 0

/-- GRAY_PLACE: the next block of the raw stream, confirmed (16_grayth R374, R376). -/
def execGrayPlace (t : Nat) (s : State) : Host.Outcome State Fault Refusal :=
  onHub t (fun s =>
    match s.subOf .gray with
    | none => s
    | some x =>
      if !s.gray.running || s.grayFull then s
      else
        match x.lap with
        | some (a, b) =>
          ((s.grayPut (skipBlock a b)).incF Kx.glbGrayStat 31 24 1).modSub .gray fun y => { y with lap := none }
        | none =>
          if s.jrn.delivTo ≤ x.next || !(s.mayPlace rawShare) then s
          else
            let j := x.next
            let s := match (s.jrn.mem.find? fun e => e.1 == j).bind fun e => s.selectCurd {} grayArgs e.2 with
              | some c => (s.countPlaced rawShare).grayPut c.words
              | none => s
            s.modSub .gray fun y => { y with next := j + 1, cursor := j + 1 }) s

/-- A write to KX_GLB_GRAY_RPTR (16_grayth R375). -/
def State.writeRptr (s : State) (p : Port) (v : Word) : State :=
  if p != .a then s
  else
    let d := (v.toNat + 2 ^ 32 - s.gray.rptr) % 2 ^ 32
    let room := (s.gray.wptr + 2 ^ 32 - s.gray.rptr) % 2 ^ 32
    if d = 0 || 2 ^ 31 ≤ d then s
    else if room < d then s.setB Kx.glbGrayStat 15 true
    else { s with gray := { s.gray with rptr := v.toNat, rptrOld := s.gray.rptr, rptrAt := some (hubCycle s.now) } }

/-- GRAY_RPTR_WRITE. -/
def execGrayRptrWrite (t : Nat) (port : Port) (value : Word) (s : State) : Host.Outcome State Fault Refusal :=
  onWrite t port Kx.glbGrayRptr.off (fun s => s.notDbg port Kx.glbGrayRptr.off fun s => s.writeRptr port value) s

/-- A write dropped under R379. -/
def State.grayCfgErr (s : State) : State := s.setB Kx.glbGrayStat 13 true

/-- A write of KX_GLB_GRAY_CFG: the Port A register path alone writes it (16_grayth R379). -/
def State.writeGrayCfg (s : State) (p : Port) (v : Word) : State :=
  let r := Kx.glbGrayCfg
  let m := 0xC0FF001F#32
  let on := s.rb r 31
  let up := v.getLsbD 31
  if p != .a then (if (s.rd r ^^^ v) &&& m != 0 then s.denied else s)
  else if on && up then s.grayCfgErr
  else
    s.rwsWrite p ((s.rd r ^^^ v) &&& m != 0) fun s =>
      if on then
        let s := s.wr r (v &&& m)
        { s with gray := { s.gray with running := false }, subs := s.subs.filter fun x => x.sink != Sink.gray }
      else if up && !s.jrnOn then s.grayCfgErr
      else
        let s := s.wr r (v &&& m)
        if up then ({ s with gray := { running := true } }).beginSub .gray grayArgs s.jrn.widx else s

/-- GRAY_ENABLE. -/
def execGrayEnable (t : Nat) (port : Port) (value : Word) (s : State) : Host.Outcome State Fault Refusal :=
  let r := Kx.glbGrayCfg
  onWrite t port r.off (fun s => s.notDbg port r.off fun s => s.writeGrayCfg port (value ||| 0x80000000#32)) s

/-- GRAY_DISABLE. -/
def execGrayDisable (t : Nat) (port : Port) (value : Word) (s : State) : Host.Outcome State Fault Refusal :=
  let r := Kx.glbGrayCfg
  onWrite t port r.off (fun s => s.notDbg port r.off fun s => s.writeGrayCfg port (value &&& 0x7FFFFFFF#32)) s

/-- A write of GRAY_BASE or GRAY_WBA (16_grayth R379). -/
def State.writeGrayAddr (s : State) (p : Port) (off : Nat) (v : Word) : State :=
  if p != .a then s
  else if s.rb Kx.glbGrayCfg 31 then s.grayCfgErr
  else s.writeHub p off v

/-- A hub that becomes active places again from the mirrored cursor (16_grayth Table 16.1). -/
def State.grayResume (s : State) (cursor : Option Nat) : State :=
  match cursor with
  | some c => s.modSub .gray fun y => { y with cursor := c, next := c, lap := none }
  | none => s

end Sys2Proof.Machine
end

