-- ==== Sys2Proof/Machine/Mailbox.lean ====
section
/-!
DEFINITION. Mailboxes and the requests the service firmware serves through them (11_management R281-R284, Tables 11.9, 11.10;
12_isolation R296; 14_startup R356).
-/

namespace Sys2Proof.Machine

/-- Mailbox m. -/
def State.mbx (s : State) (m : Nat) : Mbx := sgetD s.mbxs m {}

/-- Change mailbox m. -/
def State.modMbx (s : State) (m : Nat) (f : Mbx → Mbx) : State := { s with mbxs := sput s.mbxs m (f (s.mbx m)) }

/-- PORT, DEADMODE HOLD and PTR of KX_MBX_CFG[m] (11_management Table 11.9). -/
def State.mbxPort (s : State) (m : Nat) : Port := if s.rb (Kx.mbxCfg m) 31 then .b else .a
def State.mbxHold (s : State) (m : Nat) : Bool := s.rb (Kx.mbxCfg m) 30
def State.mbxPtr (s : State) (m : Nat) : Bool := s.rb (Kx.mbxCfg m) 29

/-- Sticky bits of KX_MBX_TXSTAT (11_management Table 11.9). -/
def txReject : Nat := 1
def txAckLost : Nat := 2
def txNotOwner : Nat := 3
def txNoMsg : Nat := 4

/-- Words in use in a direction's queue. -/
def MbxDir.used (d : MbxDir) : Nat := (d.msgs.map fun m => m.2.length).sum

/-- Add a message with the next sequence number (11_management R282). -/
def MbxDir.post (d : MbxDir) (ws : List Word) : MbxDir := { d with msgs := d.msgs ++ [(d.seq, ws)], seq := d.seq + 1 }

/-- The oldest message is acknowledged: its words are free, and the entry joins the sender's queue of 8, which drops its oldest
(11_management R283). -/
def MbxDir.ack (d : MbxDir) (rc : BitVec 16) : MbxDir :=
  match d.msgs with
  | [] => d
  | m :: rest => { d with msgs := rest, acks := (d.acks ++ [(m.1, rc)]).drop (d.acks.length - 7) }

/-- Signal the host of mailbox m: kind 2 message, 3 acknowledge entry (11_management R283, Table 11.8). -/
def State.mbxSignal (s : State) (m kind : Nat) : State :=
  if s.mbxPort m = .b then s.sendNotice (0x100 + m) kind else s.msixSend (4096 + m)

/-- The firmware acknowledges the oldest H2F message; the host is signalled unless VALID was already set (R283). -/
def State.h2fAck (s : State) (m : Nat) (rc : BitVec 16) : State :=
  let d := (s.mbx m).h2f
  if d.msgs.isEmpty then s
  else
    let s := s.modMbx m fun x => { x with h2f := x.h2f.ack rc }
    let s := if d.acks.length = 8 then s.setB (Kx.mbxTxstat m) txAckLost true else s
    if d.acks.isEmpty then s.mbxSignal m 3 else s

/-- A host-side access to mailbox m from a port: the other port's is dropped and sets NOTOWNER (R281). -/
def State.mbxOwner (s : State) (p : Port) (m off : Nat) (f : State → State) : State :=
  s.notDbg p off fun s => if p = s.mbxPort m then f s else s.setB (Kx.mbxTxstat m) txNotOwner true

/-- Words staged by a port. -/
def Mbx.tx (x : Mbx) (p : Port) : SMap Word := if p = .b then x.txB else x.txA

/-- A write to KX_MBX_TXW[m][k]: one set per port (Table 11.9). -/
def State.mbxStage (s : State) (p : Port) (m k : Nat) (v : Word) : State :=
  s.notDbg p ((Kx.mbxTxw0 m).off + 4 * k) fun s =>
    s.modMbx m fun x => if p = .b then { x with txB := sput x.txB k v } else { x with txA := sput x.txA k v }

/-- A rejected post is signalled by its kind of write (11_management R282). -/
def State.mbxReject (s : State) (p : Port) (m : Nat) (dmwr : Bool) : State :=
  if p = .b then s.emit .nack
  else if dmwr then s.emit .completerAbort
  else s.setB (Kx.mbxTxstat m) txReject true

/-- Why a message of n words cannot be posted: too many, none, or not 3 with PTR (11_management R282). -/
def State.badPost (s : State) (m n : Nat) (d : MbxDir) : Bool :=
  decide (8 < d.used + n) || n == 0 || (s.mbxPtr m && n != 3)

/-- A write to KX_MBX_POST[m] (11_management R282). -/
def State.mbxPostWrite (s : State) (p : Port) (m : Nat) (v : Word) (dmwr : Bool) : State :=
  s.mbxOwner p m (Kx.mbxPost m).off fun s =>
    let n := fld v 3 0
    let x := s.mbx m
    if s.badPost m n x.h2f then s.mbxReject p m dmwr
    else s.modMbx m fun x => { x with h2f := x.h2f.post ((List.range n).map fun k => sgetD (x.tx p) k 0) }

/-- MBX_POST. -/
def execMbxPost (t : Nat) (port : Port) (mbx : Fin 16) (value : Word) (dmwr : Bool) (s : State) :
    Host.Outcome State Fault Refusal :=
  onWrite t port (Kx.mbxPost mbx).off (fun s => s.mbxPostWrite port mbx value dmwr) s

/-- A write to KX_MBX_ACK[m]: the host acknowledges the waiting message (11_management R283). -/
def State.mbxAckWrite (s : State) (p : Port) (m : Nat) (v : Word) : State :=
  s.mbxOwner p m (Kx.mbxAck m).off fun s =>
    if (s.mbx m).f2h.msgs.isEmpty then s.setB (Kx.mbxTxstat m) txNoMsg true
    else s.modMbx m fun x => { x with f2h := x.f2h.ack (BitVec.ofNat 16 (fld v 15 0)) }

/-- MBX_ACK. -/
def execMbxAck (t : Nat) (port : Port) (mbx : Fin 16) (value : Word) (s : State) : Host.Outcome State Fault Refusal :=
  onWrite t port (Kx.mbxAck mbx).off (fun s => s.mbxAckWrite port mbx value) s

/-- KX_MBX_ACKQ[m] as a word: VALID, SEQ, RC of the head entry (Table 11.9). -/
def MbxDir.ackWord (d : MbxDir) : Word :=
  match d.acks with
  | [] => 0
  | a :: _ => BitVec.ofNat 32 (2 ^ 31 + a.1.toNat * 2 ^ 16 + a.2.toNat)

/-- A read of KX_MBX_ACKQ[m] pops one entry for the mailbox's port; the other port reads zero and pops nothing (R281, Table 11.9,
log entry 35). -/
def State.mbxAckqRead (s : State) (p : Port) (m : Nat) : State × Word :=
  if p = s.mbxPort m then
    (s.modMbx m fun x => { x with h2f := { x.h2f with acks := x.h2f.acks.drop 1 } }, (s.mbx m).h2f.ackWord)
  else if p = .dbg then (s, (s.mbx m).h2f.ackWord)
  else (s, 0)

/-- MBX_ACKQ_READ. -/
def execMbxAckqRead (t : Nat) (port : Port) (mbx : Fin 16) (s : State) : Host.Outcome State Fault Refusal :=
  onRead t port (Kx.mbxAckq mbx).off (fun s => s.mbxAckqRead port mbx) s

/-- The live fields of KX_MBX_TXSTAT, RXINFO and RXW for a port (Table 11.9). -/
def State.mbxTxstat (s : State) (m : Nat) : Word :=
  let d := (s.mbx m).h2f
  BitVec.ofNat 32
    (d.seq.toNat * 2 ^ 24 + (8 - d.used) * 2 ^ 20 + d.acks.length * 2 ^ 16 + s.rf (Kx.mbxTxstat m) 4 1 * 2)
def State.mbxRxinfo (s : State) (p : Port) (m : Nat) : Word :=
  match (s.mbx m).f2h.msgs with
  | [] => 0
  | x :: _ => if p ≠ s.mbxPort m && p ≠ .dbg then 0 else BitVec.ofNat 32 (2 ^ 31 + x.2.length * 2 ^ 8 + x.1.toNat)
def State.mbxRxw (s : State) (p : Port) (m k : Nat) : Word :=
  match (s.mbx m).f2h.msgs with
  | [] => 0
  | x :: _ => if p ≠ s.mbxPort m && p ≠ .dbg then 0 else x.2.getD k 0

/-! ## Receiver resets -/

/-- A receiver of a direction resets: CLEAR empties it and answers ABORTED, HOLD leaves it (11_management R284). -/
def State.mbxReceiverReset (s : State) (m : Nat) (h2f : Bool) : State :=
  if s.mbxHold m then s
  else if h2f then (List.range (s.mbx m).h2f.msgs.length).foldl (fun (s : State) _ => s.h2fAck m 0xFFFF) s
  else
    (List.range (s.mbx m).f2h.msgs.length).foldl
      (fun (s : State) _ => s.modMbx m fun x => { x with f2h := x.f2h.ack 0xFFFF }) s

/-- The service firmware's side of every mailbox resets (R284). -/
def State.fwReset (s : State) : State :=
  (List.range 16).foldl (fun (s : State) m => s.mbxReceiverReset m true) s

/-- A port's side of its mailboxes resets, and its staged words are lost (R284, 14_startup Table 14.1). -/
def State.portMbxReset (s : State) (p : Port) : State :=
  (List.range 16).foldl (fun (s : State) m => if s.mbxPort m = p then s.mbxReceiverReset m false else s) s

/-- The words a port staged are lost with the port's own state (14_startup Table 14.1). -/
def State.dropTx (s : State) (p : Port) : State :=
  { s with mbxs := s.mbxs.map fun (e : Nat × Mbx) => (e.1, if p = .b then { e.2 with txB := [] } else { e.2 with txA := [] }) }

/-! ## The service firmware (11_management Table 11.10) -/

def mcPing : Nat := 0x0001
def mcFwInfo : Nat := 0x0002
def mcFwStage : Nat := 0x0010
def mcFwActivate : Nat := 0x0011
def mcDiagRun : Nat := 0x0020
def mcOasisDump : Nat := 0x0030
def mcConsole : Nat := 0x0100

/-- Codes served in direction H2F. -/
def mbxCodes : List Nat := [mcPing, mcFwInfo, mcFwStage, mcFwActivate, mcDiagRun, mcOasisDump]

/-- Return codes (Table 11.10). -/
def mrOk : BitVec 16 := 0
def mrUnknown : BitVec 16 := 1
def mrBadArg : BitVec 16 := 2
def mrBusy : BitVec 16 := 3
def mrBufErr : BitVec 16 := 4
def mrDenied : BitVec 16 := 5
def mrTooBig : BitVec 16 := 6

/-- CODE and ARG of a message (R281). -/
def msgCode (ws : List Word) : Nat := fld (ws.getD 0 0) 31 16
def msgArg (ws : List Word) : Nat := fld (ws.getD 0 0) 15 0

/-- The firmware answers UNKNOWN to the messages ahead whose CODE is not served (Table 11.10, log entry 35). -/
def State.answerUnknown : Nat → State → Nat → State
  | 0, s, _ => s
  | k + 1, s, m =>
    match (s.mbx m).h2f.msgs with
    | [] => s
    | x :: _ => if msgCode x.2 ∈ mbxCodes then s else State.answerUnknown k (s.h2fAck m mrUnknown) m

/-- The firmware serves mailbox m: `f` takes the oldest message and gives its return code; without one the message stays. -/
def State.serveMsg (s : State) (m code : Nat) (f : State → BitVec 8 × List Word → State × Option (BitVec 16)) : State :=
  let s := State.answerUnknown 8 s m
  match (s.mbx m).h2f.msgs with
  | [] => s
  | x :: _ =>
    if msgCode x.2 ≠ code then s
    else
      let (s, rc) := f s x
      match rc with
      | some rc => s.h2fAck m rc
      | none => s

/-- Serve a message that is answered at once. -/
def State.serve (s : State) (m code : Nat) (f : State → List Word → State × BitVec 16) : State :=
  s.serveMsg m code fun s x =>
    let (s, rc) := f s x.2
    (s, some rc)

/-- Length and address of the buffer a message names (R281). -/
def bufLen (ws : List Word) : Nat := 64 * (if msgArg ws = 0 then 65536 else msgArg ws)
def bufAddr (ws : List Word) : Nat := (ws.getD 1 0).toNat + 2 ^ 32 * (ws.getD 2 0).toNat

/-- Serve a message that names a buffer: BADARG without PTR; BUFERR where host memory fails the access, or where a Port B buffer
passes the end of hub SRAM. -/
def State.withBuf (s : State) (m : Nat) (ws : List Word) (ok : Bool) (f : State → State × BitVec 16) : State × BitVec 16 :=
  if !(s.mbxPtr m) then (s, mrBadArg)
  else if s.mbxPort m = .b && decide (sramSize < bufAddr ws + bufLen ws) then (s, mrBufErr)
  else if s.mbxPort m = .a && !ok then (s, mrBufErr)
  else f s

/-- Bytes as 64-bit words, least significant first, the last one filled with zeros. -/
def wordsOfBytes (bs : List Byte) : List (BitVec 64) :=
  (List.range ((bs.length + 7) / 8)).map fun i => BitVec.ofNat 64 (natOfBytes ((bs.drop (8 * i)).take 8))

/-- The firmware writes bytes to a message's buffer (R281). -/
def State.mbxWrite (s : State) (m : Nat) (ws : List Word) (bs : List Byte) : State :=
  if s.mbxPort m = .b then { s with sramW := s.sramW ++ [.write (bufAddr ws) bs] }
  else s.emit (.mbxBuf m (bufAddr ws) (wordsOfBytes bs))

/-- PING. -/
def execPing (t : Nat) (mbx : Fin 16) (s : State) : Host.Outcome State Fault Refusal :=
  onHub t (fun s => s.serve mbx mcPing fun s _ => (s, mrOk)) s

/-- FW_INFO: version, then measurement, of the image running (Table 11.10, log entry 35). -/
def execFwInfo (t : Nat) (mbx : Fin 16) (ok : Bool) (s : State) : Host.Outcome State Fault Refusal :=
  onHub t (fun s => s.serve mbx mcFwInfo fun s ws =>
    s.withBuf mbx ws ok fun s =>
      (s.mbxWrite mbx ws (bytesOfNat 4 s.fw.active.version.toNat ++ bytesOfNat 48 s.fw.active.meas.toNat), mrOk)) s

/-- The image of the staged chunks (12_isolation R296). -/
def imageOf (bs : List Byte) : FwImage := { version := Config.fwVersion bs, svn := Config.fwSvn bs, meas := Config.measure bs }

/-- The message that the running or waiting verification `o` answers still stands at the head of its mailbox. -/
def State.verifies (s : State) (o : SealOp) : Bool :=
  o.kind == .verify && ((s.mbx o.mbx).h2f.msgs.head?.map fun x => x.1.toNat) == some o.seq

/-- The last chunk has arrived: the Seal engine verifies the image (12_isolation R296, R301). -/
def State.fwVerify (s : State) (m seq : Nat) : State :=
  let all := s.fw.chunks
  ({ s with fw := { s.fw with chunks := [] } }).sealAsk
    { kind := .verify, mbx := m, seq := seq, img := if Config.fwSigOk all then some (imageOf all) else none }

/-- The verification of an image ends: the message is answered, and an OK image is staged (12_isolation R296). -/
def State.verifyEnd (s : State) (o : SealOp) : State :=
  let s := s.sealNext none
  if !(s.verifies o) then s
  else match o.img with
    | none => s.h2fAck o.mbx mrBadArg
    | some i =>
      if i.svn < s.integ.minSvn then s.h2fAck o.mbx mrDenied
      else
        let s : State := { s with fw := { s.fw with staged := some i } }
        s.h2fAck o.mbx mrOk

/-- FW_STAGE: a chunk is staged; the message of the last one waits for the verification. -/
def execFwStage (t : Nat) (mbx : Fin 16) (mem : Option (List Byte)) (last : Bool) (s : State) : Host.Outcome State Fault Refusal :=
  onHub t (fun s =>
    if s.sec.ops.any fun o => o.mbx == mbx.val && s.verifies o then s
    else s.serveMsg mbx mcFwStage fun s x =>
      let r := s.withBuf mbx x.2 mem.isSome fun s =>
        let bs := if s.mbxPort mbx = .b then Memory.readBytes s.sram (bufAddr x.2) (bufLen x.2) else (mem.getD []).take (bufLen x.2)
        ({ s with fw := { s.fw with chunks := s.fw.chunks ++ bs } }, mrOk)
      if last && r.2 = mrOk then (r.1.fwVerify mbx x.1.toNat, none) else (r.1, some r.2)) s

/-- SEAL_OP_COMPLETE: the running operation reaches its fixed time (12_isolation R301, R302). -/
def execSealOpComplete (t : Nat) (ok : Bool) (s : State) : Host.Outcome State Fault Refusal :=
  onHub t (fun s =>
    match s.sec.ops with
    | [] => s
    | o :: _ =>
      if s.now < s.sec.opEnds then s
      else match o.kind with
        | .keygen => s.keygenEnd o
        | .register => s.registerEnd o
        | .sign => s.signEnd o ok
        | .seal => s.sealEnd o
        | .verify => s.verifyEnd o) s

/-- FW_ACTIVATE: an OK image becomes active at the next warm reset; BADARG where there is none (12_isolation R296). -/
def execFwActivate (t : Nat) (mbx : Fin 16) (s : State) : Host.Outcome State Fault Refusal :=
  onHub t (fun s => s.serve mbx mcFwActivate fun s _ =>
    if s.fw.staged.isNone then (s, mrBadArg) else ({ s with fw := { s.fw with activate := true } }, mrOk)) s

/-- DIAG_RUN: which of the seven codes a self-test answers is not stated, a free value (log entry 35). -/
def execDiagRun (t : Nat) (mbx : Fin 16) (s : State) : Host.Outcome State Fault Refusal :=
  onHub t (fun s => s.serve mbx mcDiagRun fun s _ =>
    let (v, s) := s.draw
    (s, BitVec.ofNat 16 (v.toNat % 7))) s

/-- The Oasis that KX_OAS_CTL.SEL names (14_startup Table 14.9). -/
def State.oasSel (s : State) : HubId := if s.rb Kx.oasCtl 29 then .b else .a

/-- The 1024 slots of a ring as a dump writes them, oldest first; the empty ones are zeros (14_startup R356). -/
def OasisRing.dump (o : OasisRing) : List (Option Curd) :=
  (o.slots.map fun e => if e.1 ∈ o.bad then none else some e.2.1) ++ List.replicate (1024 - o.slots.length) none

/-- OASIS_DUMP: 4 MiB, which no Port B buffer holds (14_startup R356). -/
def execOasisDump (t : Nat) (mbx : Fin 16) (ok : Bool) (s : State) : Host.Outcome State Fault Refusal :=
  onHub t (fun s => s.serve mbx mcOasisDump fun s ws =>
    if s.mbxPtr mbx && msgArg ws ≠ 0 then (s, mrTooBig)
    else s.withBuf mbx ws ok fun s => (s.emit (.oasisDump mbx (bufAddr ws) (s.oasis s.oasSel).dump), mrOk)) s

/-- A write to KX_OAS_CTL: CLEAR zeroes the selected Oasis and unpins every slot, then clears itself; NEXT, GENSTART and PREV read 0
(14_startup R356, 17_setup_registers Table 17.4). -/
def State.oasCtlWrite (s : State) (p : Port) (v : Word) : State :=
  s.notDbg p Kx.oasCtl.off fun s =>
    s.rwsWrite p (((s.rd Kx.oasCtl) ^^^ v) &&& 0xE0000000#32 != 0) fun s =>
      let s := s.wr Kx.oasCtl (v &&& 0xA0000000#32)
      if v.getLsbD 30 then s.modOasis s.oasSel fun _ => { clearAt := some (hubCycle s.now) } else s

/-- OASIS_CLEAR. -/
def execOasisClear (t : Nat) (port : Port) (value : Word) (s : State) : Host.Outcome State Fault Refusal :=
  onWrite t port Kx.oasCtl.off (fun s => s.oasCtlWrite port value) s

/-- The pin that carries the debug UART's output (04_markers R111). -/
def State.uartTx (s : State) : Option Nat :=
  (List.range 8).find? fun p => (sgetD s.pins p {}).func == 4 && (sgetD s.pins p {}).park.isNone

/-- Ticks of one bit on the debug UART: 16 x (DIV + 1) cycles of 100 MHz (04_markers R110). -/
def State.uartBit (s : State) : Nat := 16 * (s.rf Kx.pinUart 15 0 + 1) * 80

/-- Console text leaves by the debug UART behind what it still sends, each character in 10 bits: start, 8 data, stop (04_markers R110). -/
def State.uartSend (s : State) (text : List Byte) : State :=
  match s.uartTx with
  | none => s
  | some p =>
    let x := sgetD s.pins p {}
    let start := max s.now x.txFree
    ({ s with pins := sput s.pins p { x with txFree := start + 10 * s.uartBit * text.length } }).emit (.uart start s.uartBit text)

/-- CONSOLE: the firmware posts the event; its text goes to the debug UART (Table 11.10). -/
def execConsole (t : Nat) (mbx : Fin 16) (arg : BitVec 16) (rest : List Word) (text : List Byte) (s : State) :
    Host.Outcome State Fault Refusal :=
  onHub t (fun s =>
    let s := s.uartSend text
    let d := (s.mbx mbx).f2h
    if s.badPost mbx (1 + rest.length) d then s
    else
      let s := s.modMbx mbx fun x =>
        { x with f2h := x.f2h.post (BitVec.ofNat 32 (mcConsole * 2 ^ 16 + arg.toNat) :: rest) }
      if d.msgs.isEmpty then s.mbxSignal mbx 2 else s) s

end Sys2Proof.Machine
end

