-- ==== Sys2Proof/Machine/PortB.lean ====
section
/-!
DEFINITION. Port B as an MCTP endpoint: SRAM messages, doorbells, notices and control messages (11_management R278-R280,
Tables 11.7, 11.8). REG_READ and REG_WRITE stand with the register accesses.
-/

namespace Sys2Proof.Machine

/-- A Zefoarn message to the unit: answered while a hub serves; in a warm reset the Port B target is in reset (14_startup R336). -/
def onPortB (t : Nat) (f : State → State) (s : State) : Host.Outcome State Fault Refusal :=
  always t (fun s => if !s.isOn || !s.pair.ready || s.pair.warm then s else f s) s

/-- OFFSET and LEN of an SRAM message (11_management Table 11.8). -/
def sramArgsOk (addr len : Nat) : Bool := decide (4 ≤ len ∧ len ≤ 1016 ∧ len % 4 = 0 ∧ addr + len ≤ sramSize)

/-- SRAM_READ. -/
def execSramRead (t : Nat) (addr len : Nat) (s : State) : Host.Outcome State Fault Refusal :=
  onPortB t (fun s =>
    if sramArgsOk addr len then s.emit (.response rOk (Memory.readBytes s.sram addr len)) else s.emit (.response rBadArg [])) s

/-- SRAM_WRITE. -/
def execSramWrite (t : Nat) (addr : Nat) (data : List Byte) (s : State) : Host.Outcome State Fault Refusal :=
  onPortB t (fun s =>
    if sramArgsOk addr data.length then
      ({ s with sramW := s.sramW ++ [SramOp.write addr data] }).emit (.response rOk [])
    else s.emit (.response rBadArg [])) s

/-- DOORBELL: the register of a context with RINGLOC; any other context answers BADARG (11_management R280). -/
def execDoorbell (t : Nat) (ctx : Fin 4096) (sel : BitVec 8) (value : Word) (s : State) : Host.Outcome State Fault Refusal :=
  onPortB t (fun s =>
    let c := ctx.val
    let bad := s.emit (.response rBadArg [])
    if !(s.ctx c).ringloc then bad
    else
      let ring := fun (f : State → State) => (if s.pageOpen false c then f s else s).emit (.response rOk [])
      if sel = 0 then ring fun s => s.dbCmd c value.toNat
      else if sel = 1 then ring fun s => s.dbCpl c value.toNat
      else if sel.toNat < 10 then ring fun s => s.dbRec c (sel.toNat - 2) value.toNat
      else bad) s

/-- Held notices go out where ENABLE allows and their SRC has none unanswered (11_management R280). -/
def State.releaseNotices (s : State) : State :=
  s.portB.held.foldl
    (fun (s : State) (x : Nat × BitVec 8) =>
      let s1 := { s with portB := { s.portB with held := s.portB.held.filter fun y => y.1 != x.1 } }
      s1.sendNotice x.1 x.2.toNat) s

/-- SET_NOTIFY. -/
def execSetNotify (t : Nat) (dest : BitVec 8) (enable : BitVec 2) (s : State) : Host.Outcome State Fault Refusal :=
  onPortB t (fun s =>
    (({ s with portB := { s.portB with dest := dest, enable := enable } }).releaseNotices).emit (.response rOk [])) s

/-- ENABLE's bit for a SRC (Table 11.8). -/
def State.noticeOn (s : State) (src : Nat) : Bool := s.portB.enable.getLsbD (if src < 0x100 then 0 else 1)

/-- NOTICE_RESEND: an unanswered NOTICE goes again every 100 ms (11_management R280). -/
def execNoticeResend (t : Nat) (src : Nat) (s : State) : Host.Outcome State Fault Refusal :=
  onPortB t (fun s =>
    match s.portB.notices.find? fun x => x.1 == src with
    | none => s
    | some x =>
      if !(s.noticeOn src) || decide (s.now < x.2.2.2 + 100 * msT) then s
      else
        ({ s with portB :=
            { s.portB with
              notices := s.portB.notices.map fun (y : Nat × BitVec 8 × Bool × Nat) =>
                if y.1 = src then (y.1, y.2.1, y.2.2.1, s.now) else y } }).emit
          (.notice s.portB.dest src x.2.1.toNat)) s

/-- NOTICE_RESPONSE: the destination answers, and what coalesced behind the NOTICE goes out (11_management R280). -/
def execNoticeResponse (t : Nat) (src : Nat) (s : State) : Host.Outcome State Fault Refusal :=
  onPortB t (fun s =>
    if !(s.portB.notices.any fun x => x.1 == src) then s
    else ({ s with portB := { s.portB with notices := s.portB.notices.filter fun y => y.1 != src } }).releaseNotices) s

/-! ## MCTP control messages (DSP0236, named by 11_management Table 11.7) -/

/-- Command and completion codes of DSP0236 (PRESUMED, log entry 36). -/
def mcSetEid : BitVec 8 := 1
def mcGetEid : BitVec 8 := 2
def mcGetUuid : BitVec 8 := 3
def mcGetVersion : BitVec 8 := 4
def mcGetTypes : BitVec 8 := 5
def mcGetVendor : BitVec 8 := 6
def ccSuccess : Nat := 0
def ccInvalidData : Nat := 2
def ccUnsupported : Nat := 5

/-- Set Endpoint ID: one that changes the EID is an owner reset of the Port B register path (11_management Table 11.1, R284). -/
def State.setEid (s : State) (eid : BitVec 8) : State :=
  if s.portB.eid = eid then s
  else ({ s with portB := { s.portB with eid := eid } }.ownerGone okPortB 0 relReset).portMbxReset .b

/-- MCTP_CONTROL. -/
def execMctpControl (t : Nat) (cmd : BitVec 8) (data : List Byte) (s : State) : Host.Outcome State Fault Refusal :=
  onPortB t (fun s =>
    if cmd = mcSetEid then
      let op := (data.getD 0 0).toNat % 4
      let eid := data.getD 1 0
      if op ≤ 1 && eid != 0 && eid != 0xFF && data.length == 2 then
        (s.setEid eid).emit (.mctp ccSuccess [0, eid, 0])
      else s.emit (.mctp ccInvalidData [])
    else if cmd = mcGetEid then s.emit (.mctp ccSuccess [s.portB.eid, 0, 0])
    else if cmd = mcGetUuid then s.emit (.mctp ccSuccess ((List.range 16).map fun i => (Config.uuid >>> (8 * (15 - i))).setWidth 8))
    else if cmd = mcGetVersion then s.emit (.mctp ccSuccess [1, 0xF1, 0xF3, 0xF0, 0])
    else if cmd = mcGetTypes then s.emit (.mctp ccSuccess [1, 0x7E])
    else if cmd = mcGetVendor then
      s.emit (.mctp ccSuccess ([0xFF, 1] ++ (bytesOf32 s.integ.vendor).reverse ++ [0, 0]))
    else s.emit (.mctp ccUnsupported [])) s

end Sys2Proof.Machine
end

