-- ==== Sys2Proof/Machine/StnReset.lean ====
section
/-!
DEFINITION. The reset of one station (14_startup R338; 05_records R118, R120; 08_tensor R203; 03_counters R76).
-/

namespace Sys2Proof.Machine

/-- A curd with its stored records alone: its first record gives FIRSTSEQ and FTBASE (05_records R116, R122). None is left of a curd all
of whose records are dropped (R117). -/
def storedCurd (c : Curd) : Option Curd :=
  match c.recs.filter (·.filled) with
  | [] => none
  | r :: l => some { c with firstSeq := r.seq, ftBase := r.ft, recs := r :: l }

/-- A record whose place has not been written is dropped from its curd, and counted lost under RESET (05_records Table 5.10). The slot of
a curd that loses them all is free, and may become the reserve (05_records R119). -/
def State.dropUnstored (s : State) (n : Nat) : State :=
  let st := s.stn n
  let ofC := fun (c : Curd) => c.recs.filter fun r => !r.filled
  let gone := (st.closed.flatMap fun h => ofC h.curd) ++ ((st.cur.map ofC).getD []) ++ ((st.rsv.map ofC).getD [])
  let closed := st.closed.filterMap fun (h : Held) => (storedCurd h.curd).map fun c => { h with curd := c }
  let s := s.modStn n fun st =>
    { st with
      cur := st.cur.bind storedCurd, rsv := st.rsv.bind storedCurd, closed := closed
      rsvOk := st.rsvOk || (st.rsv.isNone && decide (closed.length < st.closed.length)) }
  gone.foldl (fun (s : State) (r : Record) => s.lose n r cReset) s

/-- The tensor work of a station is lost; a capture open or still to open there ends without a LASTC record, and its watch is retired with
STNRESET. A capture that has closed is done (08_tensor R203). -/
def State.dropTensor (s : State) (n : Nat) : State :=
  let s := s.modStn n fun st => { st with accs := [], bursts := [], armed := [], keys := [] }
  (s.watches.filter fun e =>
      e.2.args.capture && e.2.args.dieMask.getLsbD n && e.2.inForce && e.2.done.isNone && !(s.watchDone e.2)).foldl
    (fun (s : State) (e : Nat × Watch) => s.modWatch e.1 fun x => { x with done := some (BitVec.ofNat 8 rStnReset), okm := 0 }) s

/-- What a station holds as it leaves reset: its retention content, what belongs to the hub's orders, and nothing else
(14_startup Table 14.1, R338). -/
def Stn.cleared (st : Stn) (now : Nat) : Stn :=
  { inReset := true, own := st.own, servo := { off := Int.ofNat now, alt := st.servo.alt }, devTq := st.devTq, seq := st.seq, epoch := st.epoch
    rsvOk := st.rsvOk, gaps := st.gaps, nburst := st.nburst, reqs := st.reqs, noBuf := false
    closed := st.closed.map fun (h : Held) => { h with st := .unsent, sentAt := 0, resends := 0, told := false }
    levCnt := st.levCnt, levBw := st.levBw, levPcs := st.levPcs, susp := st.susp, defer := st.defer, levs := st.levs }

/-- The open stream windows that a station in reset feeds list it in MISSINGMAP: its items are lost (09_churn R228). -/
def State.missStreams (s : State) (n : Nat) : State :=
  { s with churn := { s.churn with insts := s.churn.insts.map fun x =>
      if x.metric = mRlat && (s.streamsOf x).any (fun k => k / 4 == n) then { x with missing := x.missing ||| ((1 : BitVec 40) <<< n) }
      else x } }

/-- Station n enters reset (14_startup R338). -/
def State.stnReset (s : State) (n : Nat) : State :=
  if (s.stn n).inReset then s
  else
    let s := s.dropRuns n rcReset
    let late := (s.stn n).rsvWait
    let s := (s.dropTensor n).missStreams n
    let s := s.dropUnstored n
    let s := late.foldl (fun (s : State) (r : Record) => s.lose n r cReset) s
    let s := (s.closeCur n closeFlush).closeRsv n closeFlush
    let s := s.modStn n fun st => st.cleared s.now
    let s := { s with jrn := { s.jrn with grants := sdel s.jrn.grants n, wait := s.jrn.wait.filter (· != n) } }
    s.modPlan fun p => { p with rbWait := p.rbWait.filter fun k => k != n }

/-- A reset of the station's own: the bit of KX_GLB_STNRST alone does not end it (17_setup Table 17.4). -/
def State.stnOwnReset (s : State) (n : Nat) : State := (s.stnReset n).modStn n fun st => { st with own := st.inReset }

/-- Station n leaves reset: its counters start from zero with RESET, and its servo enters ACQUIRE (14_startup R338). -/
def State.stnStart (s : State) (n : Nat) : State :=
  let st := s.stn n
  if !st.inReset || !(s.present n) then s
  else
    s.modStn n fun st =>
      { st with inReset := false, servo := { st.servo with st := svAcquire, off := Int.ofNat s.now, high := true } }

/-- The hub reloads a station: its shadow and active image, its levers and the epoch in force; its STAT watches follow 4 µs after
it is LOCKED (14_startup R338, 11_management R277, 06_admission R155). A sequencer that the image enables enters INIT, after the EPOCH
START record where that is admitted now (04_markers R105, 05_records R129). -/
def State.stnReload (s : State) (n : Nat) : State :=
  if !(s.reach n) || (s.stn n).reload then s
  else
    let s := s.modStn n fun st => { st with reload := true, epoch := s.plan.epoch, devTq := s.clk.devTq }
    let s := if s.rb (Kx.stnPcsCfg n) 31 then s.samplerEnable n else s
    let s := s.startOffering n
    if s.rb (Kx.stnSeqCfg n) 31 then s.seqInit n (s.stnFt n) else s

end Sys2Proof.Machine
end

