-- ==== Sys2Proof/Machine/Security.lean ====
section
/-!
DEFINITION. Tenants, the tenant-change scrub and the disclosure document (12_isolation R285, R286, R292-R296, R303, R304).
-/

namespace Sys2Proof.Machine

/-- TSTATE codes (12_isolation Table 12.12). -/
def tsNone : BitVec 2 := 0
def tsAttached : BitVec 2 := 1
def tsScrubbing : BitVec 2 := 2

/-- A scrub is under way, or has been triggered. -/
def State.scrubbing (s : State) : Bool := s.sec.tstate == tsScrubbing || s.sec.scrub != 0

/-! ## Attach and detach -/

/-- TENANT_ATTACH (12_isolation R285). -/
def State.effTenantAttach (s : State) (q : CmdRef) (tenant : BitVec 64) : State :=
  s.issue q opTenantAttach true fun s =>
    if s.scrubbing then s.post q opTenantAttach rScrubbing 0 0 0
    else if s.sec.tstate = tsAttached then s.post q opTenantAttach rTenantBusy 0 0 0
    else
      let s := (s.modSec fun k => { k with tstate := tsAttached, tenant := tenant }).measChange
      s.post q opTenantAttach rOk tenant.toNat s.sec.serial 0

/-- TENANT_ATTACH. -/
def execTenantAttach (t : Nat) (q : CmdRef) (tenant : BitVec 64) (s : State) : Host.Outcome State Fault Refusal :=
  onCmd t q (fun s => s.effTenantAttach q tenant) s

/-- A scrub begins (12_isolation R303). -/
def State.beginScrub (s : State) (by_ : Option (Nat × Nat × Bool)) : State :=
  (s.modSec fun k => { k with scrub := 1, scrubBy := by_ }).modPlan fun p => { p with scrub := 0, scrubRes := none }

/-- TENANT_DETACH starts a scrub; it completes at the scrub's end (12_isolation R285, R303, R304). -/
def State.effTenantDetach (s : State) (q : CmdRef) : State :=
  s.issue q opTenantDetach true fun s =>
    if s.scrubbing then s.post q opTenantDetach rScrubbing 0 0 0
    else if s.sec.tstate = tsNone then s.post q opTenantDetach rNoTenant 0 0 0
    else s.beginScrub (some (q.ctx, q.seq, q.irq))

/-- TENANT_DETACH. -/
def execTenantDetach (t : Nat) (q : CmdRef) (s : State) : Host.Outcome State Fault Refusal :=
  onCmd t q (fun s => s.effTenantDetach q) s

/-- TENANT_CHANGE_SIGNAL: in ATTACHED it begins a scrub; it joins a running one (12_isolation R293, R304). -/
def execTenantChangeSignal (t : Nat) (s : State) : Host.Outcome State Fault Refusal :=
  onHub t (fun s => if s.sec.tstate = tsAttached && !s.scrubbing then s.beginScrub none else s) s

/-- TDI_STATE_CHANGE (12_isolation R292). -/
def execTdiStateChange (t : Nat) (st : TdiSt) (s : State) : Host.Outcome State Fault Refusal :=
  onUnit t (fun s => s.modSec fun k => { k with tdi := st }) s

/-! ## The steps of the scrub (12_isolation Table 12.11) -/

/-- A step is done: the next one follows. -/
def State.scrubNext (s : State) : State := s.modSec fun k => { k with scrub := k.scrub + 1 }

/-- Step 2 waits for a commit that is ARMED or in RECOVER, and for a node commit whose GO has arrived. -/
def State.scrubWaits (s : State) : Bool :=
  match s.plan.phase with
  | .preparing => s.plan.node && s.plan.nodeGo == some true
  | .armed | .recover => true
  | _ => false

/-- Step 2: end a commit that prepares, then every transaction and every lease. The writes that an automatic transaction held begin
no other (log entry 34). -/
def State.scrubTxn (s : State) : State :=
  let node := s.plan.node
  let s := if s.plan.phase = .preparing then (s.modPlan fun p => { p with autoHeld := [] }).notReady else s
  let s := if node then s.emit (.nodeMsg (s.node.head.getD 0) nmReport nrNoGo 0) else s
  if s.lease.kind = 0 then s.dropTxn else s.autoRelease relForced

/-- The places of a station's tensor records keep what has been written to them, and its tensor work is zeroed (08_tensor R203). -/
def State.zeroTensor (s : State) (n : Nat) : State :=
  let st := s.stn n
  let places := (st.accs.flatMap fun a => a.recs ++ a.lastc.toList) ++ st.bursts.flatMap fun b => b.segs.flatMap (·.seqs)
  let s := places.foldl (fun (s : State) (q : Nat) => s.fillRec n q fun r => { r with filled := true }) s
  s.modStn n fun st => { st with accs := [], bursts := [] }

/-- The open tenant contexts. -/
def State.tenantCtxs (s : State) : List Nat :=
  (s.ctxs.filter fun e => e.2.perm != 0 && e.2.st != csClosed).map (·.1)

/-- Step 3: every tenant watch is retired with SCRUBBED. -/
def State.scrubWatches (s : State) : State :=
  let s := s.dies.foldl (fun (s : State) (n : Nat) => s.zeroTensor n) s
  let l := s.watches.filter fun e => !e.2.oper
  let s := { s with watches := s.watches.filter fun e => e.2.oper }
  let s := s.dies.foldl (fun (s : State) (n : Nat) =>
    s.modStn n fun st => { st with armed := st.armed.filter fun w => !(l.any fun e => e.1 == w) }) s
  l.foldl (fun (s : State) (e : Nat × Watch) => if e.2.posted then s else s.postRetired e.1 e.2 rScrubbed) s

/-- Step 5: the ledger closes its flows and zeroes both tables. -/
def State.scrubLedger (s : State) : State :=
  if !s.ledOn then s
  else
    let s := (s.closeAll s.now 0xFF).flushQueue
    s.modLed fun l => { l with flows := [], flows1 := [], live := [], loss := [], queue := [], cache := [], dirtyOrder := [] }

/-- The registers of the scrub plan, at their reset values: those last staged by a tenant context, and the partition registers. -/
def State.scrubRegs (s : State) : List (Nat × Word) :=
  let mine := (s.plan.stagedBy.filter fun x => x.2 != 0).map (·.1)
  let parts := (List.range 8).map (fun i => (Kx.secPartdef i).off) ++
    s.dies.flatMap fun n => (List.range 8).map fun i => (Kx.stnPart n i).off
  (mine ++ parts).eraseDups.map fun o => (o, BitVec.ofNat 32 (regAt o).rst)

/-- The hub commits the scrub plan as lease holder. -/
def State.scrubCommit (s : State) : State :=
  let s := if s.lease.kind = 0 || s.lease.kind == okFw then s else s.autoRelease relForced
  let s := (s.grantLease okFw 0 0 100 .a).openTxn
  let s := s.scrubRegs.foldl (fun (s : State) (x : Nat × Word) => s.stageWrite 0 0 x.1 x.2) s
  (s.prepare (s.now + 4 * usT) none false).modPlan fun p => { p with scrub := p.scrub + 1, scrubRes := none }

/-- The scrub plan has taken effect: nothing is staged by a tenant any more. -/
def State.scrubPlanned (s : State) : State :=
  (s.modPlan fun p => { p with scrub := 0, scrubRes := none, stagedBy := p.stagedBy.filter fun x => x.2 == 0 }).scrubNext

/-- Step 6: commit, again after SWAPMISS or NOTREADY, at most three times; then the stations at fault are reset, and the image
stands in the plan store. -/
def State.scrubPlan (s : State) : State :=
  if s.plan.phase == .preparing || s.plan.phase == .armed || s.plan.phase == .recover then s
  else match s.plan.scrubRes with
    | none => s.scrubCommit
    | some r =>
      if r = rOk then s.scrubPlanned
      else if s.plan.scrub < 3 then s.scrubCommit
      else
        let bad := (List.range 40).filter fun n => s.plan.map.getLsbD n
        let l := s.scrubRegs
        let s := if s.lease.kind == okFw then s.endTxn else s
        let s := bad.foldl (fun (s : State) (n : Nat) => s.stnOwnReset n) s
        (s.activate l).measChange.scrubPlanned

/-- Step 7: Churn's instances of partitions and classes, and the ledger's accumulators. -/
def State.scrubChurn (s : State) : State :=
  let keep := fun (x : Inst) => x.kind.toNat != skPart && x.kind.toNat != skClass
  let s := s.modChurn fun c => { c with insts := c.insts.filter keep, hist := c.hist.filter keep }
  s.modLed fun l => { l with accs := [], kvs := [], refs := [] }

/-- Step 8: registrations, the seal key and every chain. -/
def State.scrubKeys (s : State) : State :=
  (s.modSec fun k =>
    { k with
      regs := [], sealKey := 0, keyReady := false
      ops := k.ops.map fun (o : SealOp) => { o with dead := true } }).endChains

/-- Step 10: what the ring engine holds for OC 16-4095. -/
def State.scrubRings (s : State) : State :=
  { s with
    ctxs := s.ctxs.filter fun e => decide (e.1 < 16) || (e.2.perm == 0 && e.2.st != csClosed)
    mirror := { s.mirror with rings := s.mirror.rings.filter fun e => decide (e.1 < 16) }
    jrn := { s.jrn with ckpt := s.jrn.ckpt.map fun c => { c with rings := c.rings.filter fun e => decide (e.1 < 16) } } }

/-- Step 12: the floors, and the end. -/
def State.scrubEnd (s : State) : State :=
  let by_ := s.sec.scrubBy
  let s := (s.modSec fun k =>
    { k with
      tfloor := s.jrn.widx, qfloor := s.now, tenant := 0, tstate := tsNone, scrub := 0, scrubBy := none
      scrubs := min 0xFFFF (k.scrubs + 1) }).measChange
  match by_ with
  | some (c, seq, irq) => s.post { ctx := c, seq := seq, irq := irq } opTenantDetach rOk s.sec.tfloor s.sec.serial 0
  | none => s

/-- SCRUB_STEP (12_isolation R303, Table 12.11). -/
def execScrubStep (t : Nat) (s : State) : Host.Outcome State Fault Refusal :=
  onHub t (fun s =>
    match s.sec.scrub with
    | 0 => s
    | 1 => (s.modSec fun k => { k with tstate := tsScrubbing }).scrubNext
    | 2 => if s.scrubWaits then s else s.scrubTxn.scrubNext
    | 3 => s.scrubWatches.scrubNext
    | 4 => (s.tenantCtxs.foldl (fun (s : State) (c : Nat) => s.closeCtx c rScrubbed) s).scrubNext
    | 5 => s.scrubLedger.scrubNext
    | 6 => s.scrubPlan
    | 7 => s.scrubChurn.scrubNext
    | 8 => s.scrubKeys.scrubNext
    | 9 => ({ s with oasisA := {}, oasisB := {} }).scrubNext
    | 10 => s.scrubRings.scrubNext
    | 11 =>
      if s.sec.keyReady then s.scrubNext
      else if s.sec.ops.any fun o => o.kind == SealKind.keygen && !o.dead then s
      else s.sealKeygen
    | _ => s.scrubEnd) s

/-! ## Measurement and disclosure -/

/-- The words of a 384-bit value, least significant first. -/
def words384 (v : BitVec 384) : List (BitVec 64) := (List.range 6).map fun i => (v >>> (64 * i)).setWidth 64

/-- The seal public key as it is measured: 0x04, X, Y (12_isolation Table 12.4). -/
def State.mseal (s : State) : BitVec 384 :=
  let n := if s.sec.keyP256 then 32 else 48
  Config.sha384 ((0x04 : Byte) :: (beBytes n s.sealPub.1.toNat ++ beBytes n s.sealPub.2.toNat))

/-- Offset and value pairs of the registers of one window that a test picks, in ascending offset. -/
def State.regPairs (s : State) (base : Nat) (rows : List Kx.Row) (pick : Kx.Row → Bool) : List (BitVec 64) :=
  let l := (rows.filter pick).flatMap fun r => (List.range r.count).map fun i => (base + r.off + r.step * i, r.rst)
  (l.mergeSort fun a b => decide (a.1 ≤ b.1)).map fun e => word64 [((s.rd ⟨e.1, e.2⟩).toNat, 32), (e.1, 0)]

/-- KX_CTX_INFO of a context (10_contexts Table 10.2). -/
def CtxS.info (x : CtxS) : Word :=
  BitVec.ofNat 32 ((word64 [(x.st.toNat, 29), (x.perm.toNat, 27), (b1 x.stallp, 26), (b1 x.ringloc, 25), (b1 x.pasiden, 24),
    (x.part.toNat, 16), (x.share.toNat, 8)]).toNat % 2 ^ 32)

/-- The words of a subscription's terms. -/
def subWords (a : SubArgs) : List (BitVec 64) := [word64 [(a.units.toNat, 0), (a.start.toNat, 62)], word64 [(a.types.toNat, 0)]]

/-- Whether a subscription is disclosed: those of OC 0-15, of Caravan streams and of the node head (12_isolation Table 12.5). -/
def sinkShown : Sink → Bool
  | .ring c _ => decide (c < 16)
  | .stream _ | .node => true
  | _ => false

/-- The terms of a watch (12_isolation Table 12.5). -/
def watchWords (a : WatchArgs) : List (BitVec 64) :=
  [word64 [(b1 a.capture, 63), (a.stepMode.toNat, 60), (a.tid.toNat, 32), (a.fmt.toNat, 28), (a.sfmt.toNat, 24), (a.stid.toNat, 0)],
    word64 [(a.step1.toNat, 32), (a.step0.toNat, 0)], word64 [(a.dieMask.toNat, 0)], word64 [(a.master.toNat, 0)]]

/-- The disclosure document: the sections of Table 12.5 in their order, as 64-bit words. How the integers of a section are laid out
is this model's (log entry 29). -/
def State.document (s : State) : List (BitVec 64) :=
  [BitVec.ofNat 64 s.sec.serial, word64 [(s.plan.epoch.toNat, 0)], s.sec.tenant, word64 [(s.sec.tstate.toNat, 0)]] ++
    words384 s.fw.active.meas ++
    s.regPairs 0 Kx.hubRows (fun r => r.rws != 0 || r.rwp != 0) ++
    (List.range 40).flatMap (fun n => s.regPairs (stnOff n 0) Kx.stnRows fun r => r.rwp != 0) ++
    (List.range 4096).map (fun c => word64 [((s.ctx c).pasid.toNat, 32), ((s.ctx c).info.toNat, 0)]) ++
    (s.subs.filter fun x => sinkShown x.sink).flatMap (fun x => subWords x.args) ++
    (s.watches.filter fun e => e.2.oper && e.2.inForce && e.2.done != some (BitVec.ofNat 8 rRemoved)).flatMap (fun e => watchWords e.2.args) ++
    [word64 [(b1 s.sec.keyP256, 32), (s.sec.keyId.toNat, 0)]] ++ words384 s.sealPub.1 ++ words384 s.sealPub.2

/-- MDISC (12_isolation Table 12.4). -/
def State.mdisc (s : State) : BitVec 384 := Config.sha384 (s.document.flatMap bytesOf64)

/-- DISCLOSE (12_isolation R295, Table 12.9). -/
def State.effDisclose (s : State) (q : CmdRef) (buf : Nat) (len : Nat) (ok : Bool) : State :=
  let n := 8 * s.document.length
  if len < n then s.post q opDisclose rTooSmall 0 0 0
  else if !ok then s.post q opDisclose rBufErr 0 0 0
  else (s.ringWrite q.ctx buf s.document).post q opDisclose rOk s.sec.serial n 0

/-- DISCLOSE. -/
def execDisclose (t : Nat) (q : CmdRef) (buf : BitVec 64) (len : BitVec 32) (ok : Bool) (s : State) :
    Host.Outcome State Fault Refusal :=
  onCmd t q (fun s => s.effDisclose q buf.toNat len.toNat ok) s

end Sys2Proof.Machine
end

