-- ==== Sys2Proof/Machine/Rings.lean ====
section
/-!
DEFINITION. The ring engine: descriptor fetch, the checks of a descriptor, the command log and what a logged command does
(10_contexts R236-R241, Tables 10.6-10.8; 11_management Table 11.3; 12_isolation Table 12.9).
-/

namespace Sys2Proof.Machine

/-! ## Descriptors -/

/-- Bits of operand word i of a descriptor. -/
def dw (ws : List (BitVec 64)) (i hi lo : Nat) : Nat := bitsOf (ws.getD i 0).toNat hi lo

/-- One bit of operand word i. -/
def db (ws : List (BitVec 64)) (i b : Nat) : Bool := (ws.getD i 0).getLsbD b

/-- OPCODE, IRQ and EXT (10_contexts Table 10.6). -/
def dOp (ws : List (BitVec 64)) : Nat := dw ws 1 63 48
def dIrq (ws : List (BitVec 64)) : Bool := db ws 1 47
def dExt (ws : List (BitVec 64)) : Bool := db ws 1 46

/-- The commands there are (10_contexts Table 10.7, 12_isolation Table 12.9). -/
def opcodes : List Nat :=
  [opNop, opAbort, opSubscribe, opUnsubscribe, opSnapshot, opTrigger, opTimeSet, opHostAnchor, opWatch, opQuery, opPlanBegin,
    opPlanStage, opPlanCommit, opPlanRollback, opCtxOpen, opCtxModify, opCtxClose, opKeyRegister, opKeyRevoke, opSealPubkey,
    opDisclose, opTenantAttach, opTenantDetach]

/-- EXT framing, then the OPCODE (10_contexts R236, R237, R239). -/
def frameCheck (ws : List (BitVec 64)) : Nat :=
  let second := ws.getD 8 0 == ws.getD 0 0 && dw ws 9 63 48 == 0xFFFF
  if dExt ws != (dOp ws == opQuery) || (dExt ws && !second) then rBadArg
  else if dOp ws ∈ opcodes then rOk else rBadOp

/-- n words of hub SRAM. -/
def State.sramWords (s : State) (addr n : Nat) : List (BitVec 64) :=
  (List.range n).map fun i => BitVec.ofNat 64 (natOfBytes (Memory.readBytes s.sram (addr + 8 * i) 8))

/-- The descriptor at context c's fetch index: from hub SRAM with RINGLOC, else what host memory holds (10_contexts R255). -/
def State.descriptor (s : State) (c : Nat) (words : List (BitVec 64)) : List (BitVec 64) :=
  if (s.ctx c).ringloc then
    let size := ringSize (s.rf (Kx.ctxCmdCfg c) 4 0)
    let base := s.rd64 (Kx.ctxCmdBaseLo c) (Kx.ctxCmdBaseHi c)
    let pos := fun (k : Nat) => base + 64 * (((s.ctx c).fetch + k) % size)
    s.sramWords (pos 0) 8 ++ s.sramWords (pos 1) 8
  else words

/-- A descriptor whose SEQ is behind NEXTSEQ by 1 to 64 (10_contexts R240). A SEQ that the log does not hold is answered STALESEQ
(log entry 41). -/
def State.duplicateCmd (s : State) (c seq op : Nat) (irq : Bool) : State :=
  let x := s.ctx c
  let q : CmdRef := { ctx := c, seq := seq, irq := irq }
  match x.log.find? fun e => e.seq == seq with
  | none => s.post q op rStaleSeq 0 0 0
  | some e =>
    match e.first with
    | some f => s.postMany c [{ f with dup := true }]
    | none =>
      if 16 ≤ (x.log.map (·.parked)).sum then s.postMany c [{ seq := seq, op := op, result := rDupBusy, irq := irq, dup := true }]
      else s.modCtx c fun x =>
        { x with log := x.log.map fun (e : LogEnt) => if e.seq = seq then { e with parked := e.parked + 1 } else e }

/-- Take a descriptor: its log entry is on its way to both copies; the log keeps 64 entries (10_contexts R241, R242). -/
def State.takeCmd (s : State) (c : Nat) (ws : List (BitVec 64)) : State :=
  s.modCtx c fun x =>
    let l := x.log ++ [{ seq := (ws.getD 0 0).toNat, words := ws, check := BitVec.ofNat 8 (frameCheck ws) }]
    { x with log := l.drop (l.length - 64) }

/-- DESCRIPTOR_FETCH (10_contexts R236, R239, R240). -/
def execDescriptorFetch (t : Nat) (ctx : Fin 4096) (words : List (BitVec 64)) (s : State) : Host.Outcome State Fault Refusal :=
  onHub t (fun s =>
    let c := ctx.val
    let x := s.ctx c
    if !(s.mayFetch c) then s
    else
      let ws := s.descriptor c words
      let n := if dExt ws then 2 else 1
      if (x.pi + 2 ^ 32 - x.fetch) % 2 ^ 32 < n then s
      else
        let ws := ws.take (8 * n)
        let seq := (ws.getD 0 0).toNat
        let s := s.modCtx c fun x => { x with fetch := (x.fetch + n) % 2 ^ 32 }
        let d := (x.nextSeq + 2 ^ 64 - seq) % 2 ^ 64
        let q : CmdRef := { ctx := c, seq := seq, irq := dIrq ws }
        if d = 0 then s.takeCmd c ws
        else if d ≤ 64 then s.duplicateCmd c seq (dOp ws) (dIrq ws)
        else if d < 2 ^ 63 then s.post q (dOp ws) rStaleSeq 0 0 0
        else s.post q (dOp ws) rSeqGap 0 0 0) s

/-! ## Operands (10_contexts Table 10.8) -/

/-- The operands of a WATCH. -/
def watchOf (ws : List (BitVec 64)) : WatchArgs :=
  { capture := db ws 2 56, tid := BitVec.ofNat 24 (dw ws 2 55 32), stid := BitVec.ofNat 24 (dw ws 2 31 8)
    fmt := BitVec.ofNat 4 (dw ws 2 7 4), sfmt := BitVec.ofNat 4 (dw ws 2 3 0)
    step0 := BitVec.ofNat 32 (dw ws 3 63 32), step1 := BitVec.ofNat 32 (dw ws 3 31 0)
    stepMode := BitVec.ofNat 2 (dw ws 4 63 62), values := db ws 4 61, capScale := db ws 4 60, capMax := BitVec.ofNat 7 (dw ws 4 54 48)
    count := BitVec.ofNat 16 (dw ws 4 47 32), explo := BitVec.ofNat 8 (dw ws 4 31 24), sblo := BitVec.ofNat 8 (dw ws 4 23 16)
    dieMask := BitVec.ofNat 40 (dw ws 5 39 0), master := BitVec.ofNat 32 (dw ws 6 63 32), keyId := BitVec.ofNat 32 (dw ws 6 31 0) }

/-- The operands of a QUERY. -/
def queryOf (ws : List (BitVec 64)) : QueryArgs :=
  { metric := BitVec.ofNat 16 (dw ws 2 63 48), kind := BitVec.ofNat 3 (dw ws 2 47 45), scope := BitVec.ofNat 24 (dw ws 2 43 20)
    wait := BitVec.ofNat 20 (dw ws 2 19 0), param := BitVec.ofNat 32 (dw ws 3 63 32), alen := BitVec.ofNat 32 (dw ws 3 31 0)
    wstart := ws.getD 4 0, wend := ws.getD 5 0, addr := ws.getD 6 0
    qs := (List.range (min 8 (dw ws 7 3 0))).map fun k => BitVec.ofNat 14 (dw ws (10 + k / 4) (16 * (k % 4) + 13) (16 * (k % 4))) }

/-- The operands of CTX_OPEN, CTX_MODIFY and CTX_CLOSE. -/
def ctxOf (ws : List (BitVec 64)) : CtxArgs :=
  { ctx := BitVec.ofNat 12 (dw ws 2 63 52), perm := BitVec.ofNat 2 (dw ws 2 51 50), stallp := db ws 2 49, ringloc := db ws 2 48
    pasiden := db ws 2 47, pasid := BitVec.ofNat 20 (dw ws 2 43 24), part := BitVec.ofNat 8 (dw ws 2 23 16)
    share := BitVec.ofNat 8 (dw ws 2 15 8) }

/-- The operands of a SUBSCRIBE. -/
def subArgsOf (ws : List (BitVec 64)) : SubArgs :=
  { start := BitVec.ofNat 2 (dw ws 2 5 4), units := BitVec.ofNat 48 (dw ws 3 47 0), types := BitVec.ofNat 32 (dw ws 4 31 0)
    startIdx := (ws.getD 5 0).toNat }

/-- The inline writes of a PLAN_STAGE (11_management Table 11.3). -/
def inlineOf (ws : List (BitVec 64)) : List (Word × Word) :=
  (List.range (dw ws 2 2 0)).map fun i => (BitVec.ofNat 32 (dw ws (4 + i) 63 32), BitVec.ofNat 32 (dw ws (4 + i) 31 0))

/-- What the memory that a command names holds: hub SRAM for a RINGLOC context, else what the host interface brought. -/
def State.named (s : State) (c addr n : Nat) (mem : Option (List (BitVec 64))) : Option (List (BitVec 64)) :=
  if (s.ctx c).ringloc then (if addr + 8 * n ≤ sramSize then some (s.sramWords addr n) else none)
  else mem.map fun l => (List.range n).map fun i => l.getD i 0

/-- The list of a PLAN_STAGE. -/
def State.listOf (s : State) (c : Nat) (ws : List (BitVec 64)) (mem : Option (List (BitVec 64))) : Option (List (Word × Word)) :=
  let n := dw ws 2 31 16
  if n = 0 then some []
  else (s.named c (ws.getD 3 0).toNat n mem).map fun l =>
    l.map fun w => (BitVec.ofNat 32 (bitsOf w.toNat 63 32), BitVec.ofNat 32 (bitsOf w.toNat 31 0))

/-- The point in a KEY_REGISTER buffer (12_isolation Table 12.6). -/
def State.pointOf (s : State) (c : Nat) (ws : List (BitVec 64)) (mem : Option (List (BitVec 64))) :
    Option (BitVec 384 × BitVec 384) :=
  (s.named c (ws.getD 2 0).toNat 12 mem).map fun l =>
    let bs := l.flatMap bytesOf64
    (BitVec.ofNat 384 (natOfBe (bs.take 48)), BitVec.ofNat 384 (natOfBe (bs.drop 48)))

/-! ## Effects -/

/-- What a command does once it is logged (10_contexts R241 step 3). -/
def State.runCmd (s : State) (q : CmdRef) (ws : List (BitVec 64)) (mem : Option (List (BitVec 64))) : State :=
  let op := dOp ws
  let w2 := (ws.getD 2 0).toNat
  let ok := (s.ctx q.ctx).ringloc || mem.isSome
  if op = opNop then s.effNop q
  else if op = opAbort then s.effAbort q w2
  else if op = opSubscribe then s.effSubscribe q (dw ws 2 2 0) (subArgsOf ws)
  else if op = opUnsubscribe then s.effUnsubscribe q (dw ws 2 2 0)
  else if op = opSnapshot then s.effSnapshot q w2
  else if op = opTrigger then s.effTrigger q (BitVec.ofNat 8 (dw ws 2 7 0))
  else if op = opTimeSet then s.effTimeSet q (dw ws 2 47 0)
  else if op = opHostAnchor then
    s.effHostAnchor q (ws.getD 2 0) (BitVec.ofNat 48 (dw ws 3 47 0)) (BitVec.ofNat 30 (dw ws 4 29 0)) (BitVec.ofNat 32 (dw ws 4 63 32))
  else if op = opWatch then
    if db ws 2 63 then s.effWatchRemove q (dw ws 2 62 57) else s.effWatchArm q (watchOf ws)
  else if op = opQuery then s.effQuery q (queryOf ws)
  else if op = opPlanBegin then s.effPlanBegin q (dw ws 2 9 0)
  else if op = opPlanStage then s.effPlanStage q (inlineOf ws) (s.listOf q.ctx ws mem)
  else if op = opPlanCommit then s.effPlanCommit q w2
  else if op = opPlanRollback then s.effPlanRollback q (db ws 2 0)
  else if op = opCtxOpen then s.effCtxOpen q (ctxOf ws)
  else if op = opCtxModify then s.effCtxModify q (ctxOf ws)
  else if op = opCtxClose then s.effCtxClose q (ctxOf ws).ctx.toNat
  else if op = opKeyRegister then s.effKeyRegister q w2 (s.pointOf q.ctx ws mem)
  else if op = opKeyRevoke then s.effKeyRevoke q (BitVec.ofNat 32 (dw ws 2 31 0))
  else if op = opSealPubkey then s.effSealPubkey q w2 ok
  else if op = opDisclose then s.effDisclose q w2 (dw ws 3 31 0) ok
  else if op = opTenantAttach then s.effTenantAttach q (ws.getD 2 0)
  else s.effTenantDetach q

/-- LOG_WRITE_COMPLETE: NEXTSEQ advances, then the command takes effect (10_contexts R241). -/
def execLogWriteComplete (t : Nat) (ctx : Fin 4096) (seq : Nat) (mem : Option (List (BitVec 64))) (s : State) :
    Host.Outcome State Fault Refusal :=
  onHub t (fun s =>
    let c := ctx.val
    match (s.ctx c).log.find? fun e => e.seq == seq && !e.logged with
    | none => s
    | some e =>
      let s := s.modCtx c fun x =>
        { x with nextSeq := (seq + 1) % 2 ^ 64
                 log := x.log.map fun (y : LogEnt) => if y.seq = seq then { y with logged := true } else y }
      let q : CmdRef := { ctx := c, seq := seq, irq := dIrq e.words }
      if e.check != 0 then s.post q (dOp e.words) e.check.toNat 0 0 0 else s.runCmd q e.words mem) s

end Sys2Proof.Machine
end

