-- ==== Sys2Proof/Machine/Recover.lean ====
section
/-!
DEFINITION. What a hub rebuilds after a takeover, a warm reset or the fault of a part: journal position, internal sources, contexts,
cursors, ledger, Churn, a commit in progress (06_admission R138, R140, R146; 07_sequence_ledger R180; 10_contexts R243;
11_management R275; 14_startup R337, R344).
-/

namespace Sys2Proof.Machine

/-! ## The journal -/

/-- An index both copies hold: accepted, or written in full with no hub to accept it (06_admission R140). -/
def Jrn.inCopies (j : Jrn) (i : Nat) : Bool := (j.mem.any fun e => e.1 == i) || j.jobs.any fun w => w.jidx == i && w.done

/-- The first index from one on that is not in both copies. The fuel bounds the indexes passed. -/
def scanTo (p : Nat → Bool) : Nat → Nat → Nat
  | 0, i => i
  | f + 1, i => if p i then scanTo p f (i + 1) else i

/-- Where the scan starts: at the mirrored WIDX after a takeover, at the newest checkpoint's after a warm reset; below lies what is known
to be accepted (06_admission R140, 14_startup R344). -/
def State.scanFrom (s : State) (over_ : Bool) : Nat :=
  max s.jrn.accTo (if over_ then s.mirror.widx else (s.jrn.ckpt.map (·.widx)).getD 0)

/-- Where the scan stops: the journal's next index. -/
def State.scanStop (s : State) (over_ : Bool) : Nat :=
  scanTo s.jrn.inCopies (s.jrn.mem.length + s.jrn.jobs.length) (s.scanFrom over_)

/-- The slots below the next index whose write was cut off, with the curds that go into them again (06_admission R140). -/
def Jrn.cutBelow (j : Jrn) (top : Nat) : List Hole :=
  j.holes ++ ((j.jobs.filter fun w => !w.done && decide (w.jidx < top)).map fun w =>
    { jidx := w.jidx, unit := w.curd.unit, rsv := w.curd.rsv, first := w.curd.firstSeq })

/-- The curds of the journal that lie above the stop of a scan: the rebuilt journal does not hold them, and they arrive again by
resend. -/
def Jrn.above (j : Jrn) (top : Nat) : List Curd := (j.mem.filter fun e => decide (top ≤ e.1)).map (·.2)

/-- Highest accepted FIRSTSEQ + 1 per unit and kind (06_admission R132, R140). -/
def State.receivedTops (s : State) : SMap Nat := s.acceptedTops.map fun (e : Nat × Nat × Nat) => (e.1, e.2.1 + 1)

/-- The last link of each chain that the journal holds (05_records R125). -/
def Jrn.lastLink (j : Jrn) (u : Nat) : Option (BitVec 256) :=
  ((j.mem.filter fun e => e.2.unit == u && e.2.sealed).foldl (fun (b : Option (Nat × BitVec 256)) (e : Nat × Curd) =>
    match b with
    | some x => if x.1 < e.1 then some (e.1, e.2.hash) else b
    | none => some (e.1, e.2.hash)) none).map (·.2)

/-- The position rebuilt: the scan's curds are accepted, its stop is the next index, and what was cut off below it is written again as the
curds arrive (06_admission R140, log entry 38). -/
def State.rebuildJournal (s : State) (over_ : Bool) : State :=
  let top := s.scanStop over_
  -- an index from the start on that both copies hold is accepted, though the failed hub did not
  let found := s.jrn.jobs.filter fun w => w.done && decide (s.scanFrom over_ ≤ w.jidx ∧ w.jidx < top)
  let s := found.foldl (fun (s : State) w => s.accept w) s
  let j := s.jrn
  let lost := (j.pool.filter (·.accAt.isNone)).map (·.curd) ++ j.above top
  let cut := (j.jobs.map (·.curd.unit)) ++ (j.above top).map (·.unit)
  let k : Jrn :=
    { j with
      widx := top, acc := j.acc.filter (decide <| · < top), mem := j.mem.filter fun e => decide (e.1 < top)
      holes := j.cutBelow top
      jobs := [], pool := [], held := [], crcHold := [], grants := [], wait := []
      dropped := lost.map fun c => (c.unit, c.rsv, c.firstSeq)
      tok := bucketTop, tokAt := s.now, fastAt := none }
  let k : Jrn :=
    { k with
      chains := j.chains.map fun (e : Nat × BitVec 256) => if e.1 ∈ cut then (e.1, (k.lastLink e.1).getD e.2) else e
      gained := j.gained.map fun (e : Nat × Nat × Nat) => (e.1, e.2.1 - (cut.filter (· == e.1)).length, e.2.2) }
  let s := { s with jrn := k }
  { s with jrn := { s.jrn with recv := s.receivedTops } }

/-- The curds of source k that were not accepted, or that a scan did not reach: in the journal above its stop, in the pool, closed. -/
def State.srcCurds (s : State) (over_ : Bool) (k : Nat) : List Curd :=
  ((s.jrn.above (s.scanStop over_)).filter fun c => c.unit == 40 + k) ++
    ((s.jrn.pool.filter fun e => e.req == 40 + k && e.accAt.isNone &&
      !(s.jrn.jobs.any fun w => some w.jidx == e.jidx && w.done && decide (w.jidx < s.scanStop over_))).map (·.curd)) ++ (s.src k).full

/-- The standby closes the records it held into curds with the same sequence numbers, an open curd under FLUSH (DESIGN CHOICE, log entry
55). Records that were not confirmed are formed again and wait for no standby: of the ledger and of Churn by their replays, of the others
as they stood (06_admission R138). -/
def State.heldSrcs (s before : State) (over_ : Bool) : State :=
  (List.range 8).foldl (fun (s : State) k =>
    let open_ := (before.src k).cur.toList.map fun c => s.srcHeader c closeFlush
    let l := (before.srcCurds over_ k ++ open_).map fun (c : Curd) => { c with sealed := false, hash := 0, hubB := s.pair.active = .b }
    let w := if k = 1 || k = 2 then [] else (s.src k).wait
    let s := s.modSrc k fun h => { h with cur := none, full := l, wait := [], unacc := [] }
    w.foldl (fun (s : State) r => s.acceptSrc k r) s) s

/-- With no standby the records of internal sources that were not accepted are missing, and appear as DETECTED gaps
(06_admission R150). -/
def State.loseSrcs (s before : State) : State :=
  (List.range 8).foldl (fun (s : State) k =>
    let l := (before.srcCurds false k ++ (before.src k).cur.toList).map (·.firstSeq) ++ (before.src k).gaps.map (·.first)
    let s := { s with jrn := l.foldl (fun (j : Jrn) f => j.missing (40 + k) f) s.jrn }
    s.modSrc k fun h => { h with cur := none, full := [], wait := [], unacc := [], gaps := [] }) s

/-- A station's curds after a hub's announcement: every one the journal does not hold as accepted goes again (06_admission R131, 14_startup
R344). -/
def State.resendLost (s : State) (n : Nat) (st : Stn) : Stn :=
  { st.resendAll with
    link := []
    closed := st.resendAll.closed.map fun h =>
      if h.st == .acked && !(s.accepted n h.curd.rsv h.curd.firstSeq) then { h with st := .unsent } else h }

/-- The hub announces itself to the stations: two fresh grants each, and every curd without an acknowledgement is resent; curds on the
way to the failed hub are gone (14_startup R344, 06_admission R134). -/
def State.announce (s : State) : State :=
  s.dies.foldl (fun (s : State) n =>
    let s := s.modStn n fun st => s.resendLost n st
    if s.reach n then
      ({ s with jrn := { s.jrn with grants := sput s.jrn.grants n 2 } }).modStn n fun st => { st with noBuf := false }
    else s) s

/-! ## Contexts and sinks -/

/-- Descriptors that a log entry covers (10_contexts R236). -/
def entLen (e : LogEnt) : Nat := if dExt e.words then 2 else 1

/-- A descriptor whose log entry was not written is fetched again; a command that was logged keeps its identifiers and instants, and
its completion is posted once (10_contexts R243, Table 10.10). -/
def CtxS.refetch (x : CtxS) : CtxS :=
  let n := ((x.log.filter fun e => !e.logged).map entLen).sum
  { x with log := x.log.filter (·.logged), fetch := (x.fetch + 2 ^ 32 - n) % 2 ^ 32 }

/-- The command producer index of a restored ring: the mirrored one, if it lies ahead of the fetch index (log entry 38). -/
def CtxS.withPi (x : CtxS) (pi : Option Nat) : CtxS :=
  { x with pi := match pi with
      | some p => if (p + 2 ^ 32 - x.fetch) % 2 ^ 32 < 2 ^ 31 then p else x.fetch
      | none => x.fetch }

/-- The ring engine restores every context (10_contexts R243). -/
def State.restoreCtxs (s : State) (over_ : Bool) : State :=
  { s with ctxs := s.ctxs.map fun (e : Nat × CtxS) =>
      (e.1, (e.2.refetch).withPi (if over_ then (sget s.mirror.rings e.1).map (·.pi) else none)) }

/-- Sink cursors: a ring's from its last entry, the node head's from its acknowledgement; a raw slot names no JIDX, so its stream
goes back to the cursor that was mirrored or checkpointed (06_admission R146; 16_grayth Table 16.1). -/
def State.restoreSubs (s : State) (over_ : Bool) : State :=
  let old : Option Nat :=
    if over_ then (s.mirror.subs.find? fun x => x.sink == Sink.gray).map (·.cursor)
    else s.jrn.ckpt.bind fun k => (k.cursors.find? fun x => x.1 == Sink.gray).map (·.2)
  let s := { s with
    subs := s.subs.map fun (x : Sub) =>
      match x.sink with
      | .ring _ _ => { x with cursor := x.next }
      | .node => { x with next := x.cursor, last := x.cursor }
      | _ => x
    ctxs := s.ctxs.map fun (e : Nat × CtxS) =>
      (e.1, { e.2 with recs := e.2.recs.map fun (r : Nat × RecRing) => (r.1, { r.2 with conf := r.2.pi }) }) }
  s.grayResume old

/-! ## Ledger -/

/-- HANDLE and OPENFT of a summary, and whether it is of the extension record. -/
def summaryId (r : Record) : Nat × Nat × Bool :=
  let w := (r.body.getD 0 0).toNat
  (w / 2 ^ 43, (r.body.getD 1 0).toNat, bitsOf w 42 39 == 7)

/-- The records of an internal source from a sequence number on: in the journal, in closed curds and in the open one. -/
def State.admittedFrom (s : State) (k from_ : Nat) : List Record :=
  let inMem := (s.jrn.mem.filter fun e => e.2.unit == 40 + k).flatMap fun e => e.2.recs
  (inMem ++ ((s.src k).full ++ (s.src k).cur.toList).flatMap (·.recs)).filter fun r => decide (from_ ≤ r.seq)

/-- Summaries of hub source 1 admitted after a checkpoint (07_sequence_ledger R180). -/
def State.summaries (s : State) (from_ : Nat) : List (Nat × Nat × Bool) :=
  ((s.admittedFrom 1 from_).filter fun r => r.ty == .flow).map summaryId

/-- The ledger from the newest checkpoint block of a copy that stands; the journal is read again from Jr, and the summaries that the
checkpoint found unadmitted are admitted, unless they were since (07_sequence_ledger R180). -/
def State.restoreLedger (s : State) : State :=
  if !s.ledOn then s
  else
    let o := s.led
    let k := ((if o.gone0 then none else o.ckpt).orElse fun _ => if o.gone1 then none else o.ckpt1).getD {}
    let l : Led := {
      flows := if o.gone0 then [] else k.flows, flows1 := if o.gone1 then [] else k.flows, gone0 := o.gone0, gone1 := o.gone1
      live := k.live, loss := k.loss, queue := k.queue, accs := k.accs, kvs := k.kvs, refs := k.refs
      ckpt := o.ckpt, ckpt1 := o.ckpt1, skipTo := k.jc, wc := k.wm, catchup := true, done := s.summaries k.seq, since := o.since
      closeAt := o.closeAt }
    let s := ({ s with led := l }).modSub .ledger fun x => { x with next := k.jr, cursor := k.jr, lap := none }
    k.wait.foldl (fun (s : State) r => let (h, o, x) := summaryId r; s.summary h o x r) s

/-- Churn from its checkpoint: its subscription reads again from the index consumed, open stream windows carry TAKEOVER, and the records
that the checkpoint found unadmitted are admitted, unless they were since (09_churn R228, 06_admission R138). -/
def State.restoreChurn (s : State) : State :=
  if !s.chnOn then s
  else
    let k := s.chnCkpt.getD { next := s.jrn.accTo, seq2 := (s.src 2).seq, seq6 := (s.src 6).seq }
    let c := k.churn
    let own := (s.admittedFrom 6 k.seq6).filter fun r => r.ty == .fault
    let c : Churn :=
      { c with
        insts := c.insts.map fun x => if x.metric = mRlat then { x with flags := setFlag x.flags sfTakeover } else x
        exps := c.exps.map fun w => if w.busy then { w with flags := setFlag w.flags xfTakeover } else w
        past := s.churn.past, restarts := s.churn.restarts, hbwLens := s.churn.hbwLens, lostAt := s.churn.lostAt
        qs := s.churn.qs, nextQ := s.churn.nextQ, catchup := true, replayTo := s.jrn.accTo, marks := [(s.wm, s.acceptTop)]
        done := (s.admittedFrom 2 k.seq2 ++ own).map recKey }
    let s := ({ s with churn := c }).modSub .churn fun x => { x with next := k.next, cursor := k.next, lap := none }
    k.wait.foldl (fun (s : State) r => s.chnAdmit r) s

/-! ## A commit in progress -/

/-- The epoch a commit in progress leaves. -/
def State.commitFrom (s : State) : BitVec 32 := match s.plan.prior with | some x => x.2 | none => s.plan.epoch

/-- The new active hub asks every participant whether it swapped (11_management R275). -/
def State.resumeCommit (s : State) : State :=
  let p := s.plan
  if !s.pinned || p.nodeSwap.isSome then s
  else
    let e := s.commitFrom
    let swapped := p.parts.filter fun n => (s.stn n).epoch == e + 1
    let rolled := p.parts.filter fun n => (s.stn n).epoch == e + 2
    let missed := p.parts.filter fun n => !(n ∈ swapped) && !(n ∈ rolled)
    if swapped.isEmpty && rolled.isEmpty && p.prior.isNone then
      if s.now + usT < p.t then s.prepare p.t p.owner p.node else s.notReady
    else
      let s := (s.modPlan fun p => { p with phase := .armed, swapped := swapped }).hubSwap
      if missed.isEmpty && rolled.isEmpty then
        if p.node then (s.nodeReport nrSwapped).modPlan fun p => { p with nodeSwap := some true } else s.commitOk
      else
        let at_ := max (p.t + 2 * usT) (s.now + 4 * usT)
        let s := { s with stns := s.stns.map fun (x : Nat × Stn) => (x.1, { x.2 with rbAt := none }) }
        s.modPlan fun q =>
          { q with
            phase := .recover, rbAt := at_, rbFrom := e
            rbMissed := if p.phase = .recover then p.rbMissed else mapOf missed
            rbWait := p.parts.filter fun n => !(n ∈ rolled) }

/-! ## The whole -/

/-- A job restart that waited for acceptance, or whose instant passed without a hub, takes the first instant at least 4 µs ahead
(14_startup R341). -/
def State.resumeRestart (s : State) : State :=
  let at_ := s.now + 4 * usT
  let b := if s.pair.restartWait then some ((s.pair.restart.map (max at_)).getD at_) else s.pair.restart.map (max at_)
  { s with pair := { s.pair with restart := b, restartWait := false } }

/-- Skim takes its first decision after the first whole window for which it holds reports (06_admission R153). -/
def State.resumeSkim (s : State) (over_ : Bool) : State :=
  let k := if over_ then s.mirror.skim else s.skim
  let owed := s.skim.owed
  let s := { s with skim := { k with reports := [], window := s.now / skimWin + 1, quiet := 0, owed := [], endW := s.skim.endW } }
  owed.foldl (fun (s : State) x => s.lateRec x.1 x.2.1 x.2.2) s

/-- The hub serves again: journal, internal sources, stations, rings, cursors, ledger, Churn, streams, commit, restart
(14_startup R337, R344). `over`: a takeover, with a mirror. -/
def State.resumeHub (s : State) (over_ : Bool) : State :=
  let before := s
  let s := (s.rebuildJournal over_).announce
  let s := if over_ then s.heldSrcs before over_ else s.loseSrcs before
  let s := (s.restoreCtxs over_).restoreSubs over_
  let s := (s.restoreLedger).restoreChurn
  let s := (s.resumeSkim over_).egrTakeover
  (s.resumeCommit).resumeRestart

end Sys2Proof.Machine
end

