-- ==== Sys2Proof/Machine/HubPair.lean ====
section
/-!
DEFINITION. The hub pair: takeovers, fences, warm resets, service cores (14_startup R333-R345; 01_unit_anatomy R25, R26;
12_isolation R296; 17_setup_registers R391).
-/

namespace Sys2Proof.Machine

/-! ## Warm reset (14_startup R333, R336) -/

/-- LASTRST codes (14_startup Table 14.9). -/
def lrPorst : BitVec 4 := 1
def lrRstN : BitVec 4 := 2
def lrWarm : BitVec 4 := 3
def lrBoth : BitVec 4 := 4
def lrBootFail : BitVec 4 := 0xF

/-- Latches and staging of a port are lost (11_management R257, 14_startup Table 14.1). -/
def State.dropLatches (s : State) (p : Port) : State :=
  let b := p = .b
  let s := { s with
    latches := s.latches.filter fun x => x.1 != p
    stns := s.stns.map fun (e : Nat × Stn) =>
      (e.1, if b then { e.2 with latchB := none, stageB := [] } else { e.2 with latchA := none, stageA := [] }) }
  s.dropTx p

/-- The pins fall silent and OFF (14_startup R336, 04_markers R113). -/
def State.pinsOff (s : State) : State :=
  let s := (List.range 8).foldl (fun (s : State) p => if (sgetD s.pins p {}).pulse.isSome then s.emit (.pin p false) else s) s
  { s with pins := [], hold := {} }

/-- The hub logic of the node: its ports train again, and everything heard is forgotten. -/
def State.nodeReset (s : State) : State :=
  let s := if s.node.isHead then s.dropHead else s
  { s with node := { ports := (List.range 3).filterMap fun p =>
      let x := s.port p
      if x.st == spRetired then some (p, x) else if s.rb (Kx.synPcfg p) 31 then some (p, { st := spTraining }) else none } }

/-- A warm reset begins: the hub-pair domain is reset and nothing else (14_startup R336, Table 14.1). -/
def State.warmEntry (s : State) (cause : BitVec 4) : State :=
  if !s.isOn || s.pair.warm || !(s.pair.ready || s.pair.bootFail) then s
  else
    let s := (s.pinsOff.fwReset).nodeReset
    let s := ({ s with portB := {}, sramW := s.sramW ++ [SramOp.clear] }).dropLatches .b
    let s := { s with fw := { s.fw with chunks := [] } }
    s.modPair fun p => { p with warm := true, takeover := none, fenced := false, fenceReq := false, stbyOk := false, lastRst := cause }

/-- RST_N low for 20 samples. -/
def execRstN (t : Nat) (s : State) : Host.Outcome State Fault Refusal := onUnit t (fun s => s.warmEntry lrRstN) s

/-- The image that runs is the previous one: hub source 6 reports it (12_isolation R296). -/
def State.fwFallback (s : State) : State :=
  let s := ({ s with fw := { s.fw with active := s.fw.prev } }).measChange
  let (d, s) := s.draws 2
  s.faultEvent fcCore (0x8000 + 8 * hubIdx s.pair.active) 0x40 0x46570000 s.now (d.getD 0 0).toNat (d.getD 1 0).toNat

/-- Boot ROM verification: which hub is active, and whether the other rejoins. `none`: neither image passes
(14_startup R334, R337). -/
def bootChoice (pref : HubId) (verA verB prevOk : Bool) : Option (HubId × Bool × Bool) :=
  if !verA && !verB then if prevOk then some (pref, true, true) else none
  else
    let ok := match pref with | .a => verA | .b => verB
    some (if ok then pref else otherHub pref, verA && verB, false)

/-- The standby holds the active hub's state, unless it is fenced or the peer link is retired (14_startup R345, Table 14.4;
01_unit_anatomy R25). -/
def State.rejoin (s : State) : State :=
  if s.pair.stbyFenced || (s.chan 0x7000).st != chActive then s
  else
    { (s.modPair fun p => { p with stbyOk := true, fenced := false, fenceReq := false }) with
      mirror := s.mirrorNow, clk := { s.clk with stby := { st := svLocked, stepped := true, high := false, slewAt := s.now } } }

/-- A firmware image marked by FW_ACTIVATE becomes active (14_startup R337). -/
def Fw.activated (f : Fw) : Fw :=
  match f.staged with
  | some i => if f.activate then { f with active := i, prev := f.active, staged := none, activate := false } else f
  | none => f

/-- HUB_PAIR_RESUME: a warm reset ends (14_startup R337). -/
def execHubPairResume (t : Nat) (verA verB prevOk : Bool) (s : State) : Host.Outcome State Fault Refusal :=
  onUnit t (fun s =>
    if !s.pair.warm then s
    else
      let moved := s.fw.activate && s.fw.staged.isSome
      let s := { s with fw := s.fw.activated }
      let s := if moved then s.measChange else s
      match bootChoice s.pair.active verA verB prevOk with
      | none => s.modPair fun p => { p with warm := false, ready := false, bootFail := true, lastRst := lrBootFail }
      | some (h, both, prev) =>
        let h := if s.hubRetired h && !(s.hubRetired (otherHub h)) && both then otherHub h else h
        let s := s.modPair fun p =>
          { p with warm := false, ready := true, bootFail := false, active := h, stbyFenced := s.hubRetired (otherHub h) }
        let s := s.autoRelease relReset
        let s := s.resumeHub false
        let s := s.pinsResume
        let s := if prev then s.fwFallback else s
        if both then s.rejoin else s) s

/-! ## Takeover (14_startup R342-R345) -/

/-- A takeover is declared. Without a mirrored standby, or with its peer link retired, both hubs are lost, and the pair recovers as
after a warm reset (14_startup R342). -/
def State.declare (s : State) (cause : Nat) : State :=
  if s.standbyServes then
    -- the outgoing pin block releases the pins (04_markers R113)
    s.pinsResume.modPair fun p => { p with takeover := some (s.now, cause), fenced := false }
  else if cause = tcPlanned then s
  else s.warmEntry lrBoth

/-- HEARTBEAT_TIMEOUT. -/
def execHeartbeatTimeout (t : Nat) (s : State) : Host.Outcome State Fault Refusal := onHub t (fun s => s.declare tcSilent) s

/-- HUB_SELF_FAULT: cause 3 is a supervisor watchdog with no backup core left, any other a self-reported fault. -/
def execHubSelfFault (t : Nat) (cause : BitVec 8) (s : State) : Host.Outcome State Fault Refusal :=
  onHub t (fun s => s.declare (if cause = 3 then tcWatchdog else tcSelf)) s

/-- A write to KX_GLB_CTL: WARMRST and SWITCH start their actions; SWITCH reads 1 until the takeover is done
(14_startup Table 14.9). -/
def State.glbCtlWrite (s : State) (p : Port) (v : Word) : State :=
  s.notDbg p Kx.glbCtl.off fun s =>
    s.rwsWrite p ((v &&& 0xC0000000#32) != 0) fun s =>
      if v.getLsbD 31 then s.warmEntry lrWarm
      else if v.getLsbD 30 && s.pair.takeover.isNone then
        let s := s.declare tcPlanned
        if s.pair.takeover.isSome then s.setB Kx.glbCtl 30 true else s
      else s

/-- WARMRST. -/
def execWarmrst (t : Nat) (port : Port) (s : State) : Host.Outcome State Fault Refusal :=
  onWrite t port Kx.glbCtl.off (fun s => s.glbCtlWrite port 0x80000000#32) s

/-- SWITCH. -/
def execSwitch (t : Nat) (port : Port) (s : State) : Host.Outcome State Fault Refusal :=
  onWrite t port Kx.glbCtl.off (fun s => s.glbCtlWrite port 0x40000000#32) s

/-- FENCE_TIMEOUT: 20 µs without a confirmation, and the standby asks the chip to reset the failed hub's domain
(14_startup R343). -/
def execFenceTimeout (t : Nat) (s : State) : Host.Outcome State Fault Refusal :=
  onUnit t (fun s =>
    match s.pair.takeover with
    | some (t0, _) => if t0 + 20 * usT ≤ s.now then s.modPair fun p => { p with fenceReq := true } else s
    | none => s) s

/-- FENCE_CONFIRM: the new active hub takes the roles and resumes (14_startup R344, R345). -/
def execFenceConfirm (t : Nat) (s : State) : Host.Outcome State Fault Refusal :=
  onUnit t (fun s =>
    match s.pair.takeover with
    | none => s
    | some (t0, cause) =>
      let old := s.pair.active
      let new := otherHub old
      let s := s.modPair fun p =>
        { p with active := new, takeover := none, stbyOk := false, fenced := true, takeovers := min 255 (p.takeovers + 1)
                 stbyFenced := s.hubRetired old }
      let s := s.hwClear Kx.glbCtl 30
      -- the new active hub's counter is the master from here, without a step (02_fabric_time R38)
      let s := { s with clk := { s.clk with now := max s.clk.now s.stbyFt, stby := {} } }
      let s := s.pinsResume
      let s := if s.lease.kind = okFw then s.autoRelease relFault else s
      let s := s.resumeHub true
      let s := s.faultEvent fcTakeover (hubChan new) 0x40 (cause * 2 ^ 24 + hubIdx new) t0 t0 (s.now - t0)
      if cause = tcPlanned then s.rejoin else s.channelError (hubChan old)) s

/-- HUB_REJOIN: the failed instance has booted and holds the mirror (14_startup R345). -/
def execHubRejoin (t : Nat) (s : State) : Host.Outcome State Fault Refusal :=
  onHub t (fun s =>
    if s.pair.stbyOk || s.pair.stbyFenced || (s.chan 0x7000).st != chActive then s
    else (s.rejoin).modChan (hubChan (otherHub s.pair.active)) fun c => { c with retry := 0 }) s

/-- STANDBY_HUB_LOSS. -/
def execStandbyHubLoss (t : Nat) (s : State) : Host.Outcome State Fault Refusal := onHub t (fun s => s.loseStandby) s

/-! ## Service cores (01_unit_anatomy R26) -/

/-- Core k of the active hub. -/
def State.coreIdx (s : State) (k : Nat) : Nat := 8 * hubIdx s.pair.active + k
def State.core (s : State) (i : Nat) : Core := sgetD s.pair.cores i {}
def State.modCore (s : State) (i : Nat) (f : Core → Core) : State :=
  s.modPair fun p => { p with cores := sput p.cores i (f (s.core i)) }

/-- The backup of a duty's core (01_unit_anatomy Table 1.4). -/
def coreBackup (k : Nat) : Nat := [1, 2, 1, 4, 3, 2, 0, 6].getD k 0

/-- The core that carries duty d: its own, or the first of its backups that has not faulted (01_unit_anatomy R26). -/
def State.dutyCore (s : State) : Nat → Nat → Nat
  | 0, d => d
  | k + 1, d => if (s.core (s.coreIdx d)).fault then State.dutyCore s k (coreBackup d) else d

/-- A service core of the active hub faults: its duty moves, a lease it holds is released, the mailboxes' firmware side resets, and a
fault of core 1 restores the contexts (01_unit_anatomy R26; 11_management R284, Table 11.1; 10_contexts R243). -/
def State.coreFault (s : State) (k cause mcause mepc : Nat) : State :=
  let i := s.coreIdx k
  if (s.core i).fault then s
  else
    let s := s.modCore i fun c => { c with fault := true }
    let s := s.faultEvent fcCore (0x8000 + i) 0x40 cause s.now mcause mepc
    let s := s.channelError (0x8000 + i)
    let s := s.ownerGone okFw k relFault
    let s := s.fwReset
    if k = 1 then { s with ctxs := s.ctxs.map fun (e : Nat × CtxS) => (e.1, e.2.refetch) } else s

/-- SERVICE_CORE_FAULT: cause 1 watchdog, 2 memory, 3 trap (14_startup Table 14.8). -/
def execServiceCoreFault (t : Nat) (core : Fin 8) (cause : BitVec 2) (mcause mepc : BitVec 64) (s : State) :
    Host.Outcome State Fault Refusal :=
  onHub t (fun s => s.coreFault core cause.toNat mcause.toNat mepc.toNat) s

/-- A write to KX_DBG_CTL. A register path does not write HALT; a write that changes HUBSEL while a core is halted is dropped
(17_setup_registers R391). -/
def State.dbgCtlWrite (s : State) (p : Port) (v : Word) : State :=
  let old := s.rd Kx.dbgCtl
  let halt := fld old 23 16
  let v := v &&& 0x80FF0100#32
  if halt != 0 && v.getLsbD 8 != old.getLsbD 8 then s
  else
    let v := if p = .dbg then v else setFld v 23 16 halt
    let s := s.wr Kx.dbgCtl v
    let base := if v.getLsbD 8 then 8 else 0
    let s := (List.range 8).foldl (fun (s : State) k => s.modCore (base + k) fun c => { c with halted := v.getLsbD (16 + k) }) s
    s.noteFreeze

/-- CORE_HALT. The debug port reaches its registers whatever the hubs do (14_startup R334). -/
def execCoreHalt (t : Nat) (port : Port) (value : Word) (s : State) : Host.Outcome State Fault Refusal :=
  if port = .dbg then onUnit t (fun s => { s.dbgCtlWrite port value with dbg := { s.dbg with tckAt := some s.now } }) s
  else onWrite t port Kx.dbgCtl.off (fun s => s.dbgCtlWrite port value) s

end Sys2Proof.Machine
end

