-- ==== Sys2Proof/Machine/Resets.lean ====
section
/-!
DEFINITION. Cold start, power, station resets, port resets, job restarts and uncorrectable memory errors (14_startup R332-R341,
R353-R357; 18_integration R400).
-/

namespace Sys2Proof.Machine

/-! ## Cold start (14_startup R333, R334, Table 14.2) -/

/-- Registers of the RTC domain (02_fabric_time Table 2.7, 14_startup Table 14.1). -/
def rtcRegs (m : SMap Word) : SMap Word := m.filter fun e => decide (0x2000 ≤ e.1 ∧ e.1 < 0x2018)

/-- The boot ROM's scan of an Oasis: PREV and GENSTART (14_startup R357). -/
def OasisRing.scan (o : OasisRing) : OasisRing := { o with prev := o.slots.any fun e => !(e.1 ∈ o.bad), genStart := oasisSlot o }

/-- A station at READY: out of reset, reloaded and LOCKED (14_startup Table 14.2). -/
def Stn.started (now : Nat) : Stn :=
  { inReset := false, reload := true, servo := { st := svLocked, high := false, grp := now / groupTicks } }

/-- The unit as the cold start leaves it, FT counting from the release of PORST_N. What survives is the RTC domain, the Oasis rings,
the firmware images and what has left the unit (14_startup Table 14.1; log entry 39). -/
def State.coldStart (s : State) (t : Nat) (verA verB prevOk : Bool) : State :=
  let now := min t (2000 * usT)
  let base : State := {
    pending := s.pending, integ := s.integ, free := s.free, out := s.out
    oasisA := s.oasisA.scan, oasisB := s.oasisB.scan
    fw := { s.fw with chunks := [], staged := none, activate := false }
    regs := rtcRegs s.regs
    clk := { now := now, run := true, rtcSec := s.clk.rtcSec, rtcAt := s.clk.rtcAt - s.now, trimAt := s.clk.trimAt - s.now, reloadRtc := s.clk.reloadRtc } }
  let base := base.setF Kx.synId 5 3 s.integ.board.toNat
  let base := base.setF Kx.synId 2 0 s.integ.slot.toNat
  match bootChoice .a verA verB prevOk with
  | none => base.modPair fun p => { p with power := .on, bootFail := true, lastRst := lrBootFail }
  | some (h, both, prev) =>
    let s := base.modPair fun p => { p with power := .on, ready := true, active := h, lastRst := lrPorst }
    let s := s.dies.foldl (fun (s : State) n => s.setStn n (Stn.started now)) s
    let s := if prev then s.fwFallback else s
    let s := s.keygenEnd { kind := .keygen, p256 := s.sealP256 }
    let s := s.modSec fun k => { k with sealAt := now }
    if both then s.rejoin else s

/-- COLD_RESET: PORST_N rises; for a unit that runs, the command stands for the whole pulse (log entry 39). It alone sets FT back
(02_fabric_time R39), so it does not settle as the other commands do. -/
def execColdReset (t : Nat) (verA verB prevOk : Bool) (s : State) : Host.Outcome State Fault Refusal :=
  .next (s.coldStart t verA verB prevOk)

/-- PORST_N_ASSERT: the unit stops and drives no pin (14_startup R333, 18_integration R400). -/
def execPorstNAssert (t : Nat) (s : State) : Host.Outcome State Fault Refusal :=
  onUnit t (fun s => { (s.modPair fun p => { p with power := .porst, ready := false }) with pins := [] }) s

/-- POWER_LOSS: a core rail leaves its range (18_integration R400). -/
def execPowerLoss (t : Nat) (s : State) : Host.Outcome State Fault Refusal :=
  always t (fun s => { (s.modPair fun p => { p with power := .off, ready := false }) with pins := [] }) s

/-- Retention-domain contents are lost: Oasis, and of a unit that still runs the station buffers and the sequence counters, whose values
are then free (18_integration R400, log entry 39). -/
def State.loseRetention (s : State) : State :=
  let s := { s with oasisA := { s.oasisA with slots := [], pinOrder := [], bad := [] }, oasisB := { s.oasisB with slots := [], pinOrder := [], bad := [] } }
  if !s.isOn then s
  else
    let s := s.dies.foldl (fun (s : State) n =>
      let (v, s) := s.draw
      -- curds lost on their way to the journal are missing (05_records R128)
      let gone := ((s.stn n).closed.map (·.curd)).filter fun c => !(s.accepted n c.rsv c.firstSeq)
      let s := { s with jrn := gone.foldl (fun (j : Jrn) (c : Curd) => j.missing n c.firstSeq) s.jrn }
      s.modStn n fun st => { st with cur := none, rsv := none, closed := [], link := [], seq := v.toNat }) s
    let s := (List.range 8).foldl (fun (s : State) k =>
      let (v, s) := s.draw
      s.modSrc k fun h => { h with seq := v.toNat }) s
    let (d, s) := s.draws 3
    { s with
      capIds := (d.getD 0 0).setWidth 32
      egr := { s.egr with session := (d.getD 1 0).setWidth 32 }
      sec := { s.sec with serial := (d.getD 2 0).toNat % 2 ^ 32, keyReady := false, regs := [] }
      chans := [] }

/-- RETENTION_SUPPLY_LOSS: VRET falls below 0.55 V. -/
def execRetentionSupplyLoss (t : Nat) (s : State) : Host.Outcome State Fault Refusal := always t (fun s => s.loseRetention) s

/-! ## Station resets (14_startup R338) -/

/-- The HOLD bit of a station (14_startup Table 14.9). -/
def State.stnHeld (s : State) (n : Nat) : Bool := if n < 32 then s.rb Kx.glbStnrstLo n else s.rb Kx.glbStnrstHi (n - 32)

/-- STATION_RESET_ENTRY. -/
def execStationResetEntry (t : Nat) (die : Fin 40) (s : State) : Host.Outcome State Fault Refusal :=
  onStn t die (fun s => s.stnOwnReset die) s

/-- STATION_RESET_EXIT: the station's own sequence has ended; it leaves reset once its HOLD bit is clear (17_setup Table 17.4). -/
def execStationResetExit (t : Nat) (die : Fin 40) (s : State) : Host.Outcome State Fault Refusal :=
  onUnit t (fun s =>
    let s := s.modStn die fun st => { st with own := false }
    if s.stnHeld die then s else s.stnStart die) s

/-- STATION_RELOAD. -/
def execStationReload (t : Nat) (die : Fin 40) (s : State) : Host.Outcome State Fault Refusal := onHub t (fun s => s.stnReload die) s

/-- A write to KX_GLB_STNRST: a station whose bit is set enters reset, one whose bit is cleared leaves it (14_startup R338). -/
def State.stnrstWrite (s : State) (p : Port) (hi : Bool) (v : Word) : State :=
  let r := if hi then Kx.glbStnrstHi else Kx.glbStnrstLo
  let v := if hi then v &&& 0xFF#32 else v
  s.notDbg p r.off fun s =>
    s.rwsWrite p (s.rd r != v) fun s =>
      let old := s.rd r
      let s := s.wr r v
      (List.range 32).foldl (fun (s : State) i =>
        let n := if hi then 32 + i else i
        if 40 ≤ n then s
        else if v.getLsbD i && !(old.getLsbD i) then s.stnReset n
        else if !(v.getLsbD i) && old.getLsbD i && !(s.stn n).own then s.stnStart n
        else s) s

/-! ## Port resets (14_startup R339) -/

/-- A context whose rings are in host memory stops at once; placements not yet confirmed are placed again. -/
def State.hostStop (s : State) (c : Nat) : State :=
  let x := s.ctx c
  if x.ringloc || x.st = csClosed then s
  else
    let stop := x.st = csRunning || x.st = csStopping || x.st = csFaulted
    let s := s.modCtx c fun x =>
      { x with
        st := if stop then csStopped else x.st, run := if stop then false else x.run
        recs := x.recs.map fun (e : Nat × RecRing) =>
          (e.1, { e.2 with pi := e.2.conf, ents := e.2.ents.take (e.2.ents.length - (e.2.pi + 2 ^ 32 - e.2.conf) % 2 ^ 32) }) }
    { s with subs := s.subs.map fun (y : Sub) =>
        match y.sink with
        | .ring k _ => if k = c then { y with next := y.cursor } else y
        | _ => y }

/-- A port's next reset lifts the fence of a faulted register path (14_startup Table 14.7). -/
def State.liftFence (s : State) (p : Port) : State := s.modLease fun l => { l with fence := l.fence.filter (· != p) }

/-- PORT_A_RESET. -/
def execPortAReset (t : Nat) (s : State) : Host.Outcome State Fault Refusal :=
  onUnit t (fun s =>
    let s := (s.ownerGone okPortA 0 relReset).liftFence .a
    let s := ((s.portMbxReset .a).dropLatches .a)
    let s := (s.ctxs.map (·.1)).foldl (fun (s : State) (c : Nat) => s.hostStop c) s
    { s with msix := {} }) s

/-- PORT_B_RESET: the rings of its contexts run on, and notices are held until SET_NOTIFY. -/
def execPortBReset (t : Nat) (s : State) : Host.Outcome State Fault Refusal :=
  onUnit t (fun s =>
    let s := (s.ownerGone okPortB 0 relReset).liftFence .b
    let s := (s.portMbxReset .b).dropLatches .b
    let p := s.portB
    let held := (p.notices.map fun x => (x.1, x.2.1)) ++ (p.held.filter fun x => !(p.notices.any fun y => y.1 == x.1))
    { s with portB := { eid := 0, dest := p.dest, enable := 0, notices := [], held := held } }) s

/-- PORT_A_FATAL_ERROR: an owner fault of the Port A lease; its register path is fenced (11_management Table 11.1, 14_startup
Table 14.7). -/
def execPortAFatalError (t : Nat) (s : State) : Host.Outcome State Fault Refusal :=
  onUnit t (fun s =>
    if s.lease.kind != okPortA then s
    else (s.modLease fun l => { l with fence := insertNew l.fence .a }).ownerGone okPortA 0 relFault) s

/-! ## Job restart (14_startup R340, R341) -/

/-- JOB_RESTART_SIGNAL: the boundary is 4 µs ahead; a second signal joins it; without a hub it waits. -/
def execJobRestartSignal (t : Nat) (s : State) : Host.Outcome State Fault Refusal :=
  onUnit t (fun s =>
    if !s.pair.ready then s
    else if s.pair.warm || s.pair.takeover.isSome then s.modPair fun p => { p with restartWait := true }
    else if s.pair.restart.isSome then s
    else s.modPair fun p => { p with restart := some (s.now + 4 * usT) }) s

/-- The boundary at one station (14_startup R340). -/
def State.restartStn (s : State) (n b : Nat) (to_ : BitVec 32) : State :=
  let from_ := (s.stn n).epoch
  let open_ := ((s.stn n).accs.filter fun a => a.cause.isNone).map (·.id)
  let s := (open_.foldl (fun (s : State) (i : Nat) => s.closeAcc n i ccRestart) s).admitLastc n
  (s.leaveEpoch n b closeRestart).epochStn n ekRestart false from_ to_ b 0

/-- The RESTART boundary of the device at `b`: it enters one epoch (14_startup R340, 05_records R129). -/
def State.restartAt (s : State) (b : Nat) : State :=
  let e := s.plan.epoch
  let s := s.dies.foldl (fun (s : State) n => if s.stnOn n then s.beforeTaps n fun s => s.restartStn n b (e + 1) else s) s
  let s := (s.hubLeave closeRestart).keepMap
  let s := s.modPlan fun p => { p with epoch := e + 1 }
  let s := (s.epochHub ekRestart false e (e + 1) b 0).nodeBoundary ekRestart e (e + 1)
  let s := if s.ledOn then s.modLed fun l => { l with closeAt := insertNew l.closeAt b } else s
  ((s.churnRestart b).repeatAnchor).modPair fun p => { p with restart := none }

/-- JOB_RESTART_BOUNDARY: not while a commit is in progress, and at least 1 µs after the last boundary of one
(11_management R276). -/
def execJobRestartBoundary (t : Nat) (s : State) : Host.Outcome State Fault Refusal :=
  onHub t (fun s =>
    match s.pair.restart with
    | none => s
    | some a =>
      let last := if s.plan.t ≤ s.now then max s.plan.t (if s.plan.rbAt ≤ s.now then s.plan.rbAt else 0) else 0
      let b := if last + usT ≤ a then a else last + usT
      if s.pinned || s.now < b then s else s.restartAt b) s

/-! ## Uncorrectable memory errors (14_startup R353, Table 14.6) -/

/-- A SRAM_UNCORR record: memory, word address, action (14_startup Table 14.8). -/
def State.sramFault (s : State) (ch wh sram addr action : Nat) : State :=
  s.faultEvent fcSram ch wh (sram * 2 ^ 24 + addr) s.now action 0

/-- The curds of a station's slots in the model's order: the closed ones, the open one, the reserve. -/
def Stn.slots (st : Stn) : List Curd := st.closed.map (·.curd) ++ st.cur.toList ++ st.rsv.toList

/-- Every record of a damaged slot is counted lost under RESET with LKIND 0xF; a curd already accepted loses none. -/
def State.loseSlot (s : State) (n k : Nat) : State :=
  match (s.stn n).slots[k]? with
  | none => s
  | some c =>
    let s := s.modStn n fun st =>
      { st with
        closed := st.closed.filter fun h => h.curd != c, cur := st.cur.filter (· != c), rsv := st.rsv.filter (· != c) }
    if s.accepted n c.rsv c.firstSeq then s
    else
      c.recs.foldl (fun (s : State) (r : Record) =>
        s.modStn n fun st => { st with gaps := countGap st.gaps (srcId n 0 0) 0xF cReset r.seq (s.stnFt n) }) s

/-- A pool buffer is discarded before acceptance: a station's curd arrives again, an internal source's has a second bank
(14_startup Table 14.6, 06_admission R132). -/
def State.discardBuf (s : State) (i : Nat) : State :=
  match s.jrn.pool[i]? with
  | none => s
  | some e =>
    if 40 ≤ e.req || e.jidx.isSome then s
    else { s with jrn := { s.jrn with pool := s.jrn.pool.eraseIdx i, dropped := insertNew s.jrn.dropped (e.req, e.curd.rsv, e.curd.firstSeq) } }

/-- A RINGLOC context with a ring in the damaged word enters FAULTED (14_startup Table 14.6). -/
def State.faultRings (s : State) (addr : Nat) : State :=
  let hit := fun (c : Nat) => (s.ringExtents c).any fun e => decide (e.1 ≤ 8 * addr + 7 ∧ 8 * addr < e.1 + e.2)
  let l := (List.range 16).filter fun c =>
    (s.ctx c).ringloc && ((s.ctx c).st == csRunning || (s.ctx c).st == csStopping) && hit c
  l.foldl (fun (s : State) (c : Nat) =>
    let s := s.modCtx c fun x => { x with st := csFaulted, fcause := fcsReadErr }
    (s.ctxStatus c sbFault).ownerGone okCtx c relFault) s

/-- SRAM_UNCORR. `sram`: 1 record buffer, 2 other station memory, 3 ingest pool, 4 ledger cache (idx 0) or Churn cache, 5 Port B rings,
6 plan store, 7 Oasis, 8 service-core memory; `idx`: the station, buffer, slot or core; `addr`: the word address. -/
def execSramUncorr (t : Nat) (sram : BitVec 8) (idx : Nat) (addr : BitVec 24) (s : State) : Host.Outcome State Fault Refusal :=
  if sram = 1 || sram = 2 then
    onStn t idx (fun s =>
      let s := if s.hubOn then s.sramFault 0 idx sram.toNat addr.toNat 1 else s
      let s := if sram = 1 then s.loseSlot idx (addr.toNat / 512) else s
      s.stnOwnReset idx) s
  else
    onHub t (fun s =>
      let wh := if sram = 4 then unitCode (41 + idx) else unitCode 40
      let note := fun (s : State) (action : Nat) => s.sramFault (hubChan s.pair.active) wh sram.toNat addr.toNat action
      if sram = 3 then (note s 2).discardBuf idx
      else if sram = 4 then if idx = 0 then (note s 3).restoreLedger else (note s 3).restoreChurn
      else if sram = 5 then (note s 4).faultRings addr.toNat
      else if sram = 6 then
        let s := note s 5
        if s.pair.stbyOk || s.plan.phase = .idle then s else s.autoRelease relForced
      else if sram = 7 then
        (note s 6).modOasis s.pair.active fun o =>
          { o with bad := insertNew o.bad idx }
      else if sram = 8 && idx < 8 then
        (s.sramFault (0x8000 + s.coreIdx idx) (unitCode 40) sram.toNat addr.toNat 1).coreFault idx 2 0 0
      else s) s

end Sys2Proof.Machine
end

