-- ==== Sys2Proof/Machine/Live.lean ====
section
/-!
DEFINITION. What a read of each setup register returns, with its side effects (17_setup_registers R380-R393; the register tables
of every chapter). A register that no live field overlays reads as the word State holds.
-/

namespace Sys2Proof.Machine

/-- A register word from its fields: value and lowest bit. -/
def regWord (fs : List (Nat × Nat)) : Word := BitVec.ofNat 32 (fs.foldl (fun a f => a + f.1 * 2 ^ f.2) 0)

/-- The stored word of a register at an offset, with the reset value of its row. -/
def State.stored (s : State) (off : Nat) (r : Kx.Row) : Word := s.rd ⟨off, r.rst⟩

/-- KX_CTX_INFO[c] and KX_CTX_SELF (10_contexts Table 10.2). -/
def State.ctxInfoWord (s : State) (c : Nat) : Word :=
  let x := s.ctx c
  regWord [(x.st.toNat, 29), (x.perm.toNat, 27), (b1 x.stallp, 26), (b1 x.ringloc, 25), (b1 x.pasiden, 24), (x.part.toNat, 16),
    (x.share.toNat, 8)]

/-- KX_GLB_CHSTAT: the channel that CHSEL names (14_startup Table 14.5). -/
def State.chstat (s : State) : Word :=
  let c := s.chan s.chSel
  if s.chanExists s.chSel then regWord [(c.st.toNat, 30), (min 3 c.hot, 28), (c.retry, 18), (c.evwin, 0)] else regWord [(3, 30)]

/-- KX_GLB_STATUS (14_startup Table 14.9). -/
def State.glbStatusWord (s : State) : Word :=
  regWord [(b1 s.pair.ready, 31), (hubIdx s.pair.active, 30), (b1 s.pair.stbyOk, 29),
    (min 255 (s.chans.filter fun e => e.2.st == chRetired).length, 16), (min 255 s.pair.takeovers, 8), (s.pair.lastRst.toNat, 0)]

/-- KX_TIM_STATUS beside its sticky bits and TODREJ (02_fabric_time Table 2.10). The hub that answers holds the master count. -/
def State.timStatusLive (s : State) : Word :=
  regWord [((s.bestAnchor.map fun a => a.src.toNat).getD 0, 16), (b1 (s.clk.pps.lock || s.clk.pps2.lock), 5), (s.clk.devTq.toNat, 3),
    (1, 2), (b1 s.clk.run, 0)]

/-- KX_SEM_OWNER and the live fields of KX_SEM_STATUS (11_management Table 11.2). -/
def State.semOwnerWord (s : State) : Word := regWord [(s.lease.kind.toNat, 29), (s.lease.id, 17), (s.lease.tag.toNat, 0)]
def State.semStatusLive (s : State) (p : Port) : Word :=
  let mine := s.lease.kind != 0 && s.lease.kind == okOfPort p
  regWord [(min 1023 s.leaseLeft, 22), (s.lease.lastRel.toNat, 19), (b1 s.lease.frozenAt.isSome, 7), (b1 s.pinned, 6),
    (b1 (s.plan.phase != .idle), 5), (b1 mine, 4)]

/-- PHASE codes (11_management R265). -/
def phaseCode : Phase → Nat
  | .idle => 0
  | .opened => 1
  | .preparing => 2
  | .armed => 3
  | .recover => 4

/-- The live fields of KX_OP_STATUS (11_management Table 11.5). -/
def State.opStatusLive (s : State) : Word :=
  regWord [(s.plan.result.toNat, 24), (phaseCode s.plan.phase, 20), (min 0xFFFF s.plan.count, 0)]

/-- The journal accepts on one copy (06_admission R143). -/
def State.jrnDegraded (s : State) : Bool :=
  let j := s.jrn
  if j.fallback then j.lost0 && j.lost1 else j.lost0 != j.lost1

/-- The live fields of KX_HUB_JRN_STATUS (06_admission Table 6.2). -/
def State.jrnStatusLive (s : State) : Word :=
  regWord [(b1 s.jrn.rebuild, 11), (b1 s.jrnDegraded, 10), (b1 (s.jrnOn && decide (s.tokNow < curdCharge)), 5),
    (b1 (s.poolFree == 0), 4), (b1 s.jrnOn, 0)]

/-- A copy whose stack is in two bit fields of a configuration register runs on one copy (07_sequence_ledger R181,
10_contexts R242). -/
def State.oneCopy (s : State) (r : Reg) (lo0 lo1 : Nat) : Bool :=
  s.rb r 31 && (s.stackOut (s.rf r (lo0 + 3) lo0) || s.stackOut (s.rf r (lo1 + 3) lo1))

/-- Accepted flow events not yet applied: those in the reorder buffer, and those in accepted curds that the ledger has still to
read (07_sequence_ledger Table 7.7). -/
def State.ledBacklogCount (s : State) : Nat :=
  let from_ := ((s.subOf .ledger).map (·.next)).getD s.jrn.accTo
  let l := s.jrn.mem.filter fun e => decide (from_ ≤ e.1) && (decide (e.1 < s.jrn.accTo) || decide (e.1 ∈ s.jrn.acc)) && decide (e.2.unit < 40)
  s.led.buf.length + (l.map fun e => (e.2.recs.filter fun r => r.ty == .flow).length).sum

/-- Two valid entries of KX_CHN_PORTMAP name the same station port (09_churn R206). -/
def State.mapDup (s : State) : Bool :=
  let l := (s.regs.filter fun e =>
    decide ((Kx.chnPortmap 0).off ≤ e.1 ∧ e.1 < (Kx.chnPortmap 512).off) && e.2.getLsbD 31).map fun e => fld e.2 11 0
  l.eraseDups.length != l.length

/-- The hub window register: NODIV, the shift of lever 0x07, and the window in force in µs (09_churn R207, Table 9.14). -/
def State.hbwStatWord (s : State) : Word :=
  let w := s.hubWin s.skim.kh
  let force := match s.churn.hbwLens.find? fun e => decide (e.1 ≤ s.now) with
    | some e => if e.2 = 0 then w.getD 0 else e.2
    | none => w.getD 0
  regWord [(b1 w.isNone, 31), (s.skim.kh, 26), (if w.isNone then 0 else force / usT % 2 ^ 26, 0)]

/-- KX_OAS_STATUS of the hub that SEL names (14_startup R356, Table 14.9). -/
def State.oasStatusWord (s : State) : Word :=
  let o := s.oasis s.oasSel
  regWord [(o.next % 1024, 22), (o.pinOrder.length, 17), (b1 (s.rb Kx.oasCtl 31), 16), (o.genStart % 1024, 6), (b1 o.prev, 5)]

/-- KX_DBG_STATUS: the halted cores of the HUBSEL hub, and TCK seen within 1 ms (17_setup_registers Table 17.7). -/
def State.dbgStatusWord (s : State) : Word :=
  let base := if s.rb Kx.dbgCtl 8 then 8 else 0
  let att := match s.dbg.tckAt with | some a => decide (s.now ≤ a + msT) | none => false
  regWord (((List.range 8).map fun k => (b1 (s.core (base + k)).halted, 16 + k)) ++ [(b1 att, 0)])

/-- The live fields of KX_SEAL_STATUS and KX_SEC_STATUS (12_isolation Table 12.12). -/
def State.sealStatusLive (s : State) : Word :=
  regWord [(s.sec.regs.length, 24), (b1 s.sec.keyReady, 23), (b1 (!s.sec.ops.isEmpty), 22), (min 63 (s.sec.ops.length - 1), 16)]
def State.secStatusWord (s : State) : Word :=
  regWord [(s.sec.tstate.toNat, 30), (b1 (s.sec.tdi == .run), 29), (min 0xFFFF s.sec.scrubs, 0)]

/-- The live fields of KX_EGR_STATUS (15_egress Table 15.3). -/
def State.egrStatusLive (s : State) : Word :=
  regWord (((List.range 8).map fun l => (b1 ((s.chan (0x5000 + l)).st == chActive), 24 + l)) ++
    [(s.egr.up.toNat, 20), (s.egr.width.toNat, 18)])

/-- The cursor of an egress stream (15_egress Table 15.3). -/
def State.strmCursor (s : State) (k : Nat) : Nat := ((s.subOf (.stream k)).map (·.cursor)).getD 0

/-- The live fields of KX_SYN_PSTAT[p] (13_node Table 13.6). -/
def State.synPstatLive (s : State) (p : Nat) : Word :=
  let x := s.port p
  regWord [(x.st.toNat, 29), ((x.peer.map (·.toNat)).getD 0, 23), (b1 x.peer.isSome, 22), (x.delay % 256, 8)]

/-- The live fields of KX_SYN_STATUS (13_node Table 13.6). -/
def State.synStatusLive (s : State) : Word :=
  let role := if s.node.estranged then 3 else if s.node.isHead then 2 else if s.inNode then 1 else 0
  let claimed := match s.node.head with | some h => s.claims.any fun x => x.2 == h | none => false
  regWord [(role, 30), (s.node.head.getD 0, 24), (b1 claimed, 23), (b1 s.node.plandiff, 22), (min 15 s.nodeDepth, 18),
    (min 15 s.nodeDiam, 14), (min 64 (s.others.length + 1), 7)]

/-- KX_SYN_DEV[d] and KX_SYN_DEVEP[d], which the head keeps (13_node Table 13.7). -/
def State.synDevWord (s : State) (d : Nat) : Word :=
  let row := fun (heard : Bool) (b : Beacon) (est diff : Bool) =>
    regWord [(b1 heard, 31), (b1 b.healthy, 30), (b1 est, 29), (b1 diff, 28), (b.tq.toNat, 26), (min 15 b.depth, 22)]
  if !s.node.isHead then 0
  else if d = s.self then row true s.beacon s.node.estranged s.node.plandiff
  else match sget s.node.devs d with
    | some x => row (s.node.reachable s.now d) x.b (x.b.nvmaj != s.nvmaj) (x.plandiff || x.b.plandiff)
    | none => 0
def State.synDevepWord (s : State) (d : Nat) : Word :=
  if !s.node.isHead then 0
  else if d = s.self then s.node.expect.getD s.plan.epoch
  else match sget s.node.devs d with
    | some x => x.expect.getD 0
    | none => 0

/-- The live fields of the global registers of pages 0x0-0x4: identity, channels, Grayth, time, the lease and plans. -/
def State.liveGlbA (s : State) (p : Port) (off : Nat) : Option Word :=
  let w := fun (n : Nat) => BitVec.ofNat 32 n
  if off = 0x0 then some s.integ.vendor
  else if off = 0x8 then
    some (regWord [(s.dies.length, 26), (s.integ.nstack, 16), (b1 s.integ.cxl, 15), (b1 s.integ.tdisp, 14), (b1 s.integ.ide, 13)])
  else if off = 0xC then some (w s.integ.stnMap.toNat)
  else if off = 0x10 then some (w (s.integ.stnMap.toNat / 2 ^ 32))
  else if off = 0x20 then some s.glbStatusWord
  else if off = 0x44 then some s.chstat
  else if off = 0x94 then some (w s.gray.wptr)
  else if off = 0x98 then some (w s.gray.rptr)
  else if off = 0x9C then some (s.rd Kx.glbGrayStat ||| regWord [(b1 s.gray.running, 0)])
  else if off = 0x1000 then some (s.rd Kx.timStatus ||| s.timStatusLive)
  else if off = 0x1010 then some (w s.now)
  else if off = 0x1014 then some (w (s.now / 2 ^ 32))
  else if off = 0x2004 then some (w s.clk.rtcSec)
  else if off = 0x2008 then some (w (s.clk.rtcSec / 2 ^ 32))
  else if off = 0x200C then some (w s.rtcPeriods)
  else if off = 0x3008 then some s.semOwnerWord
  else if off = 0x300C then some (s.rd Kx.semStatus ||| s.semStatusLive p)
  else if off = 0x400C then some (s.rd Kx.opStatus ||| s.opStatusLive)
  else if off = 0x4010 then some s.plan.epoch
  else if off = 0x4014 then some (w s.plan.map.toNat)
  else if off = 0x4018 then some (w (s.plan.map.toNat / 2 ^ 32))
  else none

/-- The live fields of a mailbox's registers, at offset x of mailbox m (11_management Table 11.9). -/
def State.liveMbx (s : State) (p : Port) (m x : Nat) : Option Word :=
  if x = 0x8 then some (s.mbxTxstat m)
  else if x = 0xC then some (if p = s.mbxPort m || p = .dbg then (s.mbx m).h2f.ackWord else 0)
  else if x = 0x10 then some (s.mbxRxinfo p m)
  else if 0x20 ≤ x ∧ x < 0x40 then some (if p = .dbg then 0 else sgetD ((s.mbx m).tx p) ((x - 0x20) / 4) 0)
  else if 0x40 ≤ x ∧ x < 0x60 then some (s.mbxRxw p m ((x - 0x40) / 4))
  else none

/-- The live fields of the global registers of pages 0x6-0xC: Skim, journal, tensor watch, Oasis, debug, pins, security, ledger. -/
def State.liveGlbB (s : State) (off : Nat) : Option Word :=
  let w := fun (n : Nat) => BitVec.ofNat 32 n
  if off = 0x6010 then
    some (s.rd Kx.skmStatus ||| regWord [(min 255 s.skim.offerPct, 24), (b1 s.skim.pacing, 23), (b1 s.suspended, 22)])
  else if off = 0x6014 then some (w (s.budgetRate / 10))
  else if off = 0x7030 then some (s.rd Kx.hubJrnStatus ||| s.jrnStatusLive)
  else if off = 0x7034 then some (w s.jrn.widx)
  else if off = 0x7038 then some (w (s.jrn.widx / 2 ^ 32))
  else if off = 0x703C then some (w s.oldest)
  else if off = 0x7040 then some (w (s.oldest / 2 ^ 32))
  else if off = 0x7044 then some (setFld (s.rd Kx.hubPoolStat) 9 0 s.poolFree)
  else if off = 0x7084 then
    some (s.rd Kx.hubTwStat ||| regWord [(b1 (s.dies.any fun n => (s.stn n).defer), 7),
      ((s.watches.filter fun e => e.2.done.isNone).length, 0)])
  else if off = 0x8004 then some s.oasStatusWord
  else if off = 0x9004 then some s.dbgStatusWord
  else if 0xA000 ≤ off ∧ off < 0xA020 then
    let p := (off - 0xA000) / 4
    some (s.rd (Kx.pinCfg p) ||| regWord [(b1 (s.pinConflict p), 0)])
  else if off = 0xA034 then
    some (s.rd Kx.pinHoldStat ||| regWord [(b1 s.hold.locked, 7), (b1 s.hold.held, 6), (b1 s.hold.a, 5), (b1 s.hold.b, 4)])
  else if off = 0xB00C then some s.sec.keyId
  else if off = 0xB010 then some (s.rd Kx.sealStatus ||| s.sealStatusLive)
  else if off = 0xB100 then some s.secStatusWord
  else if off = 0xB104 then some (w s.sec.tenant.toNat)
  else if off = 0xB108 then some (w (s.sec.tenant.toNat / 2 ^ 32))
  else if off = 0xB10C then some (w s.sec.serial)
  else if off = 0xB110 then some (w (s.sec.serial / 2 ^ 32))
  else if off = 0xB114 then some (w s.sec.tfloor)
  else if off = 0xB118 then some (w (s.sec.tfloor / 2 ^ 32))
  else if off = 0xC028 then
    some (s.rd Kx.ledStatus ||| regWord [(b1 (s.oneCopy Kx.ledCfg 16 20), 2), (b1 s.led.catchup, 1), (b1 s.ledOn, 0)])
  else if off = 0xC02C then some (w (s.led.live.map (·.2)).sum)
  else if off = 0xC030 then some (w (min 0xFFFFFFFF s.ledBacklogCount))
  else none

/-- The live fields of the global registers from page 0xD: egress, node, Churn and contexts. -/
def State.liveGlbC (s : State) (off : Nat) : Option Word :=
  let w := fun (n : Nat) => BitVec.ofNat 32 n
  let k := (off - 0xD400) / 0x80
  let x := (off - 0xD400) % 0x80
  if off = 0xD024 then some (setFld (s.rd Kx.egrStatus) 31 18 0 ||| s.egrStatusLive)
  else if 0xD400 ≤ off ∧ off < 0xDC00 ∧ x = 0x34 then some (s.rd (Kx.egrSstat k) ||| regWord [((s.strmState k).toNat, 29)])
  else if 0xD400 ≤ off ∧ off < 0xDC00 ∧ x = 0x38 then some (w (s.strmCursor k))
  else if 0xD400 ≤ off ∧ off < 0xDC00 ∧ x = 0x3C then some (w (s.strmCursor k / 2 ^ 32))
  else if 0xE010 ≤ off ∧ off < 0xE01C then
    some (s.rd (Kx.synPstat ((off - 0xE010) / 4)) ||| s.synPstatLive ((off - 0xE010) / 4))
  else if off = 0xE020 then some (s.rd Kx.synStatus ||| s.synStatusLive)
  else if off = 0xE024 then some (BitVec.ofInt 32 s.node.offh)
  else if off = 0xE028 then some (BitVec.ofInt 32 (s.node.offh / 2 ^ 32))
  else if off = 0xE02C then some (setFld (s.rd Kx.synVer) 15 8 s.node.nvminn.toNat)
  else if off = 0xE034 then some s.node.nfeat
  else if off = 0xE038 then some (s.rd Kx.synClaim ||| regWord [(s.node.claim % 2 ^ 16, 0)])
  else if off = 0xE068 then some (regWord [(s.node.result.toNat, 24), (b1 s.node.op.isSome, 23)])
  else if off = 0xE06C then some s.node.snapId
  else if off = 0xE070 then some (w s.node.nmap.toNat)
  else if off = 0xE074 then some (w (s.node.nmap.toNat / 2 ^ 32))
  else if 0xE100 ≤ off ∧ off < 0xE200 then some (s.synDevWord ((off - 0xE100) / 4))
  else if 0xE200 ≤ off ∧ off < 0xE300 then some (s.synDevepWord ((off - 0xE200) / 4))
  else if off = 0x10014 then some s.hbwStatWord
  else if off = 0x10018 then
    some (s.rd Kx.chnStatus ||| regWord [(b1 s.mapDup, 5), (b1 s.churn.catchup, 4), (b1 s.chnOn, 0)])
  else if 0x20000 ≤ off ∧ off < 0x24000 then some (s.ctxInfoWord ((off - 0x20000) / 4))
  else if 0x24000 ≤ off ∧ off < 0x28000 then some (w (s.ctx ((off - 0x24000) / 4)).pasid.toNat)
  else if off = 0x28000 then some (s.rd Kx.ctxLogCfg ||| regWord [(b1 (s.oneCopy Kx.ctxLogCfg 12 16), 3)])
  else none

/-- What a global register reads for a port, with no side effect; zero at an offset Table 17.2 does not name. -/
def State.peekHub (s : State) (p : Port) (off : Nat) : Word :=
  match Kx.findRow Kx.hubRows off with
  | none => 0
  | some r =>
    let live :=
      if off < 0x5000 then s.liveGlbA p off
      else if off < 0x6000 then s.liveMbx p ((off - 0x5000) / 0x80) ((off - 0x5000) % 0x80)
      else if off < 0xD000 then s.liveGlbB off
      else s.liveGlbC off
    live.getD (s.stored off r)

/-- The global registers of which a read of LO latches HI: KX_HUB_JRN_WIDX and _OLDEST, KX_SEC_TENANT, _SERIAL and _TFLOOR,
KX_SYN_OFFSET, KX_EGR_SCUR (their own tables). -/
def latchesHi (off : Nat) : Bool :=
  off ∈ [0x7034, 0x703C, 0xB104, 0xB10C, 0xB114, 0xE024] || (decide (0xD400 ≤ off ∧ off < 0xDC00) && (off - 0xD400) % 0x80 == 0x38)

/-- What a read of a register returns: of its RC fields, the value before a hardware update of the same cycle (00_scope Table 0.5). -/
def State.beforeHw (s : State) (off : Nat) (r : Kx.Row) (v : Word) : Word :=
  let m := BitVec.ofNat 32 r.rc
  match sget s.hw off with
  | some x => (v &&& ~~~m) ||| (x.before &&& m)
  | none => v

/-- The RC fields of a register clear as they are read; they then hold what hardware has updated in the same cycle (00_scope
Table 0.5). -/
def State.clearRc (s : State) (off : Nat) (r : Kx.Row) : State :=
  if r.rc = 0 then s
  else
    let m := BitVec.ofNat 32 r.rc
    { s.wr ⟨off, r.rst⟩ ((s.stored off r &&& ~~~m) ||| (s.hwSet ⟨off, r.rst⟩ &&& m)) with hw := sdel s.hw off }

/-- A read of a global register; `pk` reads without side effects (00_scope R13, 17_setup_registers R382, R383). An expired lease is
released first (11_management R262). -/
def State.readHub (s : State) (p : Port) (pk : Bool) (off : Nat) : State × Word :=
  let s := if 0x3000 ≤ off ∧ off < 0x5000 then s.expire else s
  if pk then (s, (s.latch p off).getD (s.peekHub p off))
  else if off = 0x1010 then s.readFtLo p
  else if off = 0x2004 then s.readRtcLo p
  else if 0x5000 ≤ off ∧ off < 0x5800 ∧ (off - 0x5000) % 0x80 = 0xC then s.mbxAckqRead p ((off - 0x5000) / 0x80)
  else match Kx.findRow Kx.hubRows off with
    | none => (s, 0)
    | some r =>
      let v := s.beforeHw off r (s.peekHub p off)
      let s := if latchesHi off then s.setLatch p (off + 4) (s.peekHub p (off + 4)) else s
      let (s, v) := s.readLatched p off v
      (s.clearRc off r, v)

/-! ## Station windows -/

/-- The counter whose LO or HI register lies at a window offset (17_setup_registers Table 17.3). -/
def ctrAt (y : Nat) : Option Nat :=
  if 0x600 ≤ y ∧ y < 0x800 then some (256 + (y - 0x600) / 8)
  else if 0x800 ≤ y ∧ y < 0x1000 then some ((y - 0x800) / 8)
  else none

/-- A signed value in a field of n bits, saturating (02_fabric_time Table 2.4). -/
def satInt (n : Nat) (v : Int) : Nat :=
  let top : Int := 2 ^ (n - 1) - 1
  (BitVec.ofInt n (if top < v then top else if v < -top then -top else v)).toNat

/-- What a station register reads for a port, with no side effect: the TIME increments of die cycles that have ended are in the counters
(17_setup_registers Table 17.3, 03_counters R67). -/
def State.peekStn (s : State) (p : Port) (n y : Nat) : Word :=
  let s := s.settleEnded n (s.stnFt n)
  let st := s.stn n
  match Kx.findRow Kx.stnRows y with
  | none => 0
  | some r =>
    let v := s.stored (stnOff n y) r
    match ctrAt y with
    | some k => if y % 8 = 4 then st.hiWord p k else BitVec.ofNat 32 (st.counter k)
    | none =>
      if y = 0x0 then
        v ||| regWord [(satInt 8 (st.servo.resid.tdiv 2), 16), (min 255 (st.servo.delay / 4), 8), (b1 st.servo.alt, 4),
          (st.servo.st.toNat, 0)]
      else if y = 0x14 then setFld v 23 0 0 ||| regWord [(st.levCnt % 16, 20), (s.cntIval n / usT % 2 ^ 20, 0)]
      else if y = 0x2C then setFld v 31 27 (s.log2n n)
      else if y = 0x40 then
        let x := sgetD s.plan.seqBy n (0, 0)
        setFld v 15 7 0 ||| regWord [(x.2.toNat, 8), (b1 (x.1 == 0), 7)]
      else if y = 0x44 then v ||| regWord [(st.seqr.cur.toNat, 0)]
      else if 0xA0 ≤ y ∧ y < 0xB0 then
        let a := (y - 0xA0) / 4
        regWord [(sgetD st.levBw a 0 % 16, 26), (s.bwWin n a / usT % 2 ^ 26, 0)]
      else if 0x2000 ≤ y then (s.linfo n ((y - 0x2000) / 256) ((y - 0x2000) / 4 % 64)).setWidth 32
      else v

/-- A read of a register of station n's window (17_setup_registers R385). -/
def State.readStn (s : State) (p : Port) (pk : Bool) (n y : Nat) : State × Word :=
  match Kx.findRow Kx.stnRows y with
  | none => (s, 0)
  | some r =>
    s.stnRead p n y fun s =>
      if pk then (s, s.peekStn p n y)
      else match ctrAt y with
        | some k => if y % 8 = 4 then s.readCntHi p n k else s.readCntLo p n k
        | none => (s.clearRc (stnOff n y) r, s.beforeHw (stnOff n y) r (s.peekStn p n y))

/-! ## Doorbell pages -/

/-- An access to a doorbell page that TDISP lets through: a tenant page needs the T bit while the TDI is LOCKED or RUN
(12_isolation R292). -/
def State.teeOk (s : State) (tee : Bool) (c : Nat) : Bool :=
  !(decide (16 ≤ c) && (s.sec.tdi == .locked || s.sec.tdi == .run) && !tee)

/-- What a register of context c's doorbell page reads (10_contexts Table 10.5). -/
def State.peekPage (s : State) (c x : Nat) : Word :=
  let k := s.ctx c
  match Kx.findRow Kx.ctxRows x with
  | none => 0
  | some r =>
    if x = 0x44 then
      regWord ((List.range 8).map fun n =>
        (match s.wmLevels c n with
          | some (h, _) => b1 (s.rb (Kx.ctxRecCfg c n) 31 && decide (h ≤ (s.ring c n).used))
          | none => 0, n))
    else if x = 0x50 then regWord [(b1 k.run, 31), (k.fcause.toNat, 4)]
    else if x = 0x54 then s.ctxInfoWord c
    else if x = 0x60 then BitVec.ofNat 32 k.nextSeq
    else if x = 0x64 then BitVec.ofNat 32 (k.nextSeq / 2 ^ 32)
    else s.stored (0x1000000 + 0x1000 * c + x) r

/-- A read of context c's doorbell page. A CLOSED context reads zero but for KX_CTX_SELF (10_contexts R233). -/
def State.readPage (s : State) (p : Port) (tee pk : Bool) (c x : Nat) : State × Word :=
  let off := 0x1000000 + 0x1000 * c + x
  if !(s.teeOk tee c) || ((s.ctx c).st == csClosed && x != 0x54) then (s, 0)
  else match Kx.findRow Kx.ctxRows x with
    | none => (s, 0)
    | some r =>
      let v := if pk then s.peekPage c x else s.beforeHw off r (s.peekPage c x)
      if pk then (s, (s.latch p off).getD v)
      else
        let s := if x = 0x60 then s.setLatch p (off + 4) (s.peekPage c 0x64) else s
        let (s, v) := s.readLatched p off v
        (s.clearRc off r, v)

/-! ## MSI-X -/

/-- A DWORD of the MSI-X table: address, data, or the mask bit (17_setup_registers R392, as the PCIe specification has it). -/
def State.msixWord (s : State) (i : Nat) : Word :=
  if i % 4 = 3 then (if i / 4 ∈ s.msix.unmasked then 0 else 1) else sgetD s.msix.table_ i 0

/-- A DWORD of the pending-bit array. -/
def State.pbaWord (s : State) (j : Nat) : Word :=
  regWord ((List.range 32).map fun i => (b1 (decide (32 * j + i ∈ s.msix.pending)), i))

/-! ## The aperture (17_setup_registers Table 17.1) -/

/-- A read of the register at an aligned aperture offset. -/
def State.readWord (s : State) (p : Port) (tee : Bool) (off : Nat) : State × Word :=
  let dbg := decide (p = .dbg)
  if off < 0x30000 then s.readHub p dbg off
  else if off < 0x40100 then (s, s.msixWord ((off - 0x30000) / 4))
  else if 0x41000 ≤ off ∧ off < 0x41208 then (s, s.pbaWord ((off - 0x41000) / 4))
  else if 0x80000 ≤ off ∧ off < 0xB0000 then s.readHub p true (off - 0x80000)
  else if 0x1000000 ≤ off ∧ off < 0x2000000 then
    let c := (off - 0x1000000) / 0x1000
    let x := off % 0x1000
    if 0x840 ≤ x ∧ x < 0x868 then s.readPage p tee true c (x - 0x800) else s.readPage p tee dbg c x
  else if 0x2000000 ≤ off ∧ off < 0x2280000 then
    let n := (off - 0x2000000) / 0x10000
    let y := off % 0x10000
    if 0x8000 ≤ y then s.readStn p true n (y - 0x8000) else s.readStn p dbg n y
  else (s, 0)

/-- An access longer than 8 B, or one that crosses an 8 B boundary (17_setup_registers R381). -/
def wideAccess (off width : Nat) : Bool := decide (8 < width) || decide (8 < off % 8 + width)

/-- An access inside the MSI-X table or its pending bits (17_setup_registers Table 17.1). -/
def inMsix (off : Nat) : Bool := decide (0x30000 ≤ off ∧ off < 0x40100) || decide (0x41000 ≤ off ∧ off < 0x41208)

/-- Whole aligned DWORDs or QWORDs, the accesses whose result at the MSI-X structures the PCIe specification defines. -/
def wholeWords (off width : Nat) : Bool := (width == 4 && off % 4 == 0) || (width == 8 && off % 8 == 0)

/-- A read of `width` bytes: each register it touches is read whole, the lower offset first; a wide one reads zero and triggers
nothing (17_setup_registers R381). At the MSI-X structures an access that is no whole DWORD or QWORD returns a free value (R392). -/
def State.portRead (s : State) (p : Port) (tee : Bool) (off width : Nat) : State × Nat :=
  if inMsix off && !(wholeWords off width) then
    let (v, s) := s.draw
    (s, v.toNat % 2 ^ (8 * width))
  else if wideAccess off width then (s.accErr aeWide p off, 0)
  else
    let base := off - off % 8
    let lo := decide (off % 8 < 4 ∧ 0 < width)
    let hi := decide (4 < off % 8 + width)
    let (s, a) := if lo then s.readWord p tee base else (s, 0)
    let (s, b) := if hi then s.readWord p tee (base + 4) else (s, 0)
    (s, (a.toNat + 2 ^ 32 * b.toNat) / 2 ^ (8 * (off % 8)) % 2 ^ (8 * width))

end Sys2Proof.Machine
end

