-- ==== Sys2Proof/Machine/Access.lean ====
section
/-!
DEFINITION. Register writes from Port A, Port B and the debug port, the Port B register messages and KXACC
(17_setup_registers R380-R393, 11_management R261, R267, R279, 16_grayth R377-R379, 18_integration R404).
-/

namespace Sys2Proof.Machine

/-! ## Writes of the global registers that do more than their access types say -/

/-- A write of KX_GLB_CHCTL: RETIRE goes before RESTORE (14_startup R351, 17_setup_registers Table 17.4). -/
def State.chctlWrite (s : State) (p : Port) (v : Word) : State :=
  s.rwsWrite p (((s.rd Kx.glbChctl ^^^ v) &&& 0xC0000000#32) != 0) fun s =>
    if v.getLsbD 30 then s.retireChan s.chSel ccOperator
    else if v.getLsbD 31 then s.chanRestore s.chSel
    else s

/-- A write of KX_PIN_HOLD_CFG: a polarity that changes turns its channel's level over (04_markers Table 4.18, R114). -/
def State.holdCfgWrite (s : State) (p : Port) (v : Word) : State :=
  let old := s.rd Kx.pinHoldCfg
  let s := s.writeHub p Kx.pinHoldCfg.off v
  let new := s.rd Kx.pinHoldCfg
  let turn := fun (s : State) (chanB : Bool) =>
    let now := if chanB then !s.hold.b else !s.hold.a
    if new.getLsbD 31 then s.holdTake chanB now
    else { s with hold := if chanB then { s.hold with b := now } else { s.hold with a := now } }
  -- disabled inputs watch no window
  let s := if new.getLsbD 31 then s else { s with hold := { s.hold with win := none } }
  let s := if old.getLsbD 30 != new.getLsbD 30 then turn s false else s
  if old.getLsbD 29 != new.getLsbD 29 then turn s true else s

/-- A write of KX_SYN_ID: BOARD and SLOT do not change while EN = 1 (13_node Table 13.6). -/
def State.synIdWrite (s : State) (p : Port) (v : Word) : State :=
  let old := s.rd Kx.synId
  let keep := old.getLsbD 31 && fld v 5 0 != fld old 5 0
  let s := s.writeHub p Kx.synId.off (if keep then setFld v 5 0 (fld old 5 0) else v)
  let s := if keep then s.denied else s
  s.noteSyn (fld (s.rd Kx.synId) 5 0 != fld old 5 0)

/-- A write of KX_SYN_NCMD (13_node Table 13.7). -/
def State.ncmdWrite (s : State) (v : Word) : State :=
  match fld v 31 30 with
  | 1 => s.nodeCommit 0 0
  | 2 => s.nodeSnapshot
  | _ => s

/-- A write of a register that a unit's own EN holds: dropped with an error bit while it runs (06_admission R144,
07_sequence_ledger R182, 10_contexts R242). -/
def State.heldWrite (s : State) (p : Port) (off : Nat) (v : Word) (on : Bool) (r : Reg) (bit : Nat) : State :=
  if on then s.setB r bit true else s.writeHub p off v

/-- A write of mailbox m's register at offset x (11_management Table 11.9). -/
def State.mbxRegWrite (s : State) (p : Port) (m x : Nat) (v : Word) : State :=
  let off := 0x5000 + 0x80 * m + x
  if x = 0x4 then s.mbxPostWrite p m v false
  else if x = 0x8 then s.mbxOwner p m off fun s => s.writeHub p off v
  else if x = 0x14 then s.mbxAckWrite p m v
  else if 0x20 ≤ x ∧ x < 0x40 then s.mbxStage p m ((x - 0x20) / 4) v
  else s.writeHub p off v

/-- A write of an egress register (15_egress R372, Table 15.3). -/
def State.egrRegWrite (s : State) (p : Port) (off : Nat) (v : Word) : State :=
  let k := (off - 0xD400) / 0x80
  let x := (off - 0xD400) % 0x80
  if off = 0xD000 then s.writeEgrCfg p v
  else if off < 0xD020 then s.writeEgrAddr p off v
  else if off < 0xD400 then s.writeHub p off v
  else if x = 0 then s.writeScfg p k v
  else if 0x34 ≤ x then s.writeHub p off v
  else s.writeStrmReg p k off v

/-- A write of a node register (13_node Tables 13.6, 13.7). -/
def State.synRegWrite (s : State) (p : Port) (off : Nat) (v : Word) : State :=
  if off = 0xE000 then s.synIdWrite p v
  else if off = 0xE038 then s.claimWrite p v
  else if off = 0xE05C then s.ncmdWrite v
  else (s.writeHub p off v).noteSyn false

/-- A write of a global register of pages 0x0-0x4. -/
def State.glbWriteA (s : State) (p : Port) (off : Nat) (v : Word) : State :=
  if off = 0x24 then s.glbCtlWrite p v
  else if off = 0x28 then s.stnrstWrite p false v
  else if off = 0x2C then s.stnrstWrite p true v
  else if off = 0x48 then s.chctlWrite p v
  else if off = 0x80 then s.writeGrayCfg p v
  else if 0x84 ≤ off ∧ off < 0x94 then s.writeGrayAddr p off v
  else if off = 0x98 then s.writeRptr p v
  else if off = 0x9C then (if p = .a then s.writeHub p off v else s)
  else if off = 0x3000 then s.semReqWrite p v
  else if off = 0x3004 then s.semRelWrite p v
  else if 0x3000 ≤ off ∧ off < 0x4000 then s.expire.writeHub p off v
  else if off = 0x4000 then s.opCtlWrite p v
  else s.writeHub p off v

/-- A write of a global register of pages 0x5-0xC. -/
def State.glbWriteB (s : State) (p : Port) (off : Nat) (v : Word) : State :=
  if off < 0x6000 then s.mbxRegWrite p ((off - 0x5000) / 0x80) ((off - 0x5000) % 0x80) v
  else if off = 0x6004 then s.refill.writeHub p off v
  else if off = 0x7000 then s.writeJrnCfg p v
  else if 0x7010 ≤ off ∧ off < 0x7028 then s.heldWrite p off v s.jrnOn Kx.hubJrnStatus 6
  else if off = 0x7080 then s.writeTwCfg p v
  else if 0x7088 ≤ off ∧ off < 0x7180 then s.writeTwExcl p off v
  else if off = 0x8000 then s.oasCtlWrite p v
  else if off = 0x9000 then s.dbgCtlWrite p v
  else if off = 0xA030 then s.holdCfgWrite p v
  else if off = 0xC000 then s.writeLedCfg p v
  else if 0xC010 ≤ off ∧ off < 0xC020 then s.heldWrite p off v s.ledOn Kx.ledStatus 5
  else s.writeHub p off v

/-- A write of a global register from page 0xD. -/
def State.glbWriteC (s : State) (p : Port) (off : Nat) (v : Word) : State :=
  if off < 0xE000 then s.egrRegWrite p off v
  else if off < 0x10000 then s.synRegWrite p off v
  else if off = 0x10000 then s.writeChnCfg p v
  else if 0x10800 ≤ off ∧ off < 0x11000 then (s.writeHub p off v).noteHubWin s.now
  else if off = 0x28000 then s.writeLogCfg p v
  else if 0x28010 ≤ off then s.heldWrite p off v s.logOn Kx.ctxLogCfg 2
  else s.writeHub p off v

/-- A write of a global register. The GT-2 freeze offset is reserved (16_grayth R378); a plan register is staged (R267). -/
def State.writeGlb (s : State) (p : Port) (off : Nat) (v : Word) : State :=
  match Kx.findRow Kx.hubRows off with
  | none => if off = 0xA0 then s else s.accErr aeUnmapped p off
  | some r =>
    if r.rwp ≠ 0 then s.rwpWrite p off v
    else if off < 0x5000 then s.glbWriteA p off v
    else if off < 0xD000 then s.glbWriteB p off v
    else s.glbWriteC p off v

/-! ## Station windows, doorbell pages and MSI-X -/

/-- A write of a register of station n's window (17_setup_registers R385). -/
def State.writeStn (s : State) (p : Port) (n y : Nat) (v : Word) : State :=
  let off := stnOff n y
  match Kx.findRow Kx.stnRows y with
  | none => s.accErr aeUnmapped p off
  | some r =>
    if !(s.present n) then s.accErr aeStnAbsent p off
    else if r.rwp ≠ 0 then s.rwpWrite p off v
    else s.stnAccess p n y fun s =>
      match ctrAt y with
      | some k => if 256 ≤ k then s else if y % 8 = 4 then s.writeCntHi p n k v else s.writeCntLo p n k v
      | none => s.writeRow p off r v

/-- The configuration registers of a doorbell page: SEQ0 and the ring registers (10_contexts R233). -/
def isCtxCfg (x : Nat) : Bool := x == 0x58 || x == 0x5C || decide (0x80 ≤ x ∧ x < 0x200)

/-- A write of a register of context c's doorbell page (10_contexts R233-R235). -/
def State.writePage (s : State) (p : Port) (tee : Bool) (c x : Nat) (v : Word) : State :=
  if !(s.pageOpen tee c) then s
  else match Kx.findRow Kx.ctxRows x with
    | none => s
    | some r =>
      if x = 0x0 then s.dbCmd c v.toNat
      else if x = 0x4 then s.dbCpl c v.toNat
      else if x < 0x28 then s.dbRec c ((x - 8) / 4) v.toNat
      else if x = 0x50 then (if v.getLsbD 31 then s.runCtx c else s.stopCtx c)
      else if isCtxCfg x then
        if (s.ctx c).st != csStopped then s.ctxStatus c sbCfgErr
        else (s.writeRow p (0x1000000 + 0x1000 * c + x) r v).modCtx c fun k =>
          if x < 0x80 then { k with seqDirty := true } else { k with ringDirty := true }
      else s.writeRow p (0x1000000 + 0x1000 * c + x) r v

/-- A write of a DWORD of the MSI-X table (17_setup_registers R392). -/
def State.writeMsix (s : State) (i : Nat) (v : Word) : State :=
  if i % 4 ≠ 3 then
    { s with msix := { s.msix with table_ := if v = 0 then sdel s.msix.table_ i else sput s.msix.table_ i v } }
  else if v.getLsbD 0 then { s with msix := { s.msix with unmasked := s.msix.unmasked.filter (· != i / 4) } }
  else s.msixUnmask (i / 4)

/-! ## The aperture -/

/-- A PK alias (17_setup_registers R382, 10_contexts Table 10.4). -/
def isPk (off : Nat) : Bool :=
  if off < 0x1000000 then decide (0x80000 ≤ off ∧ off < 0xB0000)
  else if off < 0x2000000 then decide (0x840 ≤ off % 0x1000 ∧ off % 0x1000 < 0x868)
  else decide (off < 0x2280000 ∧ 0x8000 ≤ off % 0x10000 ∧ off % 0x10000 < 0xC000)

/-- A register lies at the aligned offset (17_setup_registers Table 17.1). -/
def isReg (off : Nat) : Bool :=
  if off < 0x30000 then (Kx.findRow Kx.hubRows off).isSome
  else if off < 0x1000000 then inMsix off
  else if off < 0x2000000 then (Kx.findRow Kx.ctxRows (off % 0x1000)).isSome
  else decide (off < 0x2280000) && (Kx.findRow Kx.stnRows (off % 0x10000)).isSome

/-- The debug port writes the KX_DBG registers alone (17_setup_registers R383). -/
def isDbg (off : Nat) : Bool := off == Kx.dbgCtl.off || off == Kx.dbgStatus.off

/-- A write of a whole register at an aligned aperture offset. -/
def State.writeWord (s : State) (p : Port) (tee : Bool) (off : Nat) (v : Word) : State :=
  if p = .dbg ∧ !(isDbg off) then s.accErr aeDbgWr p off
  else if isPk off then s
  else if off < 0x30000 then s.writeGlb p off v
  else if off < 0x40100 then s.writeMsix ((off - 0x30000) / 4) v
  else if 0x41000 ≤ off ∧ off < 0x41208 then s
  else if 0x1000000 ≤ off ∧ off < 0x2000000 then s.writePage p tee ((off - 0x1000000) / 0x1000) (off % 0x1000) v
  else if 0x2000000 ≤ off ∧ off < 0x2280000 then s.writeStn p ((off - 0x2000000) / 0x10000) (off % 0x10000) v
  else s.accErr aeUnmapped p off

/-- The part of a write that falls on one register, with its four byte enables: a register that no enabled byte touches is not
written, and one that they do not cover is not either and sets PARTIAL (17_setup_registers R381). -/
def State.writePart (s : State) (p : Port) (tee : Bool) (off en : Nat) (v : Word) : State :=
  if en = 0 then s
  else if en = 15 || isPk off || !(isReg off) || p == .dbg then s.writeWord p tee off v
  else s.accErr aePartial p off

/-- A write of `width` bytes with byte enables: the lower register first, but the HI half of a counter before its LO
(17_setup_registers R381, R386). At the MSI-X table an access that is no whole DWORD or QWORD writes free values (R392). -/
def State.portWrite (s : State) (p : Port) (tee : Bool) (off width : Nat) (be : BitVec 8) (value : BitVec 64) : State :=
  let all := be.toNat % 2 ^ width == 2 ^ width - 1
  if inMsix off && !(wholeWords off width && all) && p != .dbg then
    let (v, s) := s.draw
    if wideAccess off width then s.writeMsix ((off - 0x30000) / 4) (v.setWidth 32)
    else (List.range 2).foldl (fun (s : State) i =>
      let o := off - off % 8 + 4 * i
      if o < 0x40100 ∧ o < off + width ∧ off < o + 4 then s.writeMsix ((o - 0x30000) / 4) ((v >>> (32 * i)).setWidth 32) else s) s
  else if wideAccess off width then s.accErr aeWide p off
  else
    let base := off - off % 8
    let en := be.toNat % 2 ^ width * 2 ^ (off % 8)
    let data := value <<< (8 * (off % 8))
    let lo := fun (s : State) => s.writePart p tee base (en % 16) (data.setWidth 32)
    let hi := fun (s : State) => s.writePart p tee (base + 4) (en / 16) ((data >>> 32).setWidth 32)
    let pair := decide (0x2000000 ≤ base ∧ base < 0x2280000 ∧ 0x800 ≤ base % 0x10000 ∧ base % 0x10000 < 0x1000)
    if pair then lo (hi s) else hi (lo s)

/-! ## The rows -/

/-- REGISTER_WRITE: a memory write of a port (17_setup_registers R381). -/
def execRegisterWrite (t : Nat) (port : Port) (tee : Bool) (off : BitVec 26) (width : Nat) (be : BitVec 8) (value : BitVec 64)
    (s : State) : Host.Outcome State Fault Refusal :=
  onWrite t port off.toNat (fun s => s.portWrite port tee off.toNat width be value) s

/-- RWP_WRITE: a write of a plan register on a register path (11_management R267). -/
def execRwpWrite (t : Nat) (port : Port) (off : BitVec 26) (width : Nat) (be : BitVec 8) (value : BitVec 64) (s : State) :
    Host.Outcome State Fault Refusal :=
  onWrite t port off.toNat (fun s => s.portWrite port false off.toNat width be value) s

/-- AUTOCOMMIT_WRITE: a write of one whole plan register that AUTOCOMMIT may serve (16_grayth R377). -/
def execAutocommitWrite (t : Nat) (port : Port) (off : BitVec 26) (value : Word) (s : State) : Host.Outcome State Fault Refusal :=
  onWrite t port off.toNat (fun s => s.portWrite port false off.toNat 4 0xF (value.setWidth 64)) s

/-- COUNT of a register message (11_management Table 11.8). -/
def regCountOk (n : Nat) : Bool := decide (1 ≤ n ∧ n ≤ 32)

/-- REG_READ: the words in order, with read side effects (11_management R257, R279). -/
def execRegRead (t : Nat) (off : BitVec 26) (count : Nat) (s : State) : Host.Outcome State Fault Refusal :=
  always t (fun s =>
    if !s.isOn || !s.pair.ready then s
    else if !(regCountOk count) then (if s.pair.warm then s else s.emit (.response rBadArg []))
    else if s.pair.warm then s.emit (.response rOk (List.replicate (4 * count) 0))
    else
      let s := if s.pair.takeover.isSome then s.accErr aeHeld .b off.toNat else s
      let x := (List.range count).foldl (fun (x : State × List Byte) i =>
        let (s, v) := x.1.portRead .b false (off.toNat + 4 * i) 4
        (s, x.2 ++ bytesOfNat 4 v)) (s, [])
      x.1.emit (.response rOk x.2)) s

/-- A write was dropped under R233: a reserved offset or a CLOSED context's page, a page that does not take it, or a configuration
register of a context that is not STOPPED. -/
def State.pageDrops (s : State) (off : Nat) : Bool :=
  let c := (off - 0x1000000) / 0x1000
  let x := off % 0x1000
  decide (0x1000000 ≤ off ∧ off < 0x2000000) && !(isPk off) &&
    (!(s.pageOpen false c) || (Kx.findRow Kx.ctxRows x).isNone || (isCtxCfg x && (s.ctx c).st != csStopped))

/-- One write of a REG_WRITE, and whether it was dropped under R12 or R233: under R12 it sets DENIED or NOTXN
(11_management Table 11.8, R261). -/
def State.countedWrite (s : State) (off : Nat) (v : Word) : State × Bool :=
  let put := fun (s : State) => s.portWrite .b false off 4 0xF (v.setWidth 64)
  if off = Kx.semStatus.off || off = Kx.opStatus.off then (put s, false)
  else
    let d := s.rb Kx.semStatus 1
    let n := s.rb Kx.opStatus 23
    let s1 := put ((s.setB Kx.semStatus 1 false).setB Kx.opStatus 23 false)
    let drop := s1.rb Kx.semStatus 1 || s1.rb Kx.opStatus 23 || s.pageDrops off
    let s1 := if d then s1.setF Kx.semStatus 1 1 1 else s1
    (if n then s1.setF Kx.opStatus 23 23 1 else s1, drop)

/-- REG_WRITE: the writes in order; the answer counts those dropped (11_management R257, R279). -/
def execRegWrite (t : Nat) (writes : List (BitVec 26 × Word)) (s : State) : Host.Outcome State Fault Refusal :=
  always t (fun s =>
    if !s.isOn || !s.pair.ready then s
    else if s.pair.warm then s.emit (.response rOk (bytesOfNat 4 0))
    else if !(regCountOk writes.length) then s.emit (.response rBadArg [])
    else
      let s := if s.pair.takeover.isSome then s.accErr aeHeld .b ((writes.head?.map (·.1.toNat)).getD 0) else s
      let x := writes.foldl (fun (x : State × Nat) w =>
        let (s, d) := x.1.countedWrite w.1.toNat w.2
        (s, x.2 + b1 d)) (s, 0)
      x.1.emit (.response rOk (bytesOfNat 4 x.2))) s

/-! ## The debug port -/

/-- STATUS codes of KXACC (18_integration Table 18.6). -/
def kxDone : BitVec 2 := 1
def kxError : BitVec 2 := 3

/-- A KXACC access: a PK read, or a write of the KX_DBG registers. While no hub serves, the KX_DBG registers alone answer, and every
other offset reads zero (17_setup_registers R383, R384; 14_startup R334, R336). -/
def State.kxAccess (s : State) (write : Bool) (off : Nat) (v : Word) : State × BitVec 2 × Option Word :=
  let serve := s.pair.ready && !s.pair.warm
  let err := fun (bit : Nat) => if serve then s.accErr bit .dbg off else s
  if write then
    if isDbg off then (if off = Kx.dbgCtl.off then s.dbgCtlWrite .dbg v else s, kxDone, none)
    else (err aeDbgWr, kxError, none)
  else if wideAccess off 4 then (err aeWide, kxError, none)
  else if serve then
    let (s, w) := s.portRead .dbg false off 4
    (s, kxDone, some (BitVec.ofNat 32 w))
  else (s, kxDone, some (if isDbg off then s.peekHub .dbg off else 0))

/-- KXACC_ACCESS: Update-DR with the access register in place (18_integration R404). -/
def execKxaccAccess (t : Nat) (op : BitVec 2) (off : BitVec 26) (data : Word) (s : State) : Host.Outcome State Fault Refusal :=
  onUnit t (fun s =>
    let s := { s with dbg := { s.dbg with tckAt := some s.now, ir := 0b10000#5 } }
    if op = 0 || op = 3 then s
    else
      let s := if s.pair.takeover.isSome then s.accErr aeHeld .dbg off.toNat else s
      let (s, st, v) := s.kxAccess (op == 2) off.toNat data
      { s with dbg := { s.dbg with status := st, off := off, data := v.getD s.dbg.data } }) s

end Sys2Proof.Machine
end

