-- ==== Sys2Proof/Machine/Dispatch.lean ====
section
/-!
DEFINITION. One arm per command: a direct call of its meaning.
-/

namespace Sys2Proof.Machine

def exec (i : Instr) (s : State) : Host.Outcome State Fault Refusal :=
  match i with
  | .eventLineSample t die tap lines p1 cyc => Sys2Proof.Machine.execEventLineSample t die tap lines p1 cyc s
  | .commandIssue t die tap idx => Sys2Proof.Machine.execCommandIssue t die tap idx s
  | .commandRetire t die tap idx addr stall p1 cyc => Sys2Proof.Machine.execCommandRetire t die tap idx addr stall p1 cyc s
  | .markerBeat t die tap src data p1 cyc => Sys2Proof.Machine.execMarkerBeat t die tap src data p1 cyc s
  | .rptAgeTimeout t die entry => Sys2Proof.Machine.execRptAgeTimeout t die entry s
  | .markerTimeout t die tap => Sys2Proof.Machine.execMarkerTimeout t die tap s
  | .markerQueueDrain t die slice => Sys2Proof.Machine.execMarkerQueueDrain t die slice s
  | .stallHoldRelease t die tap flow => Sys2Proof.Machine.execStallHoldRelease t die tap flow s
  | .stallHoldTimeout t die tap flow => Sys2Proof.Machine.execStallHoldTimeout t die tap flow s
  | .stallRearm t die key => Sys2Proof.Machine.execStallRearm t die key s
  | .flowEvent t die tap handle code arg p1 cyc => Sys2Proof.Machine.execFlowEvent t die tap handle code arg p1 cyc s
  | .tensorTag t die tap tid step addr len p1 cyc => Sys2Proof.Machine.execTensorTag t die tap tid step addr len p1 cyc s
  | .endTag t die tap tid step addr p1 cyc => Sys2Proof.Machine.execEndTag t die tap tid step addr p1 cyc s
  | .tensorReadComplete t die burst data => Sys2Proof.Machine.execTensorReadComplete t die burst data s
  | .tensorReadDeadline t die burst => Sys2Proof.Machine.execTensorReadDeadline t die burst s
  | .accumIdleTimeout t die wid => Sys2Proof.Machine.execAccumIdleTimeout t die wid s
  | .dieFreqChange t die => Sys2Proof.Machine.execDieFreqChange t die s
  | .curdFlushTimeout t u => Sys2Proof.Machine.execCurdFlushTimeout t u s
  | .gapFlushTimeout t u src lkind cause => Sys2Proof.Machine.execGapFlushTimeout t u src lkind cause s
  | .curdSend t die => Sys2Proof.Machine.execCurdSend t die s
  | .poolRequest t reqs => Sys2Proof.Machine.execPoolRequest t reqs s
  | .poolBufferFree t jidx => Sys2Proof.Machine.execPoolBufferFree t jidx s
  | .curdReceived t die crcOk => Sys2Proof.Machine.execCurdReceived t die crcOk s
  | .resendRequest t die => Sys2Proof.Machine.execResendRequest t die s
  | .journalTake t u => Sys2Proof.Machine.execJournalTake t u s
  | .journalWriteComplete t jidx => Sys2Proof.Machine.execJournalWriteComplete t jidx s
  | .curdDelivery t jidx => Sys2Proof.Machine.execCurdDelivery t jidx s
  | .ackReceived t die rsv first => Sys2Proof.Machine.execAckReceived t die rsv first s
  | .retireNotice t die rsv first => Sys2Proof.Machine.execRetireNotice t die rsv first s
  | .resendTimeout t die rsv first => Sys2Proof.Machine.execResendTimeout t die rsv first s
  | .peerConfirm t src => Sys2Proof.Machine.execPeerConfirm t src s
  | .mirrorUpdate t => Sys2Proof.Machine.execMirrorUpdate t s
  | .journalCheckpoint t => Sys2Proof.Machine.execJournalCheckpoint t s
  | .rebuildComplete t => Sys2Proof.Machine.execRebuildComplete t s
  | .journalEnable t port value => Sys2Proof.Machine.execJournalEnable t port value s
  | .sinkPlace t sink => Sys2Proof.Machine.execSinkPlace t sink s
  | .placementReadback t ctx ring => Sys2Proof.Machine.execPlacementReadback t ctx ring s
  | .skimWindowEnd t => Sys2Proof.Machine.execSkimWindowEnd t s
  | .skimReport t u => Sys2Proof.Machine.execSkimReport t u s
  | .skimDecision t => Sys2Proof.Machine.execSkimDecision t s
  | .fastArm t => Sys2Proof.Machine.execFastArm t s
  | .leverApply t u lever idx => Sys2Proof.Machine.execLeverApply t u lever idx s
  | .leverChangeDelivery t u => Sys2Proof.Machine.execLeverChangeDelivery t u s
  | .timeExchangeRequest t die => Sys2Proof.Machine.execTimeExchangeRequest t die s
  | .timeExchangeReply t die turn => Sys2Proof.Machine.execTimeExchangeReply t die turn s
  | .timeReplyReceived t die => Sys2Proof.Machine.execTimeReplyReceived t die s
  | .servoGroupEnd t die => Sys2Proof.Machine.execServoGroupEnd t die s
  | .holdoverTimeout t die => Sys2Proof.Machine.execHoldoverTimeout t die s
  | .tsyncPeriodic t die => Sys2Proof.Machine.execTsyncPeriodic t die s
  | .refclkLoss t => Sys2Proof.Machine.execRefclkLoss t s
  | .refclkReturn t cycles => Sys2Proof.Machine.execRefclkReturn t cycles s
  | .ftStepApply t => Sys2Proof.Machine.execFtStepApply t s
  | .ftRead t port => Sys2Proof.Machine.execFtRead t port s
  | .rtcSecRead t port => Sys2Proof.Machine.execRtcSecRead t port s
  | .rtcLoad t port value => Sys2Proof.Machine.execRtcLoad t port value s
  | .rtcLoadApply t => Sys2Proof.Machine.execRtcLoadApply t s
  | .vbatLow t => Sys2Proof.Machine.execVbatLow t s
  | .autotrimMeasure t drift strobe => Sys2Proof.Machine.execAutotrimMeasure t drift strobe s
  | .rtcSecondStrobe t => Sys2Proof.Machine.execRtcSecondStrobe t s
  | .ppsEdge t e => Sys2Proof.Machine.execPpsEdge t e s
  | .ppsWindowMiss t => Sys2Proof.Machine.execPpsWindowMiss t s
  | .timeSet t q sec => Sys2Proof.Machine.execTimeSet t q sec s
  | .timeOfDay t sec => Sys2Proof.Machine.execTimeOfDay t sec s
  | .ppsOutStart t => Sys2Proof.Machine.execPpsOutStart t s
  | .ppsOutEnd t => Sys2Proof.Machine.execPpsOutEnd t s
  | .hostAnchor t q ft sec ns bound => Sys2Proof.Machine.execHostAnchor t q ft sec ns bound s
  | .hostAnchorMsg t ft sec ns bound => Sys2Proof.Machine.execHostAnchorMsg t ft sec ns bound s
  | .counterLoRead t port die ctr => Sys2Proof.Machine.execCounterLoRead t port die ctr s
  | .counterHiRead t port die ctr => Sys2Proof.Machine.execCounterHiRead t port die ctr s
  | .counterHiWrite t port die ctr value => Sys2Proof.Machine.execCounterHiWrite t port die ctr value s
  | .counterLoWrite t port die ctr value hi => Sys2Proof.Machine.execCounterLoWrite t port die ctr value hi s
  | .periodicCapture t die => Sys2Proof.Machine.execPeriodicCapture t die s
  | .aoCapture t die => Sys2Proof.Machine.execAoCapture t die s
  | .snapCapture t die id => Sys2Proof.Machine.execSnapCapture t die id s
  | .captureWriteDone t die at_ => Sys2Proof.Machine.execCaptureWriteDone t die at_ s
  | .snapshot t q tq => Sys2Proof.Machine.execSnapshot t q tq s
  | .snapshotMsg t tq => Sys2Proof.Machine.execSnapshotMsg t tq s
  | .snapRecordAdmit t id => Sys2Proof.Machine.execSnapRecordAdmit t id s
  | .bwWindowClose t die sl => Sys2Proof.Machine.execBwWindowClose t die sl s
  | .sequencerTransition t die => Sys2Proof.Machine.execSequencerTransition t die s
  | .seqTimerExpiry t die => Sys2Proof.Machine.execSeqTimerExpiry t die s
  | .meshEvent t slot => Sys2Proof.Machine.execMeshEvent t slot s
  | .meshParityError t leg => Sys2Proof.Machine.execMeshParityError t leg s
  | .trigger t q lines => Sys2Proof.Machine.execTrigger t q lines s
  | .triggerMsg t lines => Sys2Proof.Machine.execTriggerMsg t lines s
  | .trigInEdge t pin level => Sys2Proof.Machine.execTrigInEdge t pin level s
  | .trigOutPulseEnd t pin => Sys2Proof.Machine.execTrigOutPulseEnd t pin s
  | .pinFunctionSwitch t pin level => Sys2Proof.Machine.execPinFunctionSwitch t pin level s
  | .holdChange t chanB level => Sys2Proof.Machine.execHoldChange t chanB level s
  | .holdWindowExpiry t => Sys2Proof.Machine.execHoldWindowExpiry t s
  | .holdUnlock t => Sys2Proof.Machine.execHoldUnlock t s
  | .progressSend t die => Sys2Proof.Machine.execProgressSend t die s
  | .progressReceive t die => Sys2Proof.Machine.execProgressReceive t die s
  | .silentTimeout t die => Sys2Proof.Machine.execSilentTimeout t die s
  | .ledgerIngest t => Sys2Proof.Machine.execLedgerIngest t s
  | .eventRelease t => Sys2Proof.Machine.execEventRelease t s
  | .flowEvict t => Sys2Proof.Machine.execFlowEvict t s
  | .ledgerCatchupDone t => Sys2Proof.Machine.execLedgerCatchupDone t s
  | .ledgerEnable t port value => Sys2Proof.Machine.execLedgerEnable t port value s
  | .ledgerDisable t port value => Sys2Proof.Machine.execLedgerDisable t port value s
  | .watchArm t q a => Sys2Proof.Machine.execWatchArm t q a s
  | .watchRemove t q wid => Sys2Proof.Machine.execWatchRemove t q wid s
  | .watchEffect t wid => Sys2Proof.Machine.execWatchEffect t wid s
  | .watchRetire t wid => Sys2Proof.Machine.execWatchRetire t wid s
  | .exclLock t port value => Sys2Proof.Machine.execExclLock t port value s
  | .tensorWatchEnable t port value => Sys2Proof.Machine.execTensorWatchEnable t port value s
  | .churnEnable t port value => Sys2Proof.Machine.execChurnEnable t port value s
  | .churnIngest t => Sys2Proof.Machine.execChurnIngest t s
  | .churnWindowClose t => Sys2Proof.Machine.execChurnWindowClose t s
  | .sketchPartial t die sl => Sys2Proof.Machine.execSketchPartial t die sl s
  | .partialTimeout t dfn => Sys2Proof.Machine.execPartialTimeout t dfn s
  | .detectorWindowClose t det => Sys2Proof.Machine.execDetectorWindowClose t det s
  | .exploadWindowBegin t => Sys2Proof.Machine.execExploadWindowBegin t s
  | .exploadWindowClose t => Sys2Proof.Machine.execExploadWindowClose t s
  | .query t q a => Sys2Proof.Machine.execQuery t q a s
  | .queryAnswer t id => Sys2Proof.Machine.execQueryAnswer t id s
  | .queryWaitTimeout t id => Sys2Proof.Machine.execQueryWaitTimeout t id s
  | .nop t q => Sys2Proof.Machine.execNop t q s
  | .abort t q target => Sys2Proof.Machine.execAbort t q target s
  | .subscribe t q ring a => Sys2Proof.Machine.execSubscribe t q ring a s
  | .unsubscribe t q ring => Sys2Proof.Machine.execUnsubscribe t q ring s
  | .ctxOpen t q a => Sys2Proof.Machine.execCtxOpen t q a s
  | .ctxModify t q a => Sys2Proof.Machine.execCtxModify t q a s
  | .ctxClose t q ctx => Sys2Proof.Machine.execCtxClose t q ctx s
  | .dbCmd t port tee ctx value => Sys2Proof.Machine.execDbCmd t port tee ctx value s
  | .dbCpl t port tee ctx value => Sys2Proof.Machine.execDbCpl t port tee ctx value s
  | .dbRec t port tee ctx ring value => Sys2Proof.Machine.execDbRec t port tee ctx ring value s
  | .descriptorFetch t ctx words => Sys2Proof.Machine.execDescriptorFetch t ctx words s
  | .logWriteComplete t ctx seq mem => Sys2Proof.Machine.execLogWriteComplete t ctx seq mem s
  | .completionSignalTimeout t ctx => Sys2Proof.Machine.execCompletionSignalTimeout t ctx s
  | .hostReadError t ctx fetch => Sys2Proof.Machine.execHostReadError t ctx fetch s
  | .contextRun t port tee ctx => Sys2Proof.Machine.execContextRun t port tee ctx s
  | .contextStop t port tee ctx => Sys2Proof.Machine.execContextStop t port tee ctx s
  | .commandLogEnable t port value => Sys2Proof.Machine.execCommandLogEnable t port value s
  | .msixUnmask t vec => Sys2Proof.Machine.execMsixUnmask t vec s
  | .semRequest t port value => Sys2Proof.Machine.execSemRequest t port value s
  | .semRelease t port value => Sys2Proof.Machine.execSemRelease t port value s
  | .leaseExpiry t => Sys2Proof.Machine.execLeaseExpiry t s
  | .rwpWrite t port off width be value => Sys2Proof.Machine.execRwpWrite t port off width be value s
  | .autocommitWrite t port off value => Sys2Proof.Machine.execAutocommitWrite t port off value s
  | .registerWrite t port tee off width be value => Sys2Proof.Machine.execRegisterWrite t port tee off width be value s
  | .planBegin t q ms => Sys2Proof.Machine.execPlanBegin t q ms s
  | .planStage t q inline_ list => Sys2Proof.Machine.execPlanStage t q inline_ list s
  | .planCommit t q at_ => Sys2Proof.Machine.execPlanCommit t q at_ s
  | .planRollback t q force => Sys2Proof.Machine.execPlanRollback t q force s
  | .opBegin t port => Sys2Proof.Machine.execOpBegin t port s
  | .opCommit t port => Sys2Proof.Machine.execOpCommit t port s
  | .opRollback t port force => Sys2Proof.Machine.execOpRollback t port force s
  | .prepareReceived t die => Sys2Proof.Machine.execPrepareReceived t die s
  | .readyReceived t die crc => Sys2Proof.Machine.execReadyReceived t die crc s
  | .commitGo t => Sys2Proof.Machine.execCommitGo t s
  | .goReceived t die => Sys2Proof.Machine.execGoReceived t die s
  | .stationSwap t die => Sys2Proof.Machine.execStationSwap t die s
  | .commitCheck t => Sys2Proof.Machine.execCommitCheck t s
  | .rollbackBoundary t => Sys2Proof.Machine.execRollbackBoundary t s
  | .regRead t off count => Sys2Proof.Machine.execRegRead t off count s
  | .regWrite t writes => Sys2Proof.Machine.execRegWrite t writes s
  | .sramRead t addr len => Sys2Proof.Machine.execSramRead t addr len s
  | .sramWrite t addr data => Sys2Proof.Machine.execSramWrite t addr data s
  | .doorbell t ctx sel value => Sys2Proof.Machine.execDoorbell t ctx sel value s
  | .setNotify t dest enable => Sys2Proof.Machine.execSetNotify t dest enable s
  | .noticeResend t src => Sys2Proof.Machine.execNoticeResend t src s
  | .mctpControl t cmd data => Sys2Proof.Machine.execMctpControl t cmd data s
  | .mbxPost t port mbx value dmwr => Sys2Proof.Machine.execMbxPost t port mbx value dmwr s
  | .mbxAck t port mbx value => Sys2Proof.Machine.execMbxAck t port mbx value s
  | .mbxAckqRead t port mbx => Sys2Proof.Machine.execMbxAckqRead t port mbx s
  | .ping t mbx => Sys2Proof.Machine.execPing t mbx s
  | .fwInfo t mbx ok => Sys2Proof.Machine.execFwInfo t mbx ok s
  | .fwStage t mbx mem last => Sys2Proof.Machine.execFwStage t mbx mem last s
  | .fwActivate t mbx => Sys2Proof.Machine.execFwActivate t mbx s
  | .diagRun t mbx => Sys2Proof.Machine.execDiagRun t mbx s
  | .oasisDump t mbx ok => Sys2Proof.Machine.execOasisDump t mbx ok s
  | .console t mbx arg rest text => Sys2Proof.Machine.execConsole t mbx arg rest text s
  | .keyRegister t q addr point => Sys2Proof.Machine.execKeyRegister t q addr point s
  | .keyRevoke t q keyId => Sys2Proof.Machine.execKeyRevoke t q keyId s
  | .sealPubkey t q buf ok => Sys2Proof.Machine.execSealPubkey t q buf ok s
  | .disclose t q buf len ok => Sys2Proof.Machine.execDisclose t q buf len ok s
  | .tenantAttach t q tenant => Sys2Proof.Machine.execTenantAttach t q tenant s
  | .tenantDetach t q => Sys2Proof.Machine.execTenantDetach t q s
  | .tenantChangeSignal t => Sys2Proof.Machine.execTenantChangeSignal t s
  | .scrubStep t => Sys2Proof.Machine.execScrubStep t s
  | .sealOpComplete t ok => Sys2Proof.Machine.execSealOpComplete t ok s
  | .sealPeriod t => Sys2Proof.Machine.execSealPeriod t s
  | .syncPortTrained t port peer delay => Sys2Proof.Machine.execSyncPortTrained t port peer delay s
  | .nodeTimeExchange t port parent probes => Sys2Proof.Machine.execNodeTimeExchange t port parent probes s
  | .nodeProbe t port => Sys2Proof.Machine.execNodeProbe t port s
  | .nodeStepOrder t dev offh join => Sys2Proof.Machine.execNodeStepOrder t dev offh join s
  | .trigBlockReceived t port origin line serial ctrl => Sys2Proof.Machine.execTrigBlockReceived t port origin line serial ctrl s
  | .syncReplayRequest t port seq => Sys2Proof.Machine.execSyncReplayRequest t port seq s
  | .beaconSend t => Sys2Proof.Machine.execBeaconSend t s
  | .beaconReceived t port b => Sys2Proof.Machine.execBeaconReceived t port b s
  | .beaconTimeout t dev => Sys2Proof.Machine.execBeaconTimeout t dev s
  | .headClaim t port value => Sys2Proof.Machine.execHeadClaim t port value s
  | .nodeProgress t => Sys2Proof.Machine.execNodeProgress t s
  | .recFrameReceived t dev x => Sys2Proof.Machine.execRecFrameReceived t dev x s
  | .nodePlace t => Sys2Proof.Machine.execNodePlace t s
  | .nodeAckReceived t jidx => Sys2Proof.Machine.execNodeAckReceived t jidx s
  | .boundaryReport t dev kind epoch => Sys2Proof.Machine.execBoundaryReport t dev kind epoch s
  | .nodeSnapshot t port => Sys2Proof.Machine.execNodeSnapshot t port s
  | .nodeCommit t port parts busy => Sys2Proof.Machine.execNodeCommit t port parts busy s
  | .nodeGoDecision t => Sys2Proof.Machine.execNodeGoDecision t s
  | .nodeReportDeadline t ok => Sys2Proof.Machine.execNodeReportDeadline t ok s
  | .nodeRollback t => Sys2Proof.Machine.execNodeRollback t s
  | .nodeQueryTimeout t id => Sys2Proof.Machine.execNodeQueryTimeout t id s
  | .coldReset t verA verB prevOk => Sys2Proof.Machine.execColdReset t verA verB prevOk s
  | .rstN t => Sys2Proof.Machine.execRstN t s
  | .warmrst t port => Sys2Proof.Machine.execWarmrst t port s
  | .hubPairResume t verA verB prevOk => Sys2Proof.Machine.execHubPairResume t verA verB prevOk s
  | .stationResetEntry t die => Sys2Proof.Machine.execStationResetEntry t die s
  | .stationResetExit t die => Sys2Proof.Machine.execStationResetExit t die s
  | .stationReload t die => Sys2Proof.Machine.execStationReload t die s
  | .portAReset t => Sys2Proof.Machine.execPortAReset t s
  | .portBReset t => Sys2Proof.Machine.execPortBReset t s
  | .jobRestartSignal t => Sys2Proof.Machine.execJobRestartSignal t s
  | .jobRestartBoundary t => Sys2Proof.Machine.execJobRestartBoundary t s
  | .heartbeatTimeout t => Sys2Proof.Machine.execHeartbeatTimeout t s
  | .hubSelfFault t cause => Sys2Proof.Machine.execHubSelfFault t cause s
  | .switch t port => Sys2Proof.Machine.execSwitch t port s
  | .fenceConfirm t => Sys2Proof.Machine.execFenceConfirm t s
  | .fenceTimeout t => Sys2Proof.Machine.execFenceTimeout t s
  | .hubRejoin t => Sys2Proof.Machine.execHubRejoin t s
  | .serviceCoreFault t core cause mcause mepc => Sys2Proof.Machine.execServiceCoreFault t core cause mcause mepc s
  | .coreHalt t port value => Sys2Proof.Machine.execCoreHalt t port value s
  | .channelError t chan => Sys2Proof.Machine.execChannelError t chan s
  | .channelRetryResult t chan ok => Sys2Proof.Machine.execChannelRetryResult t chan ok s
  | .channelWindowClose t chan => Sys2Proof.Machine.execChannelWindowClose t chan s
  | .channelRestore t port => Sys2Proof.Machine.execChannelRestore t port s
  | .channelRestoreDone t chan ok => Sys2Proof.Machine.execChannelRestoreDone t chan ok s
  | .channelRetire t port => Sys2Proof.Machine.execChannelRetire t port s
  | .sramUncorr t sram idx addr => Sys2Proof.Machine.execSramUncorr t sram idx addr s
  | .oasisClear t port value => Sys2Proof.Machine.execOasisClear t port value s
  | .powerLoss t => Sys2Proof.Machine.execPowerLoss t s
  | .streamStart t port str value => Sys2Proof.Machine.execStreamStart t port str value s
  | .streamEnd t port str value => Sys2Proof.Machine.execStreamEnd t port str value s
  | .caravanSend t str => Sys2Proof.Machine.execCaravanSend t str s
  | .caravanAck t str session cum cumJ window bitmap => Sys2Proof.Machine.execCaravanAck t str session cum cumJ window bitmap s
  | .retransmitTimeout t str csn => Sys2Proof.Machine.execRetransmitTimeout t str csn s
  | .streamStall t str => Sys2Proof.Machine.execStreamStall t str s
  | .egressFrameRx t f => Sys2Proof.Machine.execEgressFrameRx t f s
  | .neighborSolicitation t target => Sys2Proof.Machine.execNeighborSolicitation t target s
  | .subportUp t sub => Sys2Proof.Machine.execSubportUp t sub s
  | .portRestart t => Sys2Proof.Machine.execPortRestart t s
  | .grayEnable t port value => Sys2Proof.Machine.execGrayEnable t port value s
  | .grayDisable t port value => Sys2Proof.Machine.execGrayDisable t port value s
  | .grayPlace t => Sys2Proof.Machine.execGrayPlace t s
  | .grayRptrWrite t port value => Sys2Proof.Machine.execGrayRptrWrite t port value s
  | .kxaccAccess t op off data => Sys2Proof.Machine.execKxaccAccess t op off data s
  | .trigPpsEdge t raw => Sys2Proof.Machine.execTrigPpsEdge t raw s
  | .portAFatalError t => Sys2Proof.Machine.execPortAFatalError t s
  | .rollbackReceived t die => Sys2Proof.Machine.execRollbackReceived t die s
  | .snapshotCommandReceived t die id => Sys2Proof.Machine.execSnapshotCommandReceived t die id s
  | .syncLinkLoss t port => Sys2Proof.Machine.execSyncLinkLoss t port s
  | .egressLinkDown t sub => Sys2Proof.Machine.execEgressLinkDown t sub s
  | .standbyHubLoss t => Sys2Proof.Machine.execStandbyHubLoss t s
  | .porstNAssert t => Sys2Proof.Machine.execPorstNAssert t s
  | .vbatPowerOn t => Sys2Proof.Machine.execVbatPowerOn t s
  | .retentionSupplyLoss t => Sys2Proof.Machine.execRetentionSupplyLoss t s
  | .tdiStateChange t st => Sys2Proof.Machine.execTdiStateChange t st s
  | .noticeResponse t src => Sys2Proof.Machine.execNoticeResponse t src s
  | .sketchStreamBoundary t die sl => Sys2Proof.Machine.execSketchStreamBoundary t die sl s
  | .nodePrepareReceived t at_ => Sys2Proof.Machine.execNodePrepareReceived t at_ s
  | .nodeReadyReceived t dev => Sys2Proof.Machine.execNodeReadyReceived t dev s
  | .nodeGoReceived t go => Sys2Proof.Machine.execNodeGoReceived t go s
  | .nodeSwapReportReceived t dev kind => Sys2Proof.Machine.execNodeSwapReportReceived t dev kind s
  | .nodeSnapshotReceived t at_ id => Sys2Proof.Machine.execNodeSnapshotReceived t at_ id s
  | .nodeQueryReceived t dev a => Sys2Proof.Machine.execNodeQueryReceived t dev a s
  | .nodeQueryAnswerReceived t id dev ans => Sys2Proof.Machine.execNodeQueryAnswerReceived t id dev ans s
  | .nodeProgressReceived t dev wm => Sys2Proof.Machine.execNodeProgressReceived t dev wm s
  | .nodeStepReceived t at_ ticks => Sys2Proof.Machine.execNodeStepReceived t at_ ticks s

end Sys2Proof.Machine
end

