-- ==== Sys2Proof/WellFormed.lean ====
section
/-!
DEFINITION. Which terms of `Instr` a sender can form, beyond what the operand types already say (log entry 2).
-/

namespace Sys2Proof

/-- A descriptor command comes from one of the 4096 contexts and carries a 64-bit SEQ (10_contexts R230, Table 10.6). -/
def qOk (q : CmdRef) : Bool := decide (q.ctx < 4096 ∧ q.seq < 2 ^ 64)

/-- A fetch returns one descriptor of 8 words or a pair of 16 (10_contexts R236). -/
def wordsOk (ws : List (BitVec 64)) : Bool := decide (ws.length = 8 ∨ ws.length = 16)

/-- A PLAN_STAGE list holds at most 65,535 writes (11_management R268). -/
def listOk (l : Option (List (Word × Word))) : Bool :=
  match l with
  | none => true
  | some ws => decide (ws.length ≤ 65535)

/-- A query names at most 8 quantile ranks (09_churn Table 9.11). -/
def itemOk : NodeItem → Bool
  | .curd _ c => decide (c.unit < 48)
  | .lapped first last => decide (first ≤ last)
def queryOk (a : QueryArgs) : Bool := decide (a.qs.length ≤ 8)

/-- A memory write carries at least one byte and a byte enable for none beyond its bytes (17_setup_registers R381). -/
def laneOk (width : Nat) (be : BitVec 8) : Bool := decide (1 ≤ width ∧ be.toNat < 2 ^ width)

/-- A beacon's devices and hops lie in a node of at most 64 devices (13_node R310, R315). -/
def beaconOk (b : Beacon) : Bool :=
  decide (b.dev < 64) && decide (b.claimDev < 64) && decide (b.hops < 64) && decide (b.head.getD 0 < 64)

/-- A sink is one of 4096 contexts' 8 rings, one of 16 streams, or a sink of the hub (06_admission R145). -/
def sinkOk (k : Sink) : Bool :=
  match k with
  | .ring c n => decide (c < 4096 ∧ n < 8)
  | .stream n => decide (n < 16)
  | .node => true
  | .gray => true
  | .ledger => true
  | .churn => true

/-- Well-formed commands. -/
def Instr.wf (i : Instr) : Bool :=
  match i with
  | .eventLineSample _ _ _ _ _ _ => true
  | .commandIssue _ _ _ _ => true
  | .commandRetire _ _ _ _ _ _ _ _ => true
  | .markerBeat _ _ _ _ _ _ _ => true
  | .rptAgeTimeout _ _ _ => true
  | .markerTimeout _ _ _ => true
  | .markerQueueDrain _ _ _ => true
  | .stallHoldRelease _ _ _ _ => true
  | .stallHoldTimeout _ _ _ _ => true
  | .stallRearm _ _ _ => true
  | .flowEvent _ _ _ _ _ _ _ _ => true
  | .tensorTag _ _ _ _ _ _ _ _ _ => true
  | .endTag _ _ _ _ _ _ _ _ => true
  | .tensorReadComplete _ _ _ data => decide (data.length < 65536)
  | .tensorReadDeadline _ _ _ => true
  | .accumIdleTimeout _ _ _ => true
  | .dieFreqChange _ _ => true
  | .curdFlushTimeout _ _ => true
  | .gapFlushTimeout _ _ _ _ _ => true
  | .curdSend _ _ => true
  | .poolRequest _ reqs => decide reqs.Nodup
  | .poolBufferFree _ _ => true
  | .curdReceived _ _ _ => true
  | .resendRequest _ _ => true
  | .journalTake _ _ => true
  | .journalWriteComplete _ _ => true
  | .curdDelivery _ _ => true
  | .ackReceived _ _ _ _ => true
  | .retireNotice _ _ _ _ => true
  | .resendTimeout _ _ _ _ => true
  | .peerConfirm _ _ => true
  | .mirrorUpdate _ => true
  | .journalCheckpoint _ => true
  | .rebuildComplete _ => true
  | .journalEnable _ _ _ => true
  | .sinkPlace _ sink => sinkOk sink
  | .placementReadback _ _ _ => true
  | .skimWindowEnd _ => true
  | .skimReport _ _ => true
  | .skimDecision _ => true
  | .fastArm _ => true
  | .leverApply _ _ _ _ => true
  | .leverChangeDelivery _ _ => true
  | .timeExchangeRequest _ _ => true
  | .timeExchangeReply _ _ _ => true
  | .timeReplyReceived _ _ => true
  | .servoGroupEnd _ _ => true
  | .holdoverTimeout _ _ => true
  | .tsyncPeriodic _ _ => true
  | .refclkLoss _ => true
  | .refclkReturn _ _ => true
  | .ftStepApply _ => true
  | .ftRead _ _ => true
  | .rtcSecRead _ _ => true
  | .rtcLoad _ _ _ => true
  | .rtcLoadApply _ => true
  | .vbatLow _ => true
  | .autotrimMeasure _ _ _ => true
  | .rtcSecondStrobe _ => true
  | .ppsEdge _ _ => true
  | .ppsWindowMiss _ => true
  | .timeSet _ q _ => qOk q
  | .timeOfDay _ _ => true
  | .ppsOutStart _ => true
  | .ppsOutEnd _ => true
  | .hostAnchor _ q _ _ _ _ => qOk q
  | .hostAnchorMsg _ _ _ _ _ => true
  | .counterLoRead _ _ _ _ => true
  | .counterHiRead _ _ _ _ => true
  | .counterHiWrite _ _ _ _ _ => true
  | .counterLoWrite _ _ _ _ _ _ => true
  | .periodicCapture _ _ => true
  | .aoCapture _ _ => true
  | .snapCapture _ _ _ => true
  | .captureWriteDone _ _ _ => true
  | .snapshot _ q _ => qOk q
  | .snapshotMsg _ _ => true
  | .snapRecordAdmit _ _ => true
  | .bwWindowClose _ _ _ => true
  | .sequencerTransition _ _ => true
  | .seqTimerExpiry _ _ => true
  | .meshEvent _ _ => true
  | .meshParityError _ leg => decide (leg < 42)
  | .trigger _ q _ => qOk q
  | .triggerMsg _ _ => true
  | .trigInEdge _ _ _ => true
  | .trigOutPulseEnd _ _ => true
  | .pinFunctionSwitch _ _ _ => true
  | .holdChange _ _ _ => true
  | .holdWindowExpiry _ => true
  | .holdUnlock _ => true
  | .progressSend _ _ => true
  | .progressReceive _ _ => true
  | .silentTimeout _ _ => true
  | .ledgerIngest _ => true
  | .eventRelease _ => true
  | .flowEvict _ => true
  | .ledgerCatchupDone _ => true
  | .ledgerEnable _ _ _ => true
  | .ledgerDisable _ _ _ => true
  | .watchArm _ q _ => qOk q
  | .watchRemove _ q _ => qOk q
  | .watchEffect _ _ => true
  | .watchRetire _ _ => true
  | .exclLock _ _ _ => true
  | .tensorWatchEnable _ _ _ => true
  | .churnEnable _ _ _ => true
  | .churnIngest _ => true
  | .churnWindowClose _ => true
  | .sketchPartial _ _ _ => true
  | .partialTimeout _ _ => true
  | .detectorWindowClose _ _ => true
  | .exploadWindowBegin _ => true
  | .exploadWindowClose _ => true
  | .query _ q a => qOk q && queryOk a
  | .queryAnswer _ _ => true
  | .queryWaitTimeout _ _ => true
  | .nop _ q => qOk q
  | .abort _ q _ => qOk q
  | .subscribe _ q _ _ => qOk q
  | .unsubscribe _ q _ => qOk q
  | .ctxOpen _ q _ => qOk q
  | .ctxModify _ q _ => qOk q
  | .ctxClose _ q _ => qOk q
  | .dbCmd _ _ _ _ _ => true
  | .dbCpl _ _ _ _ _ => true
  | .dbRec _ _ _ _ _ _ => true
  | .descriptorFetch _ _ words => wordsOk words
  | .logWriteComplete _ _ seq _ => decide (seq < 2 ^ 64)
  | .completionSignalTimeout _ _ => true
  | .hostReadError _ _ _ => true
  | .contextRun _ _ _ _ => true
  | .contextStop _ _ _ _ => true
  | .commandLogEnable _ _ _ => true
  | .msixUnmask _ _ => true
  | .semRequest _ _ _ => true
  | .semRelease _ _ _ => true
  | .leaseExpiry _ => true
  | .rwpWrite _ _ _ width be _ => laneOk width be
  | .autocommitWrite _ _ _ _ => true
  | .registerWrite _ _ _ _ width be _ => laneOk width be
  | .planBegin _ q _ => qOk q
  | .planStage _ q inline_ list => qOk q && decide (inline_.length ≤ 4) && listOk list
  | .planCommit _ q _ => qOk q
  | .planRollback _ q _ => qOk q
  | .opBegin _ _ => true
  | .opCommit _ _ => true
  | .opRollback _ _ _ => true
  | .prepareReceived _ _ => true
  | .readyReceived _ _ _ => true
  | .commitGo _ => true
  | .goReceived _ _ => true
  | .stationSwap _ _ => true
  | .commitCheck _ => true
  | .rollbackBoundary _ => true
  | .regRead _ _ _ => true
  | .regWrite _ _ => true
  | .sramRead _ _ _ => true
  | .sramWrite _ _ _ => true
  | .doorbell _ _ _ _ => true
  | .setNotify _ _ _ => true
  | .noticeResend _ _ => true
  | .mctpControl _ _ _ => true
  | .mbxPost _ _ _ _ _ => true
  | .mbxAck _ _ _ _ => true
  | .mbxAckqRead _ _ _ => true
  | .ping _ _ => true
  | .fwInfo _ _ _ => true
  | .fwStage _ _ _ _ => true
  | .fwActivate _ _ => true
  | .diagRun _ _ => true
  | .oasisDump _ _ _ => true
  | .console _ _ _ _ _ => true
  | .keyRegister _ q _ _ => qOk q
  | .keyRevoke _ q _ => qOk q
  | .sealPubkey _ q _ _ => qOk q
  | .disclose _ q _ _ _ => qOk q
  | .tenantAttach _ q _ => qOk q
  | .tenantDetach _ q => qOk q
  | .tenantChangeSignal _ => true
  | .scrubStep _ => true
  | .sealOpComplete _ _ => true
  | .sealPeriod _ => true
  | .syncPortTrained _ _ _ _ => true
  | .nodeTimeExchange _ _ _ l => decide (l.length ≤ 8)
  | .nodeProbe _ _ => true
  | .nodeStepOrder _ _ _ _ => true
  | .trigBlockReceived _ _ _ _ _ _ => true
  | .syncReplayRequest _ _ _ => true
  | .beaconSend _ => true
  | .beaconReceived _ _ b => beaconOk b
  | .beaconTimeout _ _ => true
  | .headClaim _ _ _ => true
  | .nodeProgress _ => true
  | .recFrameReceived _ _ x => itemOk x
  | .nodePlace _ => true
  | .nodeAckReceived _ _ => true
  | .boundaryReport _ _ _ _ => true
  | .nodeSnapshot _ _ => true
  | .nodeCommit _ _ _ _ => true
  | .nodeGoDecision _ => true
  | .nodeReportDeadline _ _ => true
  | .nodeRollback _ => true
  | .nodeQueryTimeout _ _ => true
  | .coldReset _ _ _ _ => true
  | .rstN _ => true
  | .warmrst _ _ => true
  | .hubPairResume _ _ _ _ => true
  | .stationResetEntry _ _ => true
  | .stationResetExit _ _ => true
  | .stationReload _ _ => true
  | .portAReset _ => true
  | .portBReset _ => true
  | .jobRestartSignal _ => true
  | .jobRestartBoundary _ => true
  | .heartbeatTimeout _ => true
  | .hubSelfFault _ _ => true
  | .switch _ _ => true
  | .fenceConfirm _ => true
  | .fenceTimeout _ => true
  | .hubRejoin _ => true
  | .serviceCoreFault _ _ _ _ _ => true
  | .coreHalt _ _ _ => true
  | .channelError _ _ => true
  | .channelRetryResult _ _ _ => true
  | .channelWindowClose _ _ => true
  | .channelRestore _ _ => true
  | .channelRestoreDone _ _ _ => true
  | .channelRetire _ _ => true
  | .sramUncorr _ _ _ _ => true
  | .oasisClear _ _ _ => true
  | .powerLoss _ => true
  | .streamStart _ _ _ _ => true
  | .streamEnd _ _ _ _ => true
  | .caravanSend _ _ => true
  | .caravanAck _ _ _ _ _ _ _ => true
  | .retransmitTimeout _ _ _ => true
  | .streamStall _ _ => true
  | .egressFrameRx _ _ => true
  | .neighborSolicitation _ _ => true
  | .subportUp _ _ => true
  | .portRestart _ => true
  | .grayEnable _ _ _ => true
  | .grayDisable _ _ _ => true
  | .grayPlace _ => true
  | .grayRptrWrite _ _ _ => true
  | .kxaccAccess _ _ off _ => decide (off.toNat % 4 = 0)
  | .trigPpsEdge _ _ => true
  | .portAFatalError _ => true
  | .rollbackReceived _ _ => true
  | .snapshotCommandReceived _ _ _ => true
  | .syncLinkLoss _ _ => true
  | .egressLinkDown _ _ => true
  | .standbyHubLoss _ => true
  | .porstNAssert _ => true
  | .vbatPowerOn _ => true
  | .retentionSupplyLoss _ => true
  | .tdiStateChange _ _ => true
  | .noticeResponse _ _ => true
  | .sketchStreamBoundary _ _ _ => true
  | .nodePrepareReceived _ _ => true
  | .nodeReadyReceived _ _ => true
  | .nodeGoReceived _ _ => true
  | .nodeSwapReportReceived _ _ _ => true
  | .nodeSnapshotReceived _ _ _ => true
  | .nodeQueryReceived _ _ a => queryOk a
  | .nodeQueryAnswerReceived _ _ _ _ => true
  | .nodeProgressReceived _ _ _ => true
  | .nodeStepReceived _ _ _ => true

end Sys2Proof
end

