-- ==== Sys2Proof/Safety.lean ====
section
/-!
DEFINITION. What counts as a sound state and a sound run, in the terms the statements use: what a command leaves, that it completes,
and the conditions under which a record or a completion is formed at once.
-/

namespace Sys2Proof.Safety

open Sys2Proof.Machine

/-! ## Sound states -/

/-- Every listed byte of the hub SRAM lies inside it (01_unit_anatomy Table 1.3). -/
def sramInside (s : State) : Prop := ∀ c ∈ s.sram, c.1 < sramSize

/-- The state between two commands: the SRAM is in its canonical form and inside its bounds, and no SRAM write of a command
is left over. -/
structure Sound (s : State) : Prop where
  canonical : Memory.wf s.sram = true
  inside : sramInside s
  settled : s.sramW = []

/-! ## Runs -/

/-- The command is carried out, and the state it leaves satisfies `P`. -/
def Completes (i : Instr) (s : State) (P : State → Prop) : Prop := ∃ r, exec i s = .next r ∧ P r

/-! ## Frames -/

/-- The parts of the state: one for each field of State. -/
inductive Part where
  | pending | clk | regs | sram | stns | srcs | jrn | subs | oasisA | oasisB | skim | wm | progs | led | watches | capIds | chnCkpt
  | churn | ctxs | lease | plan | mbxs | portB | fw | sec | node | chans | egr | gray | pins | hold | mesh | snaps | snapId | pair
  | mirror | integ | msix | dbg | latches | out | free | taps | hw | sramW
  deriving DecidableEq, Repr

/-- A part is the same in two states. -/
def Part.same (s r : State) : Part → Prop
  | .pending => r.pending = s.pending | .clk => r.clk = s.clk | .regs => r.regs = s.regs | .sram => r.sram = s.sram
  | .stns => r.stns = s.stns | .srcs => r.srcs = s.srcs | .jrn => r.jrn = s.jrn | .subs => r.subs = s.subs
  | .oasisA => r.oasisA = s.oasisA | .oasisB => r.oasisB = s.oasisB | .skim => r.skim = s.skim | .wm => r.wm = s.wm
  | .progs => r.progs = s.progs | .led => r.led = s.led | .watches => r.watches = s.watches | .capIds => r.capIds = s.capIds
  | .chnCkpt => r.chnCkpt = s.chnCkpt | .churn => r.churn = s.churn | .ctxs => r.ctxs = s.ctxs | .lease => r.lease = s.lease
  | .plan => r.plan = s.plan | .mbxs => r.mbxs = s.mbxs | .portB => r.portB = s.portB | .fw => r.fw = s.fw | .sec => r.sec = s.sec
  | .node => r.node = s.node | .chans => r.chans = s.chans | .egr => r.egr = s.egr | .gray => r.gray = s.gray
  | .pins => r.pins = s.pins | .hold => r.hold = s.hold | .mesh => r.mesh = s.mesh | .snaps => r.snaps = s.snaps
  | .snapId => r.snapId = s.snapId | .pair => r.pair = s.pair | .mirror => r.mirror = s.mirror | .integ => r.integ = s.integ
  | .msix => r.msix = s.msix | .dbg => r.dbg = s.dbg | .latches => r.latches = s.latches | .out => r.out = s.out
  | .free => r.free = s.free | .taps => r.taps = s.taps | .hw => r.hw = s.hw | .sramW => r.sramW = s.sramW

/-- Only the listed parts differ. -/
def Only (ps : List Part) (s r : State) : Prop := ∀ p : Part, p ∉ ps → p.same s r

/-- The sticky wrap bits of a station's counters (03_counters Table 3.9): its always-on counters count on at every command to it. -/
def covf (die : Fin 40) : List Nat := (List.range 10).map fun k => (Kx.stnCovf die k).off

/-- The frame of a command at the instant t: wherever it is carried out, time runs to t, and then only the parts `ps`, the registers
`regs` and the stations `dies` may change, every register where `ps` lists `.regs` and every station where it lists `.stns`. A register
that stays has seen no update in this cycle either (`hw`, 00_scope R12). -/
def Frame (t : Nat) (ps : List Part) (regs dies : List Nat) (i : Instr) : Prop :=
  ∀ s r : State, s.sramW = [] → exec i s = .next r →
    Only (.regs :: .stns :: .hw :: ps) (s.advance t) r ∧
      (∀ off, .regs ∈ ps ∨ off ∈ regs ∨ sget r.regs off = sget s.regs off ∧ sget r.hw off = sget (s.advance t).hw off) ∧
      (∀ n, .stns ∈ ps ∨ n ∈ dies ∨ r.stn n = s.stn n)

/-! ## Records -/

/-- Station n admits a record at once, into a curd that the record opens: it offers records, no pacer holds it, no curd is open, a
slot of its buffer is free, and no loss waits to be counted (01_unit_anatomy R20-R23). -/
def clear (s : State) (n : Nat) : Bool :=
  let st := s.stn n
  st.offering && !st.pace.on && st.cur.isNone && st.gaps.isEmpty && decide (0 < freeSlots st)

/-- Nothing of station n's configuration looks at an observation of its taps: no counter, comparator or sequencer is enabled
(03_counters, 04_markers). -/
def quiet (s : State) (n : Nat) : Bool :=
  (s.counters n).isEmpty && (s.comparators n).isEmpty && !(s.rb (Kx.stnSeqCfg n) 31)

/-- Nothing but the event of the command acts on station n at this edge: none has been presented on it before, no TIME increment is open,
no capture is due, and no CNT or LASTC record is left to admit (03_counters R67, R73, 08_tensor R201, log entry 48). -/
def alone (s : State) (n : Nat) : Bool :=
  let st := s.stn n
  (s.window n).isNone && st.pend.isEmpty && (s.captureNext n).isNone && st.banks.all (·.recs.isEmpty) && st.accs.all fun a => !a.lastDue

/-- A record of a hub internal source waits for the standby's confirmation (06_admission R138). -/
def waits (s : State) : Bool := s.jrnOn && s.pair.stbyOk

/-- The record that station n's admission of `r` puts in its buffer (01_unit_anatomy R20). -/
def numbered (s : State) (n ft : Nat) (r : Record) : Record := { r with seq := (s.stn n).seq, ft := ft }

/-! ## Completions -/

/-- Context c posts a completion at once: it is open and runs, nothing is held, its completion ring has room, and nothing waits for the
first completion of a command (10_contexts R240, R244, R246, R247). -/
def canPost (s : State) (c : Nat) : Bool :=
  let x := s.ctx c
  x.st == csRunning && x.held.isEmpty && !(s.cplFull c) && x.log.all fun e => e.parked == 0 && e.aborts.isEmpty

/-- The completion that `post` writes. -/
def cplOf (q : CmdRef) (op res v0 v1 v2 : Nat) : Completion :=
  { seq := q.seq, op := op, result := res, v0 := v0, v1 := v1, v2 := v2, irq := q.irq }

/-- Context c has posted one more completion. -/
def posted (s r : State) (c : Nat) (x : Completion) : Prop := (r.ctx c).cpls = (s.ctx c).cpls ++ [x]

end Sys2Proof.Safety
end

