-- ==== Sys2Proof/Certificates/Slice0/Obligations.lean ====
section
/-!
DEFINITION. The statements for the provers: one definition for each, in the order of OBLIGATIONS.json. Each says in its docstring which rules of
the spec it rests on.
-/

open Sys2Proof Sys2Proof.Machine Sys2Proof.Safety

/-- A step carries out the command at the front of the queue on the state with the rest of it (log entry 1). -/
def Obligations.StepRunsFront : Prop :=
  ∀ (s : State) (i : Instr) (rest : List Instr),
    s.pending = i :: rest → step s = exec i { s with pending := rest }

/-- Every step takes one command from the queue and leaves the integration constants alone; the empty queue idles (log entry 1). -/
def Obligations.QueueKept : Prop :=
  ∀ (s r : State),
    step s = .next r → r.pending = s.pending.tail ∧ r.integ = s.integ ∧ (s.pending = [] → r = s)

/-- No command faults and none is refused, in any state (01_unit_anatomy, 17_setup_registers R381: what cannot be done is dropped and reported). -/
def Obligations.NoStepStops : Prop :=
  ∀ (s : State),
    ∃ r, step s = .next r

/-- The invariant of SoundKept holds at reset. -/
def Obligations.SoundAtReset : Prop :=
    Sound State.reset

/-- Every step keeps the hub SRAM in its canonical form and inside its bounds (10_contexts R255, 11_management R279), and leaves no write undone. -/
def Obligations.SoundKept : Prop :=
  ∀ (s r : State),
    Sound s → step s = .next r → Sound r

/-- 02_fabric_time R39: only a cold reset sets FT to zero; the resets, restarts, boundaries and takeovers it names leave it running. -/
def Obligations.TimeRunsOn : Prop :=
  ∀ (s r : State) (i : Instr) (t : Nat) (port : Port) (die : Fin 40) (a b c : Bool),
    exec i s = .next r →
      ((∀ t a b p, i ≠ .coldReset t a b p) → s.clk.now ≤ r.clk.now) ∧
      (i ∈ [.rstN t, .warmrst t port, .hubPairResume t a b c, .jobRestartBoundary t, .commitGo t, .stationSwap t die, .commitCheck t,
          .rollbackReceived t die, .rollbackBoundary t, .heartbeatTimeout t, .fenceTimeout t, .fenceConfirm t, .hubRejoin t,
          .stationResetEntry t die, .stationResetExit t die, .stationReload t die] →
        r.clk.now = (s.advance t).clk.now)

/-- Event lines, issues, retirements and frequency changes at a station whose configuration looks at nothing (03_counters R62, R67, R69,
R80; 01_unit_anatomy R33). -/
def Obligations.TapObservation : Prop :=
  ∀ (s : State) (t : Nat) (die : Fin 40) (tap : Fin 32) (idx : BitVec 32) (addr : BitVec 48) (stall : BitVec 16) (p1 : Bool)
    (lines : BitVec 64) (cyc ft0 : Nat),
    let u := s.advance t
    let key := 16 * tap.val + idx.toNat % 16
    let ao := fun (x : State) (j : Nat) => sgetD (x.stn die).ao (256 + j) 0
    let entry := (u.stn die).issue.find? fun x => x.1 == key
    u.stnOn die = true → quiet u die = true → alone u die = true → u.rb (Kx.stnPcsCfg die) 31 = false → u.rb (Kx.stnSkcfg die (u.anSlice die tap)) 31 = false →
    (u.isPortTap die tap = false →
      Completes (.eventLineSample t die tap lines p1 cyc) s fun r =>
        sgetD (r.stn die).prev tap 0 = lines ∧
          ao r 40 = (ao u 40 + b1 (lines.getLsbD 2 && (u.linfo die tap 2).getLsbD 6)) % 2 ^ 48) ∧
    Completes (.commandIssue t die tap idx) s (fun r =>
      (r.stn die).issue.filter (fun x => x.1 == key) = [(key, idx, u.stnFt die)]) ∧
    (entry = some (key, idx, ft0) →
      Completes (.commandRetire t die tap idx addr stall p1 cyc) s fun r =>
        (r.stn die).issue.find? (fun x => x.1 == key) = none ∧
          ao r (if p1 then 49 else 48) = (ao u (if p1 then 49 else 48) + 1) % 2 ^ 48) ∧
    (entry = none →
      Completes (.commandRetire t die tap idx addr stall p1 cyc) s fun r =>
        r.rf (Kx.stnPcsStat die) 15 8 = min 255 (u.rf (Kx.stnPcsStat die) 15 8 + 1) ∧
          ao r (if p1 then 49 else 48) = (ao u (if p1 then 49 else 48) + 1) % 2 ^ 48) ∧
    Completes (.dieFreqChange t die) s (fun r => ao r 59 = (ao u 59 + 1) % 2 ^ 48)

/-- Markers at a station that admits records at once (04_markers R91-R93, R97, R406; 01_unit_anatomy R20, R405). -/
def Obligations.MarkerPath : Prop :=
  ∀ (s : State) (t : Nat) (die : Fin 40) (tap : Fin 32) (src : BitVec 16) (data : BitVec 128) (p1 : Bool) (cyc i : Nat)
    (slice : Fin 8) (q : QEnt) (c : Curd) (rec : Record) (entry : Fin 64) (m : MkRef) (run : RptRun) (mk : MkIn) (key : Fin 96),
    let u := s.advance t
    let sl := u.sliceOf die tap
    let limit := clamp1 100000 (u.rf (Kx.stnMkCfg die) 19 0) * usT
    u.stnOn die = true → quiet u die = true → alone u die = true →
    (clear u die = true → u.held die tap false = none → (u.stn die).mkIn = [] → u.mkEntry die tap (src.toNat % 32) p1 = some i →
      u.rb (Kx.stnMkSrc die i) 30 = false → u.rb (Kx.stnMkSrc die i) 29 = false → u.rb (Kx.stnMkSrc die i) 28 = false →
      mkXb data = 0 → u.queueFits die sl 1 = true →
      Completes (.markerBeat t die tap src data p1 cyc) s fun r =>
        (r.stn die).cur.map (·.recs) = some [numbered u die (u.stnFt die) (markRecord (mkSrcId die tap src) p1 0)] ∧
          (r.stn die).seq = (u.stn die).seq + 1 ∧
          (r.stn die).queue = (u.stn die).queue ++ [{ slice := sl, seq := (u.stn die).seq, beats := [data], left := 0 }]) ∧
    ((u.stn die).queue = [q] → q.slice = slice.val → q.beats = [data] → q.left = 0 → (u.stn die).cur = some c → c.recs = [rec] →
      rec.seq = q.seq →
      Completes (.markerQueueDrain t die slice) s fun r =>
        (r.stn die).queue = [] ∧
          (r.stn die).cur.map (·.recs) = some [{ putBeat q.idx data rec with filled := true }]) ∧
    (clear u die = true → u.mkRef die entry = some m → m.run = some run → run.first + limit ≤ u.stnFt die →
      Completes (.rptAgeTimeout t die entry) s fun r =>
        (r.stn die).cur.map (·.recs) = some [numbered u die (u.stnFt die) (rptRecord m run rcAge)] ∧
          (r.mkRef die entry).map (·.run) = some none) ∧
    ((u.stn die).mkIn = [mk] → mk.tap = tap.val → mk.t0 + 48 ≤ u.stnFt die →
      Completes (.markerTimeout t die tap) s fun r =>
        (r.stn die).mkIn = [] ∧ r.rf (Kx.stnMkStat die) 23 16 = min 255 (u.rf (Kx.stnMkStat die) 23 16 + 1)) ∧
    Completes (.stallRearm t die key) s (fun r =>
      ∀ k : Nat, (key.val, k) ∈ (r.stn die).disarm ↔ (key.val, k) ∈ (u.stn die).disarm ∧ u.queueFits die k 4 = false)

/-- Flow events and holds at a station whose configuration looks at nothing (07_sequence_ledger R161, 04_markers R97, R98). -/
def Obligations.FlowHolds : Prop :=
  ∀ (s : State) (t : Nat) (die : Fin 40) (tap : Fin 32) (handle : BitVec 21) (code : BitVec 4) (arg : BitVec 32) (p1 flow : Bool)
    (cyc : Nat) (h : Hold),
    let u := s.advance t
    let sl := u.sliceOf die tap
    u.stnOn die = true → quiet u die = true → alone u die = true →
    (clear u die = true → u.held die tap true = none → (u.rd (Kx.stnFlEn die)).getLsbD tap = true →
      privPass (u.rf (Kx.stnFlCfg die) 1 0) p1 = true → (u.rd (Kx.stnFlStall die)).getLsbD tap = false →
      u.flowsAt die sl (u.stnFt die) = 0 →
      Completes (.flowEvent t die tap handle code arg p1 cyc) s fun r =>
        (r.stn die).cur.map (·.recs) = some [numbered u die (u.stnFt die) (flowRecord die tap handle code arg p1)] ∧
          r.flowsAt die sl (u.stnFt die) = 1) ∧
    (u.held die tap flow = some h →
      (if flow then u.flowsAt die sl (u.stnFt die) < 2 else u.queueFits die sl (1 + mkXb h.data) = true) →
      Completes (.stallHoldRelease t die tap flow) s fun r =>
        r.held die tap flow = none ∧
          sgetD (r.stn die).ao 300 0 = (sgetD (u.stn die).ao 300 0 + (u.stnFt die - h.since)) % 2 ^ 48) ∧
    (u.held die tap flow = some h → h.since + 10 * usT ≤ u.stnFt die →
      Completes (.stallHoldTimeout t die tap flow) s fun r =>
        r.held die tap flow = none ∧ ((if flow then 64 + tap.val else h.entry), sl) ∈ (r.stn die).disarm ∧
          r.rf (Kx.stnMkStat die) 15 8 = min 255 (u.rf (Kx.stnMkStat die) 15 8 + 1))

/-- Tensor tags and reads at a station with one statistics watch in effect (08_tensor R187, R191-R197). -/
def Obligations.TensorTags : Prop :=
  ∀ (s : State) (t : Nat) (die : Fin 40) (tap : Fin 32) (tid : BitVec 24) (step : BitVec 32) (addr : BitVec 48) (len : BitVec 16)
    (p1 : Bool) (cyc : Nat) (w : Fin 64) (x : Watch) (a : Accum) (b : Burst) (scale : Bool) (data : List Byte),
    let u := s.advance t
    let st := u.stn die
    let shut := fun (r : State) => (r.stn die).accs = [] ∧
      (r.stn die).cur.map (fun c => c.recs.map fun q => (q.ty, q.seq, q.filled)) = some [(.tstat, st.seq, true)]
    u.stnOn die = true → quiet u die = true → alone u die = true → u.watch w = some x → x.args.capture = false →
    x.args.values = false →
    (st.armed = [w.val] → st.accs = [] → st.bursts = [] → st.defer = false → x.args.dieMask.getLsbD die = true →
      x.args.master.getLsbD tap = true → watchTid x.args tid = some false → stepMatch x.args step = true → x.args.count = 0 →
      u.rb (Kx.stnTwCfg die) 31 = true → u.rb Kx.hubTwCfg 31 = true → u.excluded addr.toNat len.toNat = false → len ≠ 0 →
      Completes (.tensorTag t die tap tid step addr len p1 cyc) s fun r =>
        (r.stn die).accs.map (fun y => (y.id, y.wid, y.step, y.first, y.contrib)) =
            [(st.nburst, w.val, step, u.stnFt die, [(tap.val, false)])] ∧
          (r.stn die).bursts.map (fun y => (y.addr, y.len, y.at_, y.accs)) =
            [(addr.toNat, len.toNat, u.stnFt die, [(st.nburst, false)])]) ∧
    (clear u die = true → st.armed = [w.val] → st.accs = [a] → st.bursts = [] → a.wid = w.val → a.cause = none → a.step = step →
      a.recs = [] → a.lastc = none → a.contrib = [(tap.val, false)] → x.args.dieMask.getLsbD die = true → x.args.master.getLsbD tap = true →
      watchTid x.args tid = some false →
      Completes (.endTag t die tap tid step addr p1 cyc) s shut) ∧
    (clear u die = true → st.accs = [a] → st.bursts = [] → a.wid = w.val → a.cause = none → a.recs = [] → a.lastc = none →
      a.last + clampN 10 1000000 (u.rf (Kx.stnTwCfg die) 19 0) * usT ≤ u.stnFt die →
      Completes (.accumIdleTimeout t die w) s shut) ∧
    (st.accs = [a] → a.wid = w.val → a.cause = none → st.bursts = [b] → b.accs = [(a.id, scale)] → b.segs = [] →
      (b.issueAt ≤ b.at_ + usT → b.issueAt ≤ u.stnFt die →
        Completes (.tensorReadComplete t die b.id data) s fun r =>
          (r.stn die).bursts = [] ∧
            (r.stn die).accs.map (·.stats) = [a.stats.fold x.args scale ((data ++ List.replicate b.len 0).take b.len)]) ∧
      (b.at_ + usT < b.issueAt → b.at_ + usT ≤ u.stnFt die →
        Completes (.tensorReadDeadline t die b.id) s fun r =>
          (r.stn die).bursts = [] ∧ r.rf (Kx.stnTwStat0 die) 31 16 = min 65535 (u.rf (Kx.stnTwStat0 die) 31 16 + 1)))

/-- A curd and a pending loss at their station, and at a hub internal source (01_unit_anatomy R21-R23, 05_records R124, R128, 06_admission
R131, R133). -/
def Obligations.StationLink : Prop :=
  ∀ (s : State) (t : Nat) (die : Fin 40) (k : Fin 8) (un : Fin 48) (c : Curd) (g : GapAcc) (h : Held) (rsv : Bool) (first : Nat),
    let u := s.advance t
    let st := u.stn die
    let x := u.src k
    (u.stnOn die = true →
      (un.val = die.val → quiet u die = true → alone u die = true → st.cur = some c → st.rsv = none →
        st.curAt + u.flush die ≤ u.stnFt die →
        Completes (.curdFlushTimeout t un) s fun r =>
          (r.stn die).cur = none ∧ (r.stn die).closed = st.closed ++ [{ curd := u.sealHeader die c closeFlush }]) ∧
      (un.val = die.val → quiet u die = true → alone u die = true → st.gaps = [g] → st.rsv = none → st.rsvOk = true →
        g.since + u.flush die ≤ u.stnFt die →
        Completes (.gapFlushTimeout t un g.src g.lkind g.cause) s fun r =>
          (r.stn die).gaps = [] ∧ (r.stn die).rsv.map (fun c => c.recs.map fun q => (q.ty, q.seq)) = some [(.gap, st.seq)] ∧
            sgetD (r.stn die).ao 299 0 = (sgetD st.ao 299 0 + g.count) % 2 ^ 48) ∧
      (st.closed = [h] → h.st = .unsent → u.linkBusy die = false → h.curd.written = true →
        0 < sgetD u.jrn.grants die 0 → u.isolated die = false →
        Completes (.curdSend t die) s fun r =>
          (r.stn die).link = st.link ++ [(h.curd, st.reqs)] ∧
            (r.stn die).closed = [{ h with st := .sent, sentAt := u.now + sendTicks, again := true }] ∧
            sgetD r.jrn.grants die 0 + 1 = sgetD u.jrn.grants die 0) ∧
      (st.reqs < sgetD u.jrn.reqs die 0 →
        Completes (.resendRequest t die) s fun r =>
          (r.stn die).closed.all (fun y => y.st != .sent) = true ∧ (r.stn die).reqs = st.reqs + 1) ∧
      (st.closed = [h] → isCurd rsv first h = true → h.st = .sent → h.sentAt + 20 * usT ≤ u.now → h.resends < 8 →
        Completes (.resendTimeout t die rsv first) s fun r =>
          (r.stn die).closed = [{ h with st := .unsent, resends := h.resends + 1 }]) ∧
      (st.closed = [h] → isCurd rsv first h = true → u.accepted die rsv first = true →
        Completes (.ackReceived t die rsv first) s fun r => (r.stn die).closed = [{ h with st := .acked }]) ∧
      (st.closed = [h] → isCurd rsv first h = true → st.gaps = [] → st.rsvWait = [] → (die.val, rsv, first) ∈ u.jrn.retired →
        Completes (.retireNotice t die rsv first) s fun r => (r.stn die).closed = [] ∧ (die.val, rsv, first) ∉ r.jrn.retired)) ∧
    (u.hubOn = true → un.val = 40 + k.val →
      (x.cur = some c → x.curAt + u.flushMax ≤ u.now →
        Completes (.curdFlushTimeout t un) s fun r => (r.src k).cur = none) ∧
      (x.gaps = [g] → x.cur = none → x.full.length < 2 → g.since + u.flushMax ≤ u.now →
        Completes (.gapFlushTimeout t un g.src g.lkind g.cause) s fun r =>
          (r.src k).gaps = [] ∧ (r.src k).cur.map (fun c => c.recs.map fun q => (q.ty, q.seq)) = some [(.gap, x.seq)]))

/-- Reads and writes of counters by a port (03_counters R67, R70, R71; 00_scope R14). A write at an edge that begins a die cycle, and one in
a cycle whose increments so far do not wrap the counter; one of 8 bytes stages its upper half first (17_setup_registers R386). -/
def Obligations.CounterAccess : Prop :=
  ∀ (s : State) (t : Nat) (port : Port) (die : Fin 40) (ctr : Fin 320) (ctw : Fin 256) (value : Word) (hi : Option Word) (v : BitVec 16),
    let u := s.advance t
    let e := u.stnFt die
    let st := u.stn die
    let now := ((u.settleEnded die e).stn die).counter ctr
    let high := ((hi.map fun h => h.setWidth 16).getD (sgetD (st.stage port) ctw 0)).toNat
    let d := sgetD st.incs ctw 0
    u.hubOn = true → u.reach die = true →
    (port ≠ .dbg →
      Completes (.counterLoRead t port die ctr) s fun r =>
        r.out = u.out ++ [.read port (BitVec.ofNat 32 now)] ∧
          (r.stn die).latch port = some (ctr.val, BitVec.ofNat 16 (now / 2 ^ 32))) ∧
    (st.latch port = some (ctr.val, v) →
      Completes (.counterHiRead t port die ctr) s fun r =>
        r.out = u.out ++ [.read port (0x80000000 ||| v.setWidth 32)] ∧ (r.stn die).latch port = none) ∧
    (st.latch port = none →
      Completes (.counterHiRead t port die ctr) s fun r =>
        r.out = u.out ++ [.read port (BitVec.ofNat 32 (now / 2 ^ 32))]) ∧
    (u.holdsLease port = true →
      Completes (.counterHiWrite t port die ctw value) s (fun r => sgetD ((r.stn die).stage port) ctw 0 = value.setWidth 16) ∧
      (st.inAt ≠ e → (u.captureNext die).isNone = true → st.pend = [] →
        Completes (.counterLoWrite t port die ctw value hi) s fun r =>
          (r.stn die).counter ctw = high * 2 ^ 32 + value.toNat ∧ sgetD ((r.stn die).stage port) ctw 0 = 0) ∧
      (st.inAt = e → st.loads.find? (fun x => x.1 == ctw.val) = none → d ≤ st.counter ctw → st.counter ctw < 2 ^ 48 →
        Completes (.counterLoWrite t port die ctw value hi) s fun r =>
          (r.stn die).counter ctw = (high * 2 ^ 32 + value.toNat + d) % 2 ^ 48 ∧ sgetD ((r.stn die).stage port) ctw 0 = 0))

/-- Captures, snapshots and windowed bandwidth (03_counters R72-R79). -/
def Obligations.Captures : Prop :=
  ∀ (s : State) (t : Nat) (die : Fin 40) (T at_ c seq : Nat) (id : BitVec 32) (b : Bank) (q : CmdRef) (tq : BitVec 64) (irq : Bool)
    (x : Snap) (sl : Fin 4),
    let u := s.advance t
    let st := u.stn die
    let kind := fun (r : State) (i : Nat) => (r.stn die).lastCap = T ∧ (r.stn die).banks.length = st.banks.length + 1 ∧
      (r.stn die).banks.getLast?.map (fun (b : Bank) => b.kinds.getLsbD i) = some true
    let free := u.snaps.all fun y => decide (tq.toNat + 4 * usT ≤ y.t ∨ y.t + 4 * usT ≤ tq.toNat)
    (u.stnOn die = true →
      ((u.window die).isNone = true → st.inAt ≠ u.stnFt die → st.offering = true → st.banks.length < 5 → st.lastTry ≤ T → st.lastCap ≤ T →
        (u.captureDue die = (some T, none, none) → Completes (.periodicCapture t die) s fun r => kind r 3) ∧
        (u.captureDue die = (none, some T, none) → Completes (.aoCapture t die) s fun r => kind r 2) ∧
        (u.captureDue die = (none, none, some (id, T)) → st.snaps = [(id, T)] →
          Completes (.snapCapture t die id) s fun r => kind r 1 ∧ (r.stn die).snaps.all (fun y => y.1 != id) = true)) ∧
      (st.banks = [b] → b.at_ = at_ → b.recs = [] → Completes (.captureWriteDone t die at_) s fun r => (r.stn die).banks = []) ∧
      (u.snaps.find? (fun y => y.id == id) = some x →
        Completes (.snapshotCommandReceived t die id) s fun r =>
          if x.t < u.stnFt die then (r.snaps.find? fun y => y.id == id).map (fun y => y.miss.getLsbD die) = some true
          else (r.stn die).snaps = st.snaps ++ [(id, x.t)]) ∧
      (clear u die = true → u.rb (Kx.stnBwcfg die sl) 31 = true → sgetD st.bwAt sl 0 < gridAt (u.bwWin die sl) (u.stnFt die) →
        st.pend = [] → u.slicePorts die sl ≠ [] →
        Completes (.bwWindowClose t die sl) s fun r =>
          (r.stn die).cur.map (fun c => c.recs.map fun y => (y.ty, y.seq)) = some [(.bw, st.seq)] ∧
            sgetD (r.stn die).bwAt sl 0 = gridAt (u.bwWin die sl) (u.stnFt die))) ∧
    (u.hubOn = true →
      (tq ≠ 0 → u.now + 4 * usT ≤ tq.toNat → free = true →
        ((u.ctx q.ctx).st ≠ csClosed → u.isOper q.ctx = true →
          Completes (.snapshot t q tq) s fun r => r.snapId = u.snapId + 1 ∧
            r.snaps = u.snaps ++ [{ id := u.snapId + 1, t := tq.toNat, asker := some (q.ctx, q.seq, q.irq), node := 0 }]) ∧
        Completes (.snapshotMsg t tq) s fun r =>
          r.snaps = u.snaps ++ [{ id := u.snapId + 1, t := tq.toNat, asker := none, node := 0 }] ∧
            r.out = u.out ++ [.response rOk (bytesOf32 (u.snapId + 1) ++ bytesOfNat 8 tq.toNat)]) ∧
      (tq ≠ 0 → tq.toNat < u.now + 4 * usT →
        (canPost u q.ctx = true → u.isOper q.ctx = true →
          Completes (.snapshot t q tq) s fun r => posted u r q.ctx (cplOf q opSnapshot rTooSoon 0 0 0)) ∧
        Completes (.snapshotMsg t tq) s fun r => r.out = u.out ++ [.response rTooSoon []]) ∧
      (u.snaps.find? (fun y => y.id == id) = some x → x.t + 20 * usT ≤ u.now → x.t < u.now → waits u = true →
        x.asker = some (c, seq, irq) → canPost u c = true →
        Completes (.snapRecordAdmit t id) s fun r =>
          r.snaps = removeFirst (fun y => y.id == id) u.snaps ∧
            ((r.src 0).wait.drop (u.src 0).wait.length).map (·.ty) = [.snap] ∧
            ((r.ctx c).cpls.drop (u.ctx c).cpls.length).map (fun y => (y.seq, y.op, y.result, y.v0, y.v1)) =
              [(seq, opSnapshot, rOk, x.t, id.toNat)]))

/-- Servo exchanges and states, and what happens to the reference (02_fabric_time R40-R51, Table 2.1). -/
def Obligations.Servo : Prop :=
  ∀ (s : State) (t : Nat) (die : Fin 40) (a b c d rt delay turn cycles : Nat) (o : Int),
    let u := s.advance t
    let v := (u.stn die).servo
    let i := fun n : Nat => Int.ofNat n
    (u.stnOn die = true →
      (v.slot ≠ u.stnFt die / slotTicks + 1 →
        Completes (.timeExchangeRequest t die) s fun r =>
          (r.stn die).servo.t1 = some (u.stnFt die) ∧ (r.stn die).servo.slot = u.stnFt die / slotTicks + 1) ∧
      (v.t1 = some a → v.t23 = some (b, c) → a / groupTicks = v.grp →
        Completes (.timeReplyReceived t die) s fun r =>
          (r.stn die).servo.t1 = none ∧
          (r.stn die).servo.group.map (fun x => (x.1, x.2.1)) =
            v.group.map (fun x => (x.1, x.2.1)) ++ [(u.stnFt die - a, ((i b - i a) - (i (u.stnFt die) - i c)) - u.asym die)]) ∧
      (u.stnFt die / groupTicks ≠ v.grp → v.group = [(rt, o, delay)] → v.st = svAcquire →
        (v.stepped = false →
          Completes (.servoGroupEnd t die) s fun r =>
            (r.stn die).servo.group = [] ∧ (r.stn die).servo.stepped = true ∧ (r.stn die).servo.resid = o ∧
              (r.stn die).servo.off = v.lag u.now - max 0 (o.tdiv 2)) ∧
        (v.stepped = true → o.natAbs ≤ 2 → 63 ≤ v.near →
          Completes (.servoGroupEnd t die) s fun r =>
            (r.stn die).servo.group = [] ∧ (r.stn die).servo.st = svLocked ∧ (r.stn die).servo.high = false)) ∧
      (u.stnFt die / groupTicks ≠ v.grp → v.group = [] → v.st = svLocked →
        Completes (.servoGroupEnd t die) s fun r => (r.stn die).servo.st = svHoldover ∧ (r.stn die).servo.since = u.stnFt die) ∧
      (v.st = svHoldover → v.since + msT ≤ u.stnFt die →
        Completes (.holdoverTimeout t die) s fun r => (r.stn die).servo.st = svDrift ∧ r.rb (Kx.stnTstat die) 3 = true) ∧
      (clear u die = true → (u.stn die).tsyncAt + msT ≤ u.stnFt die →
        Completes (.tsyncPeriodic t die) s fun r =>
          (r.stn die).tsyncAt = u.stnFt die ∧ (r.stn die).cur.map (fun x => x.recs.map (·.ty)) = some [.tsync])) ∧
    (u.hubOn = true →
      (v.t1.isSome = true → u.reach die = true →
        Completes (.timeExchangeReply t die turn) s fun r => (r.stn die).servo.t23 = some (u.now - turn, u.now)) ∧
      (u.clk.lostAt = none →
        Completes (.refclkLoss t) s fun r =>
          r.clk.lostAt = some u.now ∧ r.rb Kx.timStatus 1 = true ∧ 2 ≤ r.clk.devTq.toNat) ∧
      (u.clk.lostAt.isSome = true →
        Completes (.refclkReturn t cycles) s fun r =>
          r.clk.lostAt = none ∧ r.clk.steps = u.clk.steps ++ [(u.now + 4 * usT, ticksOfHub cycles)] ∧
            r.clk.rtcAt = u.clk.rtcAt - ticksOfHub cycles)) ∧
    (u.isOn = true → u.clk.steps = [(a, d)] → a ≤ u.now →
      Completes (.ftStepApply t) s fun r =>
        r.clk.now = u.now + d ∧ r.clk.steps = [] ∧ r.rb Kx.timStatus 7 = true ∧ r.clk.rtcAt = u.clk.rtcAt + d)

/-- A curd on its way through the hub, and the journal's enable (05_records R124, 06_admission R132-R144, 01_unit_anatomy R25, R30). -/
def Obligations.JournalPath : Prop :=
  ∀ (s : State) (t : Nat) (die : Fin 40) (k : Fin 8) (un : Fin 48) (c : Curd) (reqs j : Nat) (e : PoolEnt) (w : JWrite) (q : Record)
    (l : List Record) (port : Port) (v : Word),
    let u := s.advance t
    let pools := fun (r : State) => r.jrn.pool.map fun x => (x.req, x.curd)
    u.hubOn = true →
    ((u.stn die).link = [(c, reqs)] → sget u.jrn.crcHold die = none → u.isDup die c = false → sget u.jrn.expect die = none →
      u.jrn.held = [] → u.jrn.wait = [] →
      Completes (.curdReceived t die true) s fun r => (r.stn die).link = [] ∧ pools r = pools u ++ [(die.val, c)]) ∧
    ((u.stn die).link = [(c, reqs)] →
      Completes (.curdReceived t die false) s fun r => sgetD r.jrn.reqs die 0 = sgetD u.jrn.reqs die 0 + 1) ∧
    (un.val < 40 → u.jrn.wait = [] → u.canRequest un = true → sgetD u.jrn.grants un 0 < 2 →
      Completes (.poolRequest t [un]) s fun r =>
        if 0 < u.poolFree then sgetD r.jrn.grants un 0 = sgetD u.jrn.grants un 0 + 1
        else r.jrn.wait = [un.val] ∧ (r.stn un).noBuf = true) ∧
    (u.jrn.pool = [e] → e.jidx = some j → u.entryDone e = true → u.jrn.wait = [] →
      Completes (.poolBufferFree t j) s fun r => r.jrn.pool = []) ∧
    (un.val < 40 → u.jrn.pool = [e] → e.req = un.val → e.jidx = none → u.jrnOn = true → curdCharge ≤ u.tokNow → u.budgetRate ≠ 0 →
      u.jrn.holes = [] → u.jrn.widx < u.nslot → u.sealOn un = false → u.inTurn e = true →
      Completes (.journalTake t un) s fun r =>
        r.jrn.widx = u.jrn.widx + 1 ∧ r.jrn.pool = [{ e with jidx := some u.jrn.widx }] ∧ r.jrn.tok = u.tokNow - curdCharge ∧
          r.jrn.jobs = u.jrn.jobs ++ [{ jidx := u.jrn.widx, curd := e.curd, at_ := u.now }]) ∧
    (u.jrn.jobs.find? (fun x => x.jidx == j) = some w → u.jrnCopies = true →
      Completes (.journalWriteComplete t j) s fun r =>
        r.jrn.mem = u.jrn.mem ++ [(w.jidx, w.curd)] ∧ r.jrn.jobs.find? (fun x => x.jidx == j) = none) ∧
    (j = u.jrn.delivTo → j < u.jrn.accTo → Completes (.curdDelivery t j) s fun r => r.jrn.delivTo = j + 1) ∧
    ((u.src k).wait = q :: l → (u.src k).gaps = [] →
      Completes (.peerConfirm t k) s fun r => (r.src k).wait = l ∧ (r.src k).seq = (u.src k).seq + 1) ∧
    (u.pair.stbyOk = true → Completes (.mirrorUpdate t) s fun r => r.mirror = u.mirrorNow) ∧
    Completes (.rebuildComplete t) s (fun r =>
      r.jrn.rebuild = false ∧ r.jrn.regain = [] ∧ (r.jrn.lost0 = true ↔ u.jrn.lost0 = true ∧ 0 ∉ u.jrn.regain.flatMap u.lostOn) ∧
        (r.jrn.lost1 = true ↔ u.jrn.lost1 = true ∧ 1 ∉ u.jrn.regain.flatMap u.lostOn)) ∧
    (u.jrnOn = false → u.holdsLease port = true → v.getLsbD 31 = true →
      Completes (.journalEnable t port v) s fun r =>
        if regionsOk (u.jrnRegions (v &&& 0xC0FFF07F)) then r.jrnOn = true ∧ r.jrn.tok = bucketTop
        else r.jrnOn = false ∧ r.rb Kx.hubJrnStatus 7 = true)

/-- Sinks (06_admission R146, 10_contexts R248-R250, 13_node R319) and Skim (06_admission R152-R156, 03_counters R86). -/
def Obligations.SinksAndSkim : Prop :=
  ∀ (s : State) (t : Nat) (ctx : Fin 4096) (ring : Fin 8) (x : Sub) (cu d : Curd) (die : Fin 40) (n : Fin 48) (k : Fin 8) (o : Offer) (p : Bool)
    (lever idx : BitVec 8) (l : LevPend),
    let u := s.advance t
    let c := ctx.val
    let b := u.now / skimWin
    let st := u.stn n
    (u.isOn = true → u.skim.endW ≠ b →
      Completes (.skimWindowEnd t) s fun r =>
        r.skim.endW = b ∧ r.skim.paced = u.skim.pacing ∧ (u.stnOn die = true → (r.stn die).offerDone = some (u.stn die).offer ∧ (r.stn die).offer = {}) ∧
        (r.src k).offerDone = some (u.src k).offer ∧ (r.src k).offer = {} ∧
        (u.skim.nextPace = some p → r.skim.pacing = p) ∧ (u.skim.nextPace = none → r.skim.pacing = u.skim.pacing)) ∧
    (u.isOn = true → u.skim.endW = b → Completes (.skimWindowEnd t) s fun r => r.stns = u.stns ∧ r.srcs = u.srcs ∧ r.skim = u.skim) ∧
    (n.val < 40 → u.stnOn n = true → l.lever = lever.toNat → l.idx = idx.toNat → l.eff ≤ u.now → st.levs = [l] →
      Completes (.leverApply t n lever idx) s fun r =>
        (r.stn n).levs = [] ∧ (l.lever = lvCnt → (r.stn n).levCnt = l.new) ∧ (l.lever = lvPcs → (r.stn n).levPcs = some l.new) ∧
          (l.lever = lvTensor → (r.stn n).defer = decide (l.new = 1))) ∧
    (u.hubOn = true →
      (u.ringOpen c ring = true → u.mayPlace c = true → (u.ring c ring).due = [] → u.subOf (.ring c ring) = some x → x.lap = none → x.next < u.jrn.delivTo →
        u.jrn.mem.find? (fun e => e.1 == x.next) = some (x.next, cu) → u.selectCurd (u.viewer c) x.args cu = some d →
        Completes (.sinkPlace t (.ring c ring)) s fun r =>
          (r.ring c ring).pi = ((u.ring c ring).pi + 1) % 2 ^ 32 ∧ (r.ring c ring).ents.length = (u.ring c ring).ents.length + 1 ∧
            (r.subOf (.ring c ring)).map (·.next) = some (x.next + 1)) ∧
      (u.nodeSends = true → u.node.isHead = false → u.node.plandiff = false → u.subOf .node = some x → x.lap = none →
        x.next < u.jrn.delivTo →
        u.jrn.mem.find? (fun e => e.1 == x.next) = some (x.next, cu) → u.selectCurd {} x.args cu = some d →
        Completes (.sinkPlace t .node) s fun r =>
          r.out = u.out ++ [.recFrame x.next d.words] ∧ (r.subOf .node).map (·.next) = some (x.next + 1)) ∧
      (u.nodeRing ≠ some (c, ring.val) → (u.ring c ring).readAt.any (fun a => u.now < a + usT) = false → u.subOf (.ring c ring) = some x →
        Completes (.placementReadback t ctx ring) s fun r =>
          (r.ring c ring).conf = (u.ring c ring).pi ∧ (r.subOf (.ring c ring)).map (·.cursor) = some x.next) ∧
      (n.val < 40 → u.reach n = true → st.offerDone = some o →
        Completes (.skimReport t n) s fun r => sget r.skim.reports n = some o ∧ (r.stn n).offerDone = none) ∧
      (40 ≤ n.val → (u.src (n - 40)).offerDone = some o →
        Completes (.skimReport t n) s fun r => sget r.skim.reports n = some o ∧ (r.src (n - 40)).offerDone = none) ∧
      (u.budgetRate ≠ 0 → u.jrnOn = true → u.skim.window < b → b * skimWin + usT ≤ u.now → u.skim.reports ≠ [] →
        Completes (.skimDecision t) s fun r =>
          r.skim.window = b ∧
            r.skim.offerPct = min 255 ((u.measured.map fun y => y.2.total).sum * 100 / u.budgetWin)) ∧
      (u.jrn.fastAt.any (fun a => a + usT ≤ u.now) = true → u.skim.pacing = false → u.curdWaits = true → u.tokNow < curdCharge →
        Completes (.fastArm t) s fun r =>
          r.skim.pacing = true ∧
            (u.canHear die = true → (r.stn die).pace.on = true ∧ (r.stn die).pace.allow = u.budgetWin / 48)) ∧
      (l.lever = lever.toNat → l.idx = idx.toNat → l.eff ≤ u.now →
        (40 ≤ n.val → (u.src (n - 40)).levs = [l] →
          Completes (.leverApply t n lever idx) s fun r =>
            (r.src (n - 40)).levs = [] ∧ (l.lever = lvChurn → r.skim.kh = l.new))) ∧
      (n.val < 40 → u.canHear n = true → u.skim.pend = [(n.val, l)] →
        Completes (.leverChangeDelivery t n) s fun r =>
          r.skim.pend = [] ∧ (r.stn n).levs.getLast? =
            some { l with eff := gridUp (u.levGrid n l.lever l.idx l.new) (max u.now l.eff) }))

/-- Reads of time, the RTC, PPS and anchors (02_fabric_time R55-R60, 17_setup_registers R390; 00_scope R12). A time-of-day message speaks to
PPS_IN alone where no TRIG pin serves as PPS_IN2; where one does is log entry 20. -/
def Obligations.Calendar : Prop :=
  ∀ (s : State) (t : Nat) (port : Port) (value : Word) (drift strobe : Int) (raw l held : Nat) (fall : Bool) (q : CmdRef) (sec : BitVec 48)
    (ft : BitVec 64) (ns : BitVec 30) (bound : BitVec 32),
    let u := s.advance t
    let p := u.clk.pps
    let e := (Int.ofNat raw - signedOf 12 (u.rf Kx.timPpsCfg 19 8)).toNat
    let anchor : Anchor := { src := 3, ft := ft.toNat, sec := sec.toNat, ns := ns.toNat, bound := bound.toNat }
    Completes (.vbatLow t) s (fun r => r.rb Kx.rtcCtl 4 = true ∧ r.rb Kx.rtcCtl 3 = false) ∧
    Completes (.vbatPowerOn t) s (fun r => r.clk.rtcSec = 0 ∧ r.clk.rtcCount = 0 ∧ r.rd Kx.rtcCtl = 0x10) ∧
    Completes (.rtcSecondStrobe t) s (fun r => r.clk.rtcSec = (u.clk.rtcSec + 1) % 2 ^ 48 ∧ r.clk.rtcAt = Int.ofNat u.now) ∧
    (u.hubOn = true →
      (port ≠ .dbg →
        Completes (.ftRead t port) s (fun r =>
          r.out = u.out ++ [.read port (BitVec.ofNat 32 u.now)] ∧
            r.latch port Kx.timFtHi.off = some (BitVec.ofNat 32 (u.now / 2 ^ 32))) ∧
        Completes (.rtcSecRead t port) s (fun r =>
          r.out = u.out ++ [.read port (BitVec.ofNat 32 u.clk.rtcSec)] ∧
            r.latch port Kx.rtcSecHi.off = some (BitVec.ofNat 32 (u.clk.rtcSec / 2 ^ 32))) ∧
        (u.holdsLease port = true → value.getLsbD 1 = true →
          Completes (.rtcLoad t port value) s fun r => r.rb Kx.rtcCtl 1 = true)) ∧
      (u.rb Kx.rtcCtl 1 = true → u.softBit Kx.rtcCtl 1 = false →
        Completes (.rtcLoadApply t) s fun r =>
          r.rb Kx.rtcCtl 1 = false ∧ r.rb Kx.rtcCtl 3 = true ∧ r.clk.rtcAt = Int.ofNat u.now ∧
            r.clk.rtcSec = u.rd64 Kx.rtcSetLo Kx.rtcSetHi % 2 ^ 48) ∧
      (u.rb Kx.rtcCtl 2 = true → p.lock = true → u.clk.measAt + trimTicks ≤ u.now → u.softBit Kx.rtcCtl 16 = false →
        Completes (.autotrimMeasure t drift strobe) s fun r =>
          r.rf Kx.rtcCtl 25 16 = (BitVec.ofInt 10
            (max (-511) (min 511 (signedOf 10 (u.rf Kx.rtcCtl 25 16) + nearestDiv (drift * 32768) (Int.ofNat secT))))).toNat ∧
          r.clk.measAt = u.now ∧ r.clk.reloadRtc = (u.clk.reloadRtc || decide (2 * secT < strobe.natAbs * 32768))) ∧
      (fall ≠ u.rb Kx.timPpsCfg 1 ∨ held < 8 → Completes (.ppsEdge t ⟨raw, fall, held⟩) s fun r => r.clk.pps = p) ∧
      (u.rb Kx.timPpsCfg 0 = true → fall = u.rb Kx.timPpsCfg 1 → 8 ≤ held →
        (p.last = none → Completes (.ppsEdge t ⟨raw, fall, held⟩) s fun r => r.clk.pps.last = some e) ∧
        (p.last = some l → l + secT ≤ e + 1600000 → e ≤ l + secT + 1600000 →
          Completes (.ppsEdge t ⟨raw, fall, held⟩) s fun r =>
            r.clk.pps.last = some e ∧ r.clk.pps.miss = 0 ∧ r.clk.pps.lock = (p.lock || decide (1 ≤ p.good))) ∧
        (p.last = some l → l + secT + 1600000 < e → p.miss < 2 →
          Completes (.ppsEdge t ⟨raw, fall, held⟩) s fun r => r.clk.pps.miss = p.miss + 1 ∧ r.clk.pps.last = some l)) ∧
      (u.ppsPin.isSome = true → u.clk.pps2.last = none →
        Completes (.trigPpsEdge t raw) s fun r => r.clk.pps2.last = some raw) ∧
      (p.last = some l → l + (p.wins + 1) * secT + 1600000 < u.now → u.clk.pps2.last = none →
        Completes (.ppsWindowMiss t) s fun r =>
          if 2 ≤ p.miss then r.clk.pps = {} ∧ r.rb Kx.timStatus 6 = true
          else r.clk.pps.miss = p.miss + 1 ∧ r.clk.pps.good = 0) ∧
      (u.ppsPin = none → p.last = some l →
        (l + 100 * msT ≤ u.now → u.now ≤ l + 900 * msT →
          (canPost u q.ctx = true → u.isOper q.ctx = true →
            Completes (.timeSet t q sec) s fun r =>
              r.clk.pps.held = some sec.toNat ∧ posted u r q.ctx (cplOf q opTimeSet rOk l 0 0)) ∧
          Completes (.timeOfDay t sec) s fun r =>
            r.clk.pps.held = some sec.toNat ∧ r.out = u.out ++ [.response rOk (bytesOfNat 8 l)]) ∧
        (l + 900 * msT < u.now →
          (canPost u q.ctx = true → u.isOper q.ctx = true →
            Completes (.timeSet t q sec) s fun r =>
              r.clk.pps.held = p.held ∧ posted u r q.ctx (cplOf q opTimeSet rTimeRej l 0 0)) ∧
          Completes (.timeOfDay t sec) s fun r =>
            r.clk.pps.held = p.held ∧ r.out = u.out ++ [.response rTimeRej (bytesOfNat 8 l)] ∧
              r.rf Kx.timStatus 15 8 = min 255 (u.rf Kx.timStatus 15 8 + 1))) ∧
      (u.rb Kx.timPpsCfg 23 = true → u.clk.ppsOut = none → u.ppsOutPhase.any (· ≤ 4) = true →
        Completes (.ppsOutStart t) s fun r => r.clk.ppsOut = some u.now ∧ r.out = u.out ++ [.ppsOut true]) ∧
      (u.clk.ppsOut = some l → l + clampN 1 200 (u.rf Kx.timPpsCfg 31 24) * msT ≤ u.now →
        Completes (.ppsOutEnd t) s fun r => r.clk.ppsOut = none ∧ r.out = u.out ++ [.ppsOut false]) ∧
      (canPost u q.ctx = true → u.isOper q.ctx = true →
        Completes (.hostAnchor t q ft sec ns bound) s fun r =>
          sget r.clk.anchors 3 = some anchor ∧ posted u r q.ctx (cplOf q opHostAnchor rOk ft.toNat 0 0)) ∧
      Completes (.hostAnchorMsg t ft sec ns bound) s (fun r =>
        sget r.clk.anchors 3 = some anchor ∧ r.out = u.out ++ [.response rOk []]))

/-- Sequencer, mesh, TRIG pins and HOLD inputs (04_markers R101, R102, R106-R114). -/
def Obligations.MeshAndPins : Prop :=
  ∀ (s : State) (t : Nat) (die : Fin 40) (n e l f : Nat) (m : MeshEv) (q : CmdRef) (lines : BitVec 8) (pin : Fin 8) (level : Bool)
    (chanB : Bool) (fb : Bool),
    let u := s.advance t
    let st := u.stn die
    let x := sgetD u.pins pin {}
    let h := u.hold
    let active := level != u.rb Kx.pinHoldCfg (if chanB then 29 else 30)
    let slot := slotAt (meshEnter u.now)
    let due := (u.startEdge die).seqDue die
    (u.stnOn die = true → (u.window die).isNone = true →
      (due = some n →
        Completes (.sequencerTransition t die) s fun r =>
          (r.stn die).seqr.cur = BitVec.ofNat 3 n ∧
            r.rf (Kx.stnSeqStat die) 31 24 = min 255 (u.rf (Kx.stnSeqStat die) 31 24 + 1)) ∧
      (due = none → u.seqOn die = true → st.inAt ≠ u.stnFt die → st.seqr.tmr = some e → e ≤ u.stnFt die →
        Completes (.seqTimerExpiry t die) s fun r => (r.stn die).seqr.tmr = none ∧ (r.stn die).seqr.tmrDone = true)) ∧
    (u.hubOn = true →
      (u.stnOn die = true → u.mesh = [m] → m.stns = false → m.slot + 208 ≤ u.now → m.lines = 1 <<< l → l < 8 → u.rb (Kx.hubTrigCfg l) 31 = true →
        waits u = true →
        Completes (.meshEvent t m.slot) s fun r =>
          r.mesh = [] ∧ (r.stn die).meshQ = st.meshQ ++ [(m.slot + 192, m.lines)] ∧
            ((r.src 5).wait.drop (u.src 5).wait.length).map (·.ty) = [.trig]) ∧
      (lines ≠ 0 → canPost u q.ctx = true → u.isOper q.ctx = true →
        Completes (.trigger t q lines) s fun r =>
          r.mesh = u.mesh ++ [{ lines := lines, slot := slot, origin := 1, origId := BitVec.ofNat 16 q.ctx, at_ := u.now }] ∧
            posted u r q.ctx (cplOf q opTrigger rOk slot 0 0)) ∧
      (lines ≠ 0 →
        Completes (.triggerMsg t lines) s fun r =>
          r.mesh = u.mesh ++ [{ lines := lines, slot := slot, origin := 2, at_ := u.now }] ∧
            r.out = u.out ++ [.response rOk (bytesOfNat 8 slot)]) ∧
      (x.func = 1 → x.parked u.now = false → x.level ≠ level → level ≠ x.pol →
        Completes (.trigInEdge t pin level) s fun r =>
          r.mesh = u.mesh ++ [{ lines := 1 <<< x.line.toNat, slot := slotAt (pinEnter u.now), origin := 3,
                                origId := BitVec.ofNat 16 pin, at_ := u.now }]) ∧
      (x.pulse = some e → e ≤ u.now →
        Completes (.trigOutPulseEnd t pin) s fun r =>
          (sgetD r.pins pin {}).pulse = none ∧ (sgetD r.pins pin {}).drv = some x.pol ∧ r.out = u.out ++ [.pin pin false]) ∧
      (x.park = some f → f + 240 ≤ u.now →
        Completes (.pinFunctionSwitch t pin level) s fun r =>
          (sgetD r.pins pin {}).func = BitVec.ofNat 3 (u.pinFunc pin) ∧ (sgetD r.pins pin {}).level = level ∧
            (sgetD r.pins pin {}).pulse = none ∧ (sgetD r.pins pin {}).park = none) ∧
      (u.rb Kx.pinHoldCfg 31 = true → h.locked = false → active ≠ (if chanB then h.b else h.a) →
        (h.win = none →
          Completes (.holdChange t chanB level) s fun r =>
            r.hold.win = if active = (if chanB then h.a else h.b) then none else some (u.now, chanB)) ∧
        (h.win = some (f, fb) → fb ≠ chanB → u.now ≤ f + u.holdWin → active = true → (if chanB then h.a else h.b) = true →
          h.held = false →
          Completes (.holdChange t chanB level) s fun r => r.hold.held = true ∧ r.hold.win = none)) ∧
      (h.win = some (f, fb) → f + u.holdWin + pinCyc ≤ u.now →
        Completes (.holdWindowExpiry t) s fun r =>
          r.hold.locked = true ∧ r.hold.win = none ∧ r.rf Kx.pinHoldStat 31 24 = min 255 (u.rf Kx.pinHoldStat 31 24 + 1)) ∧
      (h.quietAt = some e → h.locked = true → e + u.holdWin ≤ u.now →
        Completes (.holdUnlock t) s fun r => r.hold.locked = false ∧ r.hold.held = false))

/-- The Sequence Ledger (07_sequence_ledger R165-R182, Tables 7.2, 7.7). -/
def Obligations.LedgerWork : Prop :=
  ∀ (s : State) (t : Nat) (die : Fin 40) (port : Port) (v : Word) (m : Nat × List (Bool × Nat)) (l : List (Nat × List (Bool × Nat))) (g : Prog)
    (x : Sub) (c : Curd) (y : Record) (e : FlowEv) (b : List FlowEv) (ft : Nat) (f : Flow) (w : List (Nat × Flow)),
    let u := s.advance t
    let st := u.stn die
    let next := ((u.subOf .ledger).map (·.next)).getD 0
    let vm := v &&& 0xC0FF1F1F
    (u.stnOn die = true → 2 ≤ st.servo.st.toNat → st.progAt.any (fun k => u.stnFt die < k + u.flush die) = false →
      Completes (.progressSend t die) s fun r =>
        (r.stn die).progAt = some (u.stnFt die) ∧ (r.stn die).prog = st.prog ++
          [(u.progressP die, (st.closed.filter fun h => h.st != .acked).map fun h => (h.curd.rsv, h.curd.firstSeq))]) ∧
    (u.hubOn = true →
      (st.prog = m :: l → u.reach die = true →
        Completes (.progressReceive t die) s fun r =>
          (r.stn die).prog = l ∧ (sget r.progs die).map (·.at_) = some u.now) ∧
      (sget u.progs die = some g → g.at_ + u.silent ≤ u.now →
        Completes (.silentTimeout t die) s fun r => sget r.progs die = none) ∧
      (u.led.catchup = true → u.jrn.accTo ≤ next → Completes (.ledgerCatchupDone t) s fun r => r.led.catchup = false) ∧
      (u.ledOn = true →
        (u.subOf .ledger = some x → x.lap = none → x.next < u.jrn.accTo →
          Completes (.ledgerIngest t) s fun r =>
            (r.subOf .ledger).map (fun q => (q.next, q.cursor)) = some (x.next + 1, x.next + 1) ∧
            (u.jrn.mem.find? (fun q => q.1 == x.next) = some (x.next, c) → c.unit < 40 → c.recs = [y] → y.ty = .flow →
              u.led.skipTo ≤ x.next → sget u.jrn.lateAt x.next = none → u.led.buf.length < bufMax → u.led.forcedTo = none →
              r.led.buf = insertEv (flowOf c x.next false y) u.led.buf)) ∧
        (u.restartDue = none → u.led.buf = e :: b → e.ft < u.wm → u.noEarlier next e.key = true →
          Completes (.eventRelease t) s fun r =>
            r.led.buf = b ∧
            (u.refusal e = none → e.code.toNat = fcOpen → e.handle ≠ noFlow → (u.led.gone0 && u.led.gone1) = false →
              (sget r.led.table (slotOf e.handle)).map (fun q => (q.handle, q.st, q.openFt, q.odie)) =
                some (e.handle, .opened, e.ft, e.die))) ∧
        (u.led.queue = (ft, f) :: w → ft + u.evictDelay < u.wm →
          Completes (.flowEvict t) s fun r => r.led.queue = w) ∧
        (u.holdsLease port = true → v.getLsbD 31 = false →
          Completes (.ledgerDisable t port v) s fun r => r.ledOn = false ∧ r.led = {} ∧ r.subOf .ledger = none)) ∧
      (u.ledOn = false → u.holdsLease port = true → v.getLsbD 31 = true →
        Completes (.ledgerEnable t port v) s fun r =>
          if u.ledCheck vm then r.ledOn = true ∧ (r.subOf .ledger).map (·.next) = some u.jrn.widx ∧ r.led.table = []
          else r.ledOn = false ∧ r.rb Kx.ledStatus 6 = true))

/-- Churn's work (09_churn R205-R228) and the checkpoint (06_admission R140). -/
def Obligations.ChurnWork : Prop :=
  ∀ (s : State) (t : Nat) (die : Fin 40) (sl : Fin 4) (dfn : Fin 64) (det : Fin 32) (port : Port) (v : Word) (x : Sub) (c : Curd) (y : Record)
    (a b k : Nat) (i : Inst) (m : Partial) (w : ExpWin) (z : SkStream),
    let u := s.advance t
    let st := u.stn die
    let scope := if u.defScope m.dfn m.start = skDie then die.val else 0
    let vm := v &&& 0x800F001F
    (u.stnOn die = true → sgetD st.sk sl {} = z → z.win = some (k, a) → z.cand = none → u.streamEnd z = some b → b ≤ u.stnFt die →
      Completes (.sketchStreamBoundary t die sl) s fun r =>
        (sgetD (r.stn die).sk sl {}).win = none ∧
        (r.stn die).parts = st.parts ++ [{ sl := sl.val, dfn := k, boundary := true, start := a, stop := b, lvls := z.sk.lvls,
                                           count := z.sk.count, min := z.sk.min, max := z.sk.max, skip := z.skip,
                                           behind := st.ahead }]) ∧
    (u.hubOn = true →
      (u.jrnOn = true → u.ckptDue = true →
        Completes (.journalCheckpoint t) s fun r =>
          (r.jrn.ckpt.map fun q => (q.widx, q.cursors)) = some (u.jrn.widx, u.subs.map fun q => (q.sink, q.cursor)) ∧
            (u.chnOn = true → (r.chnCkpt.map (·.next)) = some u.churnNext) ∧ r.jrn.ckptAt = some u.now) ∧
      (u.holdsLease port = true → u.chnOn = false → v.getLsbD 31 = true →
        Completes (.churnEnable t port v) s fun r =>
          if u.chnCheck vm then r.chnOn = true ∧ (r.subOf .churn).map (·.next) = some u.jrn.widx ∧ r.churn.insts = []
          else r.chnOn = false ∧ r.rb Kx.chnStatus 6 = true) ∧
      (u.holdsLease port = true → u.chnOn = true → v.getLsbD 31 = false →
        Completes (.churnEnable t port v) s fun r => r.chnOn = false ∧ r.subOf .churn = none) ∧
      (u.chnOn = true → u.subOf .churn = some x → x.next < u.jrn.accTo →
        Completes (.churnIngest t) s fun r =>
          (r.subOf .churn).map (fun q => (q.next, q.cursor)) = some (x.next + 1, x.next + 1) ∧
          (u.jrn.mem.find? (fun e => e.1 == x.next) = some (x.next, c) → c.unit < 40 → c.recs = [y] → y.ty = .gap →
            u.churn.closedTo ≤ y.ft → r.churn.gaps = u.churn.gaps ++ [(gapKind y, y.ft, gapCount y)])) ∧
      (u.chnOn = true → u.hubOpen = some (a, b) → u.mayClose b = true → u.churn.insts = [] →
        Completes (.churnWindowClose t) s fun r => r.churn.hbwAt = b ∧ r.churn.closedTo = max u.churn.closedTo b) ∧
      (u.chnOn = true → u.hubOpen = none → u.churn.insts = [i] → u.instReady i = true →
        Completes (.churnWindowClose t) s fun r =>
          r.churn.insts = [] ∧ r.churn.closedTo = max u.churn.closedTo (u.instStop i)) ∧
      (st.parts = [m] → m.sl = sl.val → m.behind.any st.stillAhead = false →
        Completes (.sketchPartial t die sl) s fun r =>
          (r.stn die).parts = [] ∧
          (u.defOn m.dfn m.start = true → u.defMetric m.dfn m.start = mRlat → u.churn.lostAt = none → u.churn.insts = [i] →
            i.is m.dfn scope (u.defWin m.dfn m.start).1 = true →
            r.churn.insts.map (·.sk) = [i.sk.mergeItems m.lvls m.count m.min m.max])) ∧
      (u.churn.insts = [i] → i.dfn = dfn.val → i.metric = mRlat → u.instStop i + 20 * usT ≤ u.now → k ∈ u.streamsOf i → k ∉ i.parts →
        Completes (.partialTimeout t dfn) s fun r => r.churn.insts.map (fun q => q.missing.getLsbD (k / 4)) = [true]) ∧
      (u.expOn = true →
        (u.churn.exps = [] →
          Completes (.exploadWindowBegin t) s fun r =>
            r.churn.exps.head? = some (u.newExp (gridAt u.ewin u.now / u.ewin + 1) ((gridAt u.ewin u.now / u.ewin + 1) * u.ewin))) ∧
        (u.churn.exps = [w] →
          (w.start ≤ u.now →
            Completes (.exploadWindowBegin t) s fun r => r.churn.exps.head? = some (u.newExp (w.k + 1) w.stop)) ∧
          (w.busy = true → u.mayClose w.stop = true →
            Completes (.exploadWindowClose t) s fun r =>
              r.churn.exps.map (fun q => (q.k, q.busy)) = [(w.k, false)] ∧ r.churn.lastSeq = some w.k ∧
                r.churn.closedTo = max u.churn.closedTo w.stop))) ∧
      (u.detOn det = true → sget u.churn.detAt det = some a → u.mayClose (a + u.dwin det) = true →
        Completes (.detectorWindowClose t det) s fun r =>
          sget r.churn.detAt det = some (a + u.dwin det) ∧ r.churn.closedTo = max u.churn.closedTo (a + u.dwin det)))

/-- WATCH ARM (08_tensor R190, R199, Table 8.4). Which free WID is taken is a free value (log entry 6). -/
def Obligations.WatchArming : Prop :=
  ∀ (s : State) (t : Nat) (q : CmdRef) (a : WatchArgs),
    let u := s.advance t
    let cap := if a.capture then u.capIds else 0
    u.hubOn = true → canPost u q.ctx = true → u.armCheck q.ctx a = none →
      Completes (.watchArm t q a) s fun r => ∃ w, w < 64 ∧ u.watch w = none ∧
        (r.watch w).map (fun x => (x.args, x.ctx, x.seq, x.oper, x.capId, x.armAt, x.inForce, x.done)) =
          some (a, q.ctx, q.seq, u.isOper q.ctx, cap, u.now + armDelay, false, none) ∧
        r.capIds = (if a.capture then u.capIds + 1 else u.capIds) ∧
        posted u r q.ctx { cplOf q opWatch rArmed (u.now + armDelay) cap.toNat w with more := true }

/-- Watches after their arming (08_tensor R190, R203) and the exclusion lock (R188, R204). -/
def Obligations.WatchWork : Prop :=
  ∀ (s : State) (t : Nat) (q : CmdRef) (wid : Fin 64) (x : Watch) (die : Fin 40) (d : BitVec 8) (port : Port) (v : Word),
    let u := s.advance t
    let seen := fun (r : State) => (r.ctx x.ctx).cpls.drop (u.ctx x.ctx).cpls.length
    u.hubOn = true →
    (u.watch wid = some x →
      (x.ctx = q.ctx → x.done = none → canPost u q.ctx = true →
        Completes (.watchRemove t q wid) s fun r =>
          (r.watch wid).map (·.remAt) = some (some (x.remAt.getD (u.now + armDelay))) ∧
            posted u r q.ctx (cplOf q opWatch rOk x.armAt x.capId.toNat wid)) ∧
      (x.done = none → u.watchDone x = false → x.remAt = none → x.armAt ≤ u.now →
        Completes (.watchEffect t wid) s fun r =>
          (r.watch wid).map (·.inForce) = some true ∧ (u.watchReady die wid x = true → wid.val ∈ (r.stn die).armed)) ∧
      (x.done = none → u.watchDone x = false → x.remAt.any (· ≤ u.now) = true →
        Completes (.watchEffect t wid) s fun r =>
          (r.watch wid).map (·.done) = some (some (BitVec.ofNat 8 rRemoved)) ∧
            (u.present die = true → wid.val ∉ (r.stn die).armed)) ∧
      (x.done = some d → u.watchBusy wid = false →
        Completes (.watchRetire t wid) s fun r =>
          r.watch wid = none ∧
            (x.posted = false → canPost u x.ctx = true →
              (seen r).map (fun c => (c.seq, c.op, c.result, c.final)) = [(x.seq, opWatch, d.toNat, true)]))) ∧
    (u.holdsLease port = true →
      (u.rb Kx.hubTwExclCtl 31 = false → v.getLsbD 31 = true →
        Completes (.exclLock t port v) s fun r => r.rb Kx.hubTwExclCtl 31 = true) ∧
      (u.rb Kx.hubTwExclCtl 31 = true →
        Completes (.exclLock t port v) s fun r => r.rd Kx.hubTwExclCtl = u.rd Kx.hubTwExclCtl ∧ r.rb Kx.hubTwStat 8 = true) ∧
      (v.getLsbD 31 = true →
        Completes (.tensorWatchEnable t port v) s fun r =>
          if u.rb Kx.hubTwExclCtl 31 then r.rb Kx.hubTwCfg 31 = true
          else r.rb Kx.hubTwCfg 31 = u.rb Kx.hubTwCfg 31 ∧ r.rb Kx.hubTwStat 9 = true))

/-- Queries (09_churn R223-R226) and the lease (11_management R258-R264). -/
def Obligations.QueriesAndLease : Prop :=
  ∀ (s : State) (t : Nat) (q : CmdRef) (a : QueryArgs) (y : Query) (port : Port) (v : Word),
    let u := s.advance t
    let done := fun (r : State) => ((r.ctx y.ctx).cpls.drop (u.ctx y.ctx).cpls.length).map fun z => (z.seq, z.op)
    u.hubOn = true →
    ((u.ctx q.ctx).st ≠ csClosed → u.bufBad q.ctx a.addr.toNat a.alen.toNat = false → u.queryCheck (u.viewer q.ctx) a = none →
      a.kind.toNat ≠ skNode → u.churn.qs.length < 64 →
      (u.churn.qs.filter fun z => z.ctx == q.ctx && z.from_.isNone).length < 4 →
      Completes (.query t q a) s fun r =>
        r.churn.nextQ = u.churn.nextQ + 1 ∧
          r.churn.qs = u.churn.qs ++ [{ id := u.churn.nextQ, ctx := q.ctx, seq := q.seq, irq := q.irq, args := a, since := u.now }]) ∧
    (u.churn.qs = [y] → y.waiting = [] → y.from_ = none → y.node = none → canPost u y.ctx = true →
      (y.args.wend = 0 ∨ y.args.wend.toNat ≤ u.asof →
        Completes (.queryAnswer t y.id) s fun r =>
          r.churn.qs = [] ∧ done r = [(y.seq, opQuery)] ∧
            (y.args.metric.toNat = mLive → u.ledOn = true → 96 ≤ y.args.alen.toNat →
              ((r.ctx y.ctx).cpls.getLast?).map (fun z => (z.result, z.v0, z.v1)) = some (rOk, u.asof, 32))) ∧
      (y.since + y.args.wait.toNat * usT ≤ u.now →
        Completes (.queryWaitTimeout t y.id) s fun r => r.churn.qs = [] ∧ done r = [(y.seq, opQuery)])) ∧
    (u.leaseOver = true →
      Completes (.leaseExpiry t) s fun r => r.lease.kind = 0 ∧ r.lease.lastRel = relExpired ∧ r.rb Kx.semStatus 2 = true) ∧
    (u.leaseOver = false → port ≠ .dbg →
      (u.lease.kind = 0 ∨ u.lease.kind = okOfPort port ∧ u.lease.tag = BitVec.ofNat 16 (fld v 31 16) →
        Completes (.semRequest t port v) s fun r =>
          r.lease.kind = okOfPort port ∧ r.lease.tag = BitVec.ofNat 16 (fld v 31 16) ∧ r.lease.len = leaseMs (fld v 9 0) ∧
            r.lease.ends = u.now + leaseMs (fld v 9 0) * msT) ∧
      (u.lease.kind = okOfPort port → u.lease.tag.toNat = fld v 31 16 → u.pinned = false →
        Completes (.semRelease t port v) s fun r =>
          r.lease.kind = 0 ∧ r.lease.lastRel = relReleased ∧ r.plan.phase = .idle ∧ r.plan.staged = []))

/-- Commands about contexts themselves (10_contexts R231, R247, R249, Table 10.7). -/
def Obligations.ContextCommands : Prop :=
  ∀ (s : State) (t : Nat) (q : CmdRef) (target : BitVec 64) (ring : Fin 8) (a : SubArgs) (g : CtxArgs) (ctx : Fin 4096) (y : Query) (x : Sub),
    let u := s.advance t
    let c := q.ctx
    let d := (q.seq + 2 ^ 64 - target.toNat) % 2 ^ 64
    u.hubOn = true → canPost u c = true →
    Completes (.nop t q) s (fun r => posted u r c (cplOf q opNop rOk u.now 0 0)) ∧
    (d = 0 ∨ 64 < d → Completes (.abort t q target) s fun r => posted u r c (cplOf q opAbort rNotFound target.toNat 0 0)) ∧
    (0 < d → d ≤ 64 → u.churn.qs = [y] → y.ctx = c → y.seq = target.toNat → y.from_ = none →
      Completes (.abort t q target) s fun r =>
        r.churn.qs = [] ∧
          ((r.ctx c).cpls.drop (u.ctx c).cpls.length).head?.map (fun z => (z.seq, z.op, z.result)) = some (target.toNat, opQuery, rAborted)) ∧
    (u.rb (Kx.ctxRecCfg c ring) 31 = true → a.start ≠ 3 → u.nodeRing ≠ some (c, ring.val) →
      Completes (.subscribe t q ring a) s fun r =>
        posted u r c (cplOf q opSubscribe rOk (u.subStart (u.isOper c) a) 0 0) ∧
          (r.subOf (.ring c ring)).map (fun z => (z.args, z.cursor)) = some (a, u.subStart (u.isOper c) a)) ∧
    (u.subOf (.ring c ring) = some x →
      Completes (.unsubscribe t q ring) s fun r =>
        posted u r c (cplOf q opUnsubscribe rOk x.cursor 0 0) ∧ r.subOf (.ring c ring) = none) ∧
    (u.isOper c = true →
      (u.openCheck g = none →
        Completes (.ctxOpen t q g) s fun r =>
          posted u r c (cplOf q opCtxOpen rOk g.ctx.toNat 0 0) ∧
            r.ctx g.ctx.toNat = { st := csStopped, perm := g.perm, stallp := g.stallp, pasiden := g.pasiden, pasid := g.pasid,
                                  part := g.part, share := g.share, ringDirty := true, seqDirty := true }) ∧
      ((u.ctx g.ctx.toNat).st ≠ csClosed →
        Completes (.ctxModify t q g) s fun r =>
          posted u r c (cplOf q opCtxModify rOk g.ctx.toNat 0 0) ∧
            (r.ctx g.ctx.toNat).share = g.share ∧ (r.ctx g.ctx.toNat).stallp = g.stallp) ∧
      (16 ≤ ctx.val → Completes (.ctxClose t q ctx) s fun r => (r.ctx ctx).st = csClosed))

/-- Doorbells and rings (10_contexts R229-R253, Tables 10.1, 10.5, 10.9). -/
def Obligations.ContextRings : Prop :=
  ∀ (s : State) (t : Nat) (port : Port) (tee : Bool) (ctx : Fin 4096) (ring : Fin 8) (v : Word) (vec : Fin 4112) (fetch : Bool)
    (words : List (BitVec 64)) (e : LogEnt) (mem : Option (List (BitVec 64))),
    let u := s.advance t
    let c := ctx.val
    let x := u.ctx c
    let n := v.toNat
    let off := fun a : Nat => (a + 2 ^ 32 - x.fetch) % 2 ^ 32
    let q : CmdRef := { ctx := c, seq := e.seq, irq := dIrq e.words }
    u.hubOn = true →
    (port ≠ .dbg → u.pageOpen tee c = true →
      (off n ≤ ringSize (u.rf (Kx.ctxCmdCfg c) 4 0) → off x.pi < off n →
        Completes (.dbCmd t port tee ctx v) s fun r => (r.ctx c).pi = n) ∧
      (ringSize (u.rf (Kx.ctxCmdCfg c) 4 0) < off n →
        Completes (.dbCmd t port tee ctx v) s fun r => (r.ctx c).pi = x.pi ∧ r.rb (Kx.ctxStatus c) sbDbErr = true) ∧
      (aheadOf n x.cplPi = false → aheadOf n x.cplCi = true →
        Completes (.dbCpl t port tee ctx v) s fun r => (r.ctx c).cplCi = n) ∧
      (u.rb (Kx.ctxRecCfg c ring) 31 = true → aheadOf n (u.ring c ring).pi = false → aheadOf n (u.ring c ring).ci = true →
        Completes (.dbRec t port tee ctx ring v) s fun r => (r.ring c ring).ci = n) ∧
      (x.st = csStopped → u.logOn = true → u.rb (Kx.ctxRecCfg c 0) 31 = true → x.ringloc = false →
        Completes (.contextRun t port tee ctx) s fun r => (r.ctx c).st = csRunning ∧ (r.ctx c).fcause = 0) ∧
      (x.st = csStopped → u.logOn = false →
        Completes (.contextRun t port tee ctx) s fun r =>
          (r.ctx c).st = csStopped ∧ (r.ctx c).fcause = fcsNoLog ∧ r.rb (Kx.ctxStatus c) sbCfgErr = true) ∧
      (x.st = csRunning →
        Completes (.contextStop t port tee ctx) s fun r =>
          (r.ctx c).st = if inProgress x = false ∧ x.held = [] then csStopped else csStopping)) ∧
    (x.st = csRunning →
      Completes (.hostReadError t ctx fetch) s fun r =>
        (r.ctx c).st = csFaulted ∧ (r.ctx c).fcause = (if fetch then fcsReadErr else fcsFlushErr) ∧ r.rb (Kx.ctxStatus c) sbFault = true) ∧
    (u.rf (Kx.ctxCplCfg c) 31 16 ≠ 0 → x.unsig ≠ 0 → x.unsigAt + u.rf (Kx.ctxCplCfg c) 31 16 * usT ≤ u.now →
      Completes (.completionSignalTimeout t ctx) s fun r => (r.ctx c).unsig = 0) ∧
    (vec.val ∈ u.msix.pending →
      Completes (.msixUnmask t vec) s fun r =>
        r.out = u.out ++ [.msix vec] ∧ vec.val ∉ r.msix.pending ∧ vec.val ∈ r.msix.unmasked) ∧
    (u.holdsLease port = true → u.logOn = false → v.getLsbD 31 = true →
      Completes (.commandLogEnable t port v) s fun r =>
        if u.logCheck (v &&& 0x800FF000) then r.logOn = true ∧ r.rb Kx.ctxLogCfg 0 = true
        else r.logOn = false ∧ r.rb Kx.ctxLogCfg 1 = true) ∧
    (u.mayFetch c = true → x.ringloc = false → dExt words = false → 0 < (x.pi + 2 ^ 32 - x.fetch) % 2 ^ 32 →
      x.nextSeq = (words.getD 0 0).toNat →
      Completes (.descriptorFetch t ctx words) s fun r =>
        (r.ctx c).fetch = (x.fetch + 1) % 2 ^ 32 ∧
          (r.ctx c).log.getLast? =
            some { seq := x.nextSeq, words := words.take 8, check := BitVec.ofNat 8 (frameCheck (words.take 8)) }) ∧
    (x.log = [e] → e.logged = false → canPost u c = true →
      (e.check ≠ 0 →
        Completes (.logWriteComplete t ctx e.seq mem) s fun r =>
          (r.ctx c).nextSeq = (e.seq + 1) % 2 ^ 64 ∧ posted u r c (cplOf q (dOp e.words) e.check.toNat 0 0 0)) ∧
      (e.check = 0 → dOp e.words = opNop →
        Completes (.logWriteComplete t ctx e.seq mem) s fun r =>
          (r.ctx c).nextSeq = (e.seq + 1) % 2 ^ 64 ∧ posted u r c (cplOf q opNop rOk u.now 0 0)))

/-- 10_contexts R244, R255, Table 10.11. -/
def Obligations.CompletionBytes : Prop :=
  ∀ (s : State) (t a : Nat) (q : CmdRef),
    let u := s.advance t
    let c := q.ctx
    let x := u.ctx c
    let at_ := u.rd64 (Kx.ctxCplBaseLo c) (Kx.ctxCplBaseHi c) + 32 * (x.cplPi % u.cplSize c)
    let ws := cplWords (cplOf q opNop rOk u.now 0 0) x.fetch (phaseBit x.cplPi (u.cplSize c))
    u.hubOn = true → s.sramW = [] → canPost u c = true → x.log = [] →
    (x.ringloc = true → at_ + 32 ≤ sramSize →
      Completes (.nop t q) s fun r =>
        Memory.readBytes r.sram at_ 32 = ws.flatMap bytesOf64 ∧
          (a < at_ ∨ at_ + 32 ≤ a → Memory.read r.sram a = Memory.read s.sram a) ∧ (r.ctx c).cplPi = (x.cplPi + 1) % 2 ^ 32) ∧
    (x.ringloc = false →
      Completes (.nop t q) s fun r =>
        r.sram = s.sram ∧ (r.out.drop u.out.length).head? = some (.host c at_ (u.dmaTee c) (u.dmaPasid c) ws) ∧ (r.ctx c).cplPi = (x.cplPi + 1) % 2 ^ 32)

/-- A command that answers by completions stores to the completion ring of its own context and nowhere else in hub SRAM (10_contexts R244,
R246, R255). -/
def Obligations.CompletionMemory : Prop :=
  ∀ (s r : State) (t a : Nat) (q : CmdRef) (tq ft tenant buf : BitVec 64) (lines : BitVec 8) (g : WatchArgs) (wid : Fin 64)
    (sec : BitVec 48) (ns : BitVec 30) (bound kid : BitVec 32) (ok : Bool) (i : Instr),
    let u := s.advance t
    let c := q.ctx
    let base := u.rd64 (Kx.ctxCplBaseLo c) (Kx.ctxCplBaseHi c)
    i ∈ [.nop t q, .snapshot t q tq, .trigger t q lines, .watchArm t q g, .watchRemove t q wid, .timeSet t q sec,
      .hostAnchor t q ft sec ns bound, .keyRevoke t q kid, .tenantAttach t q tenant, .sealPubkey t q buf ok] →
    s.sramW = [] → exec i s = .next r →
      ((u.ctx c).ringloc = false ∨ a < base ∨ base + 32 * u.cplSize c ≤ a → Memory.read r.sram a = Memory.read s.sram a)

/-- Register accesses (17_setup_registers R381-R385, 11_management R261, R267, R279, 16_grayth R377, 18_integration R404). -/
def Obligations.RegisterAccess : Prop :=
  ∀ (s : State) (t : Nat) (port : Port) (tee : Bool) (v : Word) (die : Fin 40) (n : Nat) (ws : List (BitVec 26 × Word)) (off : BitVec 26),
    let u := s.advance t
    let wide := v.setWidth 64
    let cnt := Kx.stnCntCfg die
    let ours := u.plan.staged.filter fun x => x.1 != cnt.off
    let sel := (u.rd Kx.glbChsel &&& 0xFFFF0000) ||| (v &&& 0xFFFF)
    u.hubOn = true → u.leaseOver = false →
    (port ≠ .dbg →
      Completes (.registerWrite t port tee 0x40 4 0xF wide) s (fun r => r.rd Kx.glbChsel = sel) ∧
      Completes (.registerWrite t port tee 0x1008 4 0xF wide) s (fun r =>
        if u.holdsLease port then r.rd Kx.timAnchorCfg = (u.rd Kx.timAnchorCfg &&& 0xFFFFF000) ||| (v &&& 0xFFF)
        else r.rd Kx.timAnchorCfg = u.rd Kx.timAnchorCfg ∧
          ((u.rd Kx.timAnchorCfg ^^^ v) &&& 0xFFF ≠ 0 → r.rb Kx.semStatus 1 = true))) ∧
    (port ≠ .dbg → u.present die = true → u.autoServes port = false →
      Completes (.rwpWrite t port (BitVec.ofNat 26 cnt.off) 4 0xF wide) s fun r =>
        if u.holdsLease port then
          (u.plan.phase = .idle → r.rb Kx.opStatus 23 = true ∧ r.plan = u.plan) ∧
          (u.plan.phase = .opened → r.plan.staged = ours ++ [(cnt.off, v, 0)] ∧ r.plan.count = u.plan.count + 1)
        else r.rb Kx.semStatus 1 = true ∧ r.plan = u.plan) ∧
    (u.present die = true → u.autoServes .a = true → u.pinned = false →
      Completes (.autocommitWrite t .a (BitVec.ofNat 26 cnt.off) v) s fun r =>
        r.plan.phase = .preparing ∧ r.plan.auto = true ∧ r.plan.staged = [(cnt.off, v, 0)] ∧ r.plan.t = u.now + 4 * usT) ∧
    Completes (.regRead t 0x1008 1) s (fun r => r.out = u.out ++ [.response rOk (bytesOf32 (u.rd Kx.timAnchorCfg))]) ∧
    (regCountOk n = false → Completes (.regRead t off n) s fun r => r.out = u.out ++ [.response rBadArg []]) ∧
    Completes (.regWrite t [(0x40, v)]) s (fun r =>
      r.rd Kx.glbChsel = sel ∧ r.out = u.out ++ [.response rOk (bytesOfNat 4 0)]) ∧
    (regCountOk ws.length = false → Completes (.regWrite t ws) s fun r => r.out = u.out ++ [.response rBadArg []]) ∧
    Completes (.kxaccAccess t 1 0x1008 v) s (fun r =>
      r.dbg.status = kxDone ∧ r.dbg.off = 0x1008 ∧ r.dbg.data = u.rd Kx.timAnchorCfg) ∧
    (isDbg off.toNat = false →
      Completes (.kxaccAccess t 2 off v) s fun r => r.dbg.status = kxError ∧ r.dbg.off = off ∧ r.rb Kx.glbAccerr aeDbgWr = true)

/-- 00_scope R13. The answer of the debug port lies in its access register; an expired lease and an unreachable station are noted by any access (11_management R262, 17_setup_registers R385). -/
def Obligations.ReadsWithoutEffect : Prop :=
  ∀ (s : State) (t : Nat) (off : BitVec 26) (data : Word) (die : Fin 40) (ctr : Fin 320) (mbx : Fin 16) (n : Nat),
    let u := s.advance t
    let o := off.toNat
    let apart := fun (r : State) => r.latches = u.latches ∧ r.mbxs = u.mbxs ∧ (r.stn n).latchA = (u.stn n).latchA ∧
      (r.stn n).latchB = (u.stn n).latchB ∧ (r.ctx n).cpls = (u.ctx n).cpls
    let quietly := u.leaseOver = false ∧
      (0x2000000 ≤ o → o < 0x2280000 → u.reach ((o - 0x2000000) / 0x10000) = true)
    u.hubOn = true → s.sramW = [] → o % 4 = 0 →
    (isPk o = true →
      Completes (.regRead t off 1) s (fun r => apart r ∧ (quietly → Only [.out] u r))) ∧
    Completes (.kxaccAccess t 1 off data) s (fun r => apart r ∧ (quietly → Only [.dbg] u r)) ∧
    Completes (.ftRead t .dbg) s (fun r => Only [.out] u r) ∧
    Completes (.rtcSecRead t .dbg) s (fun r => Only [.out] u r) ∧
    Completes (.mbxAckqRead t .dbg mbx) s (fun r => Only [.out] u r) ∧
    (u.reach die = true →
      Completes (.counterLoRead t .dbg die ctr) s (fun r => Only [.out, .stns] u r ∧ r.stn n = u.stn n) ∧
      Completes (.counterHiRead t .dbg die ctr) s (fun r => Only [.out, .stns] u r ∧ r.stn n = u.stn n))

/-- 16_grayth R378: the freeze offset of GT-2 is a reserved register. -/
def Obligations.FreezeReserved : Prop :=
  ∀ (s : State) (t : Nat) (port : Port) (tee : Bool) (be : BitVec 8) (v : BitVec 64),
    let u := s.advance t
    u.hubOn = true → s.sramW = [] →
    (port ≠ .dbg → Completes (.registerWrite t port tee 0xA0 4 be v) s fun r => Only [] u r) ∧
    Completes (.regRead t 0xA0 1) s (fun r => Only [.out] u r ∧ r.out = u.out ++ [.response rOk [0, 0, 0, 0]]) ∧
    Completes (.kxaccAccess t 1 0xA0 5) s (fun r => Only [.dbg] u r ∧ r.dbg.data = 0)

/-- 11_management R260. TMAX is read within 1 to 1000 ms; a tie of two ports in one hub cycle (R259) is another rule's. -/
def Obligations.LeaseLength : Prop :=
  ∀ (s : State) (t : Nat) (port : Port) (v : Word) (q : CmdRef) (ms : BitVec 10),
    let u := s.advance t
    let l := u.lease
    let tag := BitVec.ofNat 16 (fld v 31 16)
    let len := if fld v 9 0 = 0 then 100 else min 1000 (fld v 9 0)
    let mine := l.kind = okOfPort port ∧ l.tag = tag
    let asked := if ms.toNat = 0 then 100 else min 1000 ms.toNat
    u.hubOn = true →
    (port ≠ .dbg → u.leaseOver = false →
      (l.kind = 0 ∨ mine →
        Completes (.semRequest t port v) s fun r => r.lease.len = len ∧ r.lease.ends = u.now + len * msT) ∧
      (l.kind ≠ 0 → ¬ mine → u.tieWon port = false →
        Completes (.semRequest t port v) s fun r => r.lease = l) ∧
      (¬ mine → Completes (.semRelease t port v) s fun r => r.lease = l)) ∧
    (l.kind = 0 → (u.ctx q.ctx).leaseLost = false → (u.ctx q.ctx).st ≠ csClosed → u.isOper q.ctx = false →
      Completes (.planBegin t q ms) s fun r =>
        r.lease.ends = u.now + min (clampN 1 1000 (u.rf Kx.semCfg 9 0)) asked * msT) ∧
    (l.kind ≠ 0 → l.frozenAt = none → u.pinned = false →
      Completes (.leaseExpiry t) s fun r => if u.now < l.ends then r.lease = l else r.lease.kind = 0)

/-- Plan operations (11_management R260-R270). -/
def Obligations.PlanCommands : Prop :=
  ∀ (s : State) (t : Nat) (q : CmdRef) (ms : BitVec 10) (inl l : List (Word × Word)) (at_ : BitVec 64) (T : Nat) (port : Port) (force : Bool)
    (off v : Word),
    let u := s.advance t
    let c := q.ctx
    let len := if u.isOper c then leaseMs ms.toNat else min (clampN 1 1000 (u.rf Kx.semCfg 9 0)) (leaseMs ms.toNat)
    let n := inl.length + l.length
    u.hubOn = true → u.leaseOver = false →
    (canPost u c = true → (u.ctx c).leaseLost = false →
      (u.lease.kind = 0 →
        Completes (.planBegin t q ms) s fun r =>
          r.lease.kind = okCtx ∧ r.lease.id = c ∧ r.lease.ends = u.now + len * msT ∧ r.plan.phase = .opened ∧ r.plan.staged = [] ∧
            posted u r c (cplOf q opPlanBegin rOk (u.now + len * msT) u.plan.epoch.toNat 0)) ∧
      (u.ctxHolds c = true → u.plan.phase = .opened →
        (inl.length ≤ 4 → u.firstBad c 0 inl = none → u.firstBad c inl.length l = none →
          Completes (.planStage t q inl (some l)) s fun r =>
            r.plan.count = u.plan.count + n ∧ r.lease.ends = u.now + u.lease.len * msT ∧
            (inl = [(off, v)] → l = [] →
              r.plan.staged = (u.plan.staged.filter fun x => x.1 != off.toNat) ++ [(off.toNat, v, (u.ctx c).perm)]) ∧
            posted u r c (cplOf q opPlanStage rOk (u.plan.count + n) 0 n)) ∧
        (u.commitAt at_.toNat = .inl T →
          Completes (.planCommit t q at_) s fun r =>
            r.plan.phase = .preparing ∧ r.plan.t = T ∧ r.plan.parts = u.participants ∧ r.plan.owner = some (c, q.seq, q.irq) ∧
              r.plan.staged = u.plan.staged) ∧
        (0 < at_.toNat → at_.toNat < u.now + 4 * usT →
          Completes (.planCommit t q at_) s fun r =>
            r.plan = u.plan ∧ posted u r c (cplOf q opPlanCommit rTooSoon 0 0 0)) ∧
        Completes (.planRollback t q false) s (fun r =>
          r.plan.phase = .idle ∧ r.plan.staged = [] ∧ r.lease.kind = 0 ∧
            posted u r c (cplOf q opPlanRollback rOk u.now u.plan.count 0)))) ∧
    (port ≠ .dbg → u.portLost port = false → u.lease.kind = okOfPort port →
      (u.plan.phase = .idle →
        Completes (.opBegin t port) s fun r => r.plan.phase = .opened ∧ r.plan.staged = [] ∧ r.plan.result = 0) ∧
      (u.plan.phase = .opened →
        (u.commitAt (u.rd64 Kx.opTLo Kx.opTHi) = .inl T →
          Completes (.opCommit t port) s fun r =>
            r.plan.phase = .preparing ∧ r.plan.t = T ∧ r.plan.parts = u.participants ∧ r.plan.owner = none) ∧
        Completes (.opRollback t port force) s (fun r =>
          r.plan.phase = .idle ∧ r.plan.staged = [] ∧ r.lease.kind = 0 ∧ r.plan.result = 0)))

/-- The steps of a commit of a register path (11_management R271-R273). The hub's swap comes with the first SWAPPED or the check
(log entry 34). -/
def Obligations.PlanSwap : Prop :=
  ∀ (s : State) (t : Nat) (die : Fin 40) (crc : BitVec 32) (v : Word) (old : SMap Word) (e : BitVec 32),
    let u := s.advance t
    let st := u.stn die
    let p := u.plan
    let port := p.owner = none ∧ u.lease.kind ≠ okFw ∧ p.auto = false ∧ p.node = false
    u.hubOn = true →
    (p.phase = .preparing → die.val ∈ p.parts → u.reach die = true →
      Completes (.prepareReceived t die) s (fun r => (r.stn die).prep = some p.t) ∧
      (st.prep = some p.t → die.val ∉ p.answered →
        Completes (.readyReceived t die crc) s fun r =>
          r.plan.answered = p.answered ++ [die.val] ∧
            r.plan.ready = if u.now + usT < p.t ∧ crc = u.shadowCrc die then p.ready ++ [die.val] else p.ready)) ∧
    (p.phase = .preparing → p.t ≤ u.now + usT → port → u.lease.forfeit = none →
      Completes (.commitGo t) s fun r =>
        if p.parts.all (fun n => decide (n ∈ p.ready)) then r.plan.phase = .armed
        else r.plan.phase = .opened ∧ r.plan.result = BitVec.ofNat 8 rNotReady ∧
          r.plan.map = mapOf (p.parts.filter fun n => !(n ∈ p.ready))) ∧
    (p.phase = .armed → u.reach die = true → st.prep = some p.t → u.stnFt die ≤ p.t →
      Completes (.goReceived t die) s fun r => (r.stn die).go = some p.t) ∧
    (p.phase = .armed → u.stnOn die = true → st.go = some p.t → p.t ≤ u.stnFt die → p.t ≤ u.now → p.hubSwapped = false →
      p.staged = [((Kx.stnCntCfg die).off, v, 0)] → die.val ∈ p.parts →
      Completes (.stationSwap t die) s fun r =>
        r.rd (Kx.stnCntCfg die) = u.planned (Kx.stnCntCfg die).off v ∧ (r.stn die).epoch = p.epoch + 1 ∧ r.plan.epoch = p.epoch + 1 ∧
          r.plan.swapped = if u.now ≤ p.t + usT then p.swapped ++ [die.val] else p.swapped) ∧
    (p.phase = .armed → p.nodeSwap = none → p.t + usT ≤ u.now → port → p.hubSwapped = true →
      Completes (.commitCheck t) s fun r =>
        if p.parts.all (fun n => decide (n ∈ p.swapped)) then
          r.plan.phase = .idle ∧ r.plan.result = 0 ∧ r.plan.map = 0 ∧ r.lease.kind = 0 ∧ r.plan.epoch = p.epoch
        else r.plan.phase = .recover ∧ r.plan.rbAt = p.t + 2 * usT ∧ r.plan.rbWait = p.parts) ∧
    (die.val ∈ p.rbWait → u.stnOn die = true → u.reach die = true → u.now ≤ p.rbAt →
      Completes (.rollbackReceived t die) s fun r => (r.stn die).rbAt = some p.rbAt) ∧
    (p.phase = .recover → p.nodeSwap = none → p.rbAt ≤ u.now → port → p.prior = some (old, e) → e = p.rbFrom →
      Completes (.rollbackBoundary t) s fun r =>
        r.plan.epoch = e + 2 ∧ r.plan.phase = .idle ∧ r.plan.result = BitVec.ofNat 8 rSwapMiss ∧ r.plan.map = p.rbMissed ∧
          r.lease.kind = 0)

/-- Port B messages (11_management R278-R280, Tables 11.7, 11.8). The codes of the MCTP control messages are those of DSP0236
(log entry 36). -/
def Obligations.PortBMessages : Prop :=
  ∀ (s : State) (t addr len a : Nat) (data : List Byte) (ctx : Fin 4096) (v : Word) (dest : BitVec 8) (enable : BitVec 2) (x : Nat × BitVec 8 × Bool × Nat),
    let u := s.advance t
    let c := ctx.val
    let off := fun b : Nat => (b + 2 ^ 32 - (u.ctx c).fetch) % 2 ^ 32
    u.hubOn = true → s.sramW = [] →
    (sramArgsOk addr len = true →
      Completes (.sramRead t addr len) s fun r => r.out = u.out ++ [.response rOk (Memory.readBytes s.sram addr len)]) ∧
    (sramArgsOk addr data.length = true →
      Completes (.sramWrite t addr data) s fun r =>
        r.out = u.out ++ [.response rOk []] ∧ Memory.readBytes r.sram addr data.length = data ∧
          (a < addr ∨ addr + data.length ≤ a → Memory.read r.sram a = Memory.read s.sram a)) ∧
    (sramArgsOk addr data.length = false →
      Completes (.sramWrite t addr data) s fun r => r.out = u.out ++ [.response rBadArg []] ∧ r.sram = s.sram) ∧
    ((u.ctx c).ringloc = false →
      Completes (.doorbell t ctx 0 v) s fun r => r.out = u.out ++ [.response rBadArg []] ∧ r.ctxs = u.ctxs) ∧
    ((u.ctx c).ringloc = true → u.pageOpen false c = true → off v.toNat ≤ ringSize (u.rf (Kx.ctxCmdCfg c) 4 0) →
      off (u.ctx c).pi < off v.toNat →
      Completes (.doorbell t ctx 0 v) s fun r => (r.ctx c).pi = v.toNat ∧ r.out = u.out ++ [.response rOk []]) ∧
    Completes (.setNotify t dest enable) s (fun r =>
      r.portB.dest = dest ∧ r.portB.enable = enable ∧ r.out.getLast? = some (.response rOk [])) ∧
    (u.portB.notices = [x] →
      (u.noticeOn x.1 = true → x.2.2.2 + 100 * msT ≤ u.now →
        Completes (.noticeResend t x.1) s fun r =>
          r.out = u.out ++ [.notice u.portB.dest x.1 x.2.1.toNat] ∧ r.portB.notices = [(x.1, x.2.1, x.2.2.1, u.now)]) ∧
      (u.portB.held = [] → Completes (.noticeResponse t x.1) s fun r => r.portB.notices = [])) ∧
    Completes (.mctpControl t mcGetEid []) s (fun r => r.out = u.out ++ [.mctp ccSuccess [u.portB.eid, 0, 0]]) ∧
    (dest ≠ 0 → dest ≠ 0xFF → Completes (.mctpControl t mcSetEid [0, dest]) s fun r => r.portB.eid = dest)

/-- Mailboxes (11_management R281-R283, Tables 11.9, 11.10; 12_isolation R296; 14_startup R356; the choices are log entry 35). -/
def Obligations.Mailboxes : Prop :=
  ∀ (s : State) (t : Nat) (port : Port) (mbx : Fin 16) (v : Word) (x : BitVec 8 × List Word) (l : List (BitVec 8 × List Word)) (bs : List Byte)
    (arg : BitVec 16) (rest : List Word) (text : List Byte),
    let u := s.advance t
    let m := mbx.val
    let d := (u.mbx m).h2f
    let e := (u.mbx m).f2h
    let n := fld v 3 0
    let new := fun r : State => (r.out.drop u.out.length).head?
    let served := fun (r : State) (rc : Option (BitVec 16)) => (r.mbx m).h2f.msgs = l ∧
      (match rc with
       | some c => (r.mbx m).h2f.acks.getLast? = some (x.1, c)
       | none => (r.mbx m).h2f.acks.getLast?.map (·.1) = some x.1)
    u.hubOn = true →
    (port ≠ .dbg → port = u.mbxPort m →
      (u.badPost m n d = false → ∀ dmwr : Bool,
        Completes (.mbxPost t port mbx v dmwr) s fun r =>
          (r.mbx m).h2f.msgs = d.msgs ++ [(d.seq, (List.range n).map fun k => sgetD ((u.mbx m).tx port) k 0)] ∧
            (r.mbx m).h2f.seq = d.seq + 1) ∧
      (u.badPost m n d = true → port = .a →
        Completes (.mbxPost t port mbx v false) s fun r => (r.mbx m).h2f = d ∧ r.rb (Kx.mbxTxstat m) txReject = true) ∧
      (e.msgs = x :: l →
        Completes (.mbxAck t port mbx v) s fun r =>
          (r.mbx m).f2h.msgs = l ∧ (r.mbx m).f2h.acks.getLast? = some (x.1, BitVec.ofNat 16 (fld v 15 0))) ∧
      Completes (.mbxAckqRead t port mbx) s (fun r =>
        r.out = u.out ++ [.read port d.ackWord] ∧ (r.mbx m).h2f.acks = d.acks.drop 1)) ∧
    (d.msgs = x :: l →
      (msgCode x.2 = mcPing → Completes (.ping t mbx) s fun r => served r (some mrOk)) ∧
      (msgCode x.2 = mcDiagRun → Completes (.diagRun t mbx) s fun r => served r none) ∧
      (msgCode x.2 = mcFwActivate → u.fw.staged.isSome = true →
        Completes (.fwActivate t mbx) s fun r => served r (some mrOk) ∧ r.fw.activate = true) ∧
      (u.mbxPtr m = true → u.mbxPort m = .a →
        (msgCode x.2 = mcFwInfo →
          Completes (.fwInfo t mbx true) s fun r => served r (some mrOk) ∧
            new r = some (.mbxBuf m (bufAddr x.2)
              (wordsOfBytes (bytesOfNat 4 u.fw.active.version.toNat ++ bytesOfNat 48 u.fw.active.meas.toNat)))) ∧
        (msgCode x.2 = mcFwStage →
          Completes (.fwStage t mbx (some bs) false) s fun r =>
            served r (some mrOk) ∧ r.fw.chunks = u.fw.chunks ++ bs.take (bufLen x.2)) ∧
        (msgCode x.2 = mcOasisDump → msgArg x.2 = 0 →
          Completes (.oasisDump t mbx true) s fun r =>
            served r (some mrOk) ∧ new r = some (.oasisDump m (bufAddr x.2) (u.oasis u.oasSel).dump)))) ∧
    (u.badPost m (1 + rest.length) e = false →
      Completes (.console t mbx arg rest text) s fun r =>
        (r.mbx m).f2h.msgs = e.msgs ++ [(e.seq, BitVec.ofNat 32 (mcConsole * 2 ^ 16 + arg.toNat) :: rest)]) ∧
    (u.holdsLease port = true → v.getLsbD 30 = true →
      Completes (.oasisClear t port v) s fun r => (r.oasis (if v.getLsbD 29 then .b else .a)).slots = [])

/-- The Seal engine (12_isolation R297-R302), tenants and the scrub (R285, R293, R303, Table 12.11; the scrub's steps are
log entry 34). -/
def Obligations.SealAndTenants : Prop :=
  ∀ (s : State) (t : Nat) (q : CmdRef) (addr tenant : BitVec 64) (x y : BitVec 384) (o : SealOp) (l : List SealOp) (un : Fin 48) (kid : BitVec 32)
    (st : TdiSt),
    let u := s.advance t
    let c := q.ctx
    let seen := fun (r : State) (n : Nat) => (r.ctx n).cpls.drop (u.ctx n).cpls.length
    (u.isOn = true → Completes (.tdiStateChange t st) s fun r => r.sec.tdi = st) ∧
    (u.hubOn = true →
      (canPost u c = true → u.isOper c = false →
        (u.keysOf none < 64 → u.keysOf (some c) < 16 →
          Completes (.keyRegister t q addr (some (x, y))) s fun r =>
            r.sec.ops = u.sec.ops ++
              [{ kind := .register, ctx := c, seq := q.seq, irq := q.irq, x := x.toNat, y := y.toNat, addr := addr.toNat }]) ∧
        ((u.keyReg c kid).isSome = true → u.keyUsed kid = false →
          Completes (.keyRevoke t q kid) s fun r =>
            r.sec.regs = (u.sec.regs.filter fun k => !(k.id == kid && k.ctx == c)) ∧
              posted u r c (cplOf q opKeyRevoke rOk kid.toNat 0 0))) ∧
      (canPost u c = true →
        (u.isOper c = true → u.scrubbing = false →
          (u.sec.tstate = tsNone →
            Completes (.tenantAttach t q tenant) s fun r =>
              r.sec.tstate = tsAttached ∧ r.sec.tenant = tenant ∧ r.sec.serial = u.sec.serial + 1 ∧
                posted u r c (cplOf q opTenantAttach rOk tenant.toNat (u.sec.serial + 1) 0)) ∧
          (u.sec.tstate = tsAttached →
            Completes (.tenantDetach t q) s fun r => r.sec.scrub = 1 ∧ r.sec.scrubBy = some (c, q.seq, q.irq)))) ∧
      (u.sec.tstate = tsAttached → u.scrubbing = false →
        Completes (.tenantChangeSignal t) s fun r => r.sec.scrub = 1 ∧ r.sec.scrubBy = none) ∧
      (u.sec.scrub = 1 → Completes (.scrubStep t) s fun r => r.sec.tstate = tsScrubbing ∧ r.sec.scrub = 2) ∧
      (u.sec.scrub = 2 → u.scrubWaits = false →
        Completes (.scrubStep t) s fun r => r.lease.kind = 0 ∧ r.plan.phase = .idle ∧ r.plan.staged = [] ∧ r.sec.scrub = 3) ∧
      (u.sec.scrub = 8 → Completes (.scrubStep t) s fun r => r.sec.regs = [] ∧ r.sec.keyReady = false ∧ r.sec.scrub = 9) ∧
      (u.sec.scrub = 9 → Completes (.scrubStep t) s fun r => r.oasisA = {} ∧ r.oasisB = {} ∧ r.sec.scrub = 10) ∧
      (u.sec.scrub = 12 →
        Completes (.scrubStep t) s fun r =>
          r.sec.tstate = tsNone ∧ r.sec.tenant = 0 ∧ r.sec.scrub = 0 ∧ r.sec.tfloor = u.jrn.widx ∧ r.sec.qfloor = u.now) ∧
      (u.sec.ops = o :: l → u.sec.opEnds ≤ u.now → o.dead = false →
        (o.kind = .keygen →
          Completes (.sealOpComplete t true) s fun r =>
            r.sec.ops = l ∧ r.sec.keyId = u.sec.nextKey ∧ r.sec.nextKey = u.sec.nextKey + 1 ∧ r.sec.keyReady = true ∧
              r.sec.keyP256 = o.p256) ∧
        (o.kind = .register → o.x = 0 → o.y = 0 → canPost u o.ctx = true →
          Completes (.sealOpComplete t true) s fun r =>
            r.sec.ops = l ∧ (seen r o.ctx).map (fun z => (z.seq, z.op, z.result)) = [(o.seq, opKeyRegister, rAtInfinity)]) ∧
        (o.kind = .sign → canPost u o.ctx = true →
          Completes (.sealOpComplete t true) s fun r =>
            r.sec.ops = l ∧ r.sec.nextKey = u.sec.nextKey + 1 ∧
              r.sec.regs = u.sec.regs ++ [{ id := u.sec.nextKey, ctx := o.ctx, z := o.z }] ∧
              (seen r o.ctx).map (fun z => (z.seq, z.op, z.result, z.v0)) =
                [(o.seq, opKeyRegister, rOk, u.sec.nextKey.toNat)]) ∧
        (o.kind = .seal → waits u = true →
          Completes (.sealOpComplete t true) s fun r =>
            r.sec.ops = l ∧ ((r.src 4).wait.drop (u.src 4).wait.length).map (·.ty) = [.seal])) ∧
      (u.rb Kx.sealCfg 31 = true → u.sec.sealAt + u.sealPeriod ≤ u.now →
        Completes (.sealPeriod t) s fun r =>
          r.sec.sealAt = u.now ∧
            (u.sealOn un = true → 0 < (sgetD u.jrn.gained un (0, 0)).1 →
              sget r.jrn.gained un = none ∧ (r.sec.ops.any fun k => k.kind == .seal && k.unit == un.val) = true)))

/-- SEAL_PUBKEY (12_isolation R297) and DISCLOSE (R295; the layout of the document is the model's, log entry 29). -/
def Obligations.SealDisclosure : Prop :=
  ∀ (s : State) (t : Nat) (q : CmdRef) (buf : BitVec 64) (len : BitVec 32),
    let u := s.advance t
    let c := q.ctx
    u.hubOn = true → canPost u c = true →
      Completes (.sealPubkey t q buf true) s (fun r =>
        (r.out.drop u.out.length).head? = some (.pubkey c buf.toNat (u.dmaTee c) (u.dmaPasid c) u.sec.keyId u.sec.keyP256 u.sealPub.1 u.sealPub.2) ∧
          posted u r c (cplOf q opSealPubkey rOk u.sec.keyId.toNat (b1 u.sec.keyP256) 0)) ∧
      (8 * u.document.length ≤ len.toNat →
        Completes (.disclose t q buf len true) s fun r =>
          posted u r c (cplOf q opDisclose rOk u.sec.serial (8 * u.document.length) 0))

/-- 12_isolation R299. An operator context owns no registration and completes NOPRIV (10_contexts R237). -/
def Obligations.KeyRevocation : Prop :=
  ∀ (s : State) (t : Nat) (q : CmdRef) (kid : BitVec 32) (ctx : Fin 4096),
    let u := s.advance t
    let c := q.ctx
    u.hubOn = true → canPost u c = true →
    (u.isOper c = false →
      ((u.keyReg c kid).isSome = true → u.keyUsed kid = false →
        Completes (.keyRevoke t q kid) s fun r =>
          r.sec.regs = (u.sec.regs.filter fun k => !(k.id == kid && k.ctx == c)) ∧
            posted u r c (cplOf q opKeyRevoke rOk kid.toNat 0 0)) ∧
      ((u.keyReg c kid).isSome = true → u.keyUsed kid = true →
        Completes (.keyRevoke t q kid) s fun r =>
          r.sec.regs = u.sec.regs ∧ posted u r c (cplOf q opKeyRevoke rKeyInUse 0 0 0)) ∧
      ((u.keyReg c kid).isSome = false →
        Completes (.keyRevoke t q kid) s fun r =>
          r.sec.regs = u.sec.regs ∧ posted u r c (cplOf q opKeyRevoke rBadArg 0 0 0))) ∧
    (u.isOper c = true →
      Completes (.keyRevoke t q kid) s (fun r =>
        r.sec.regs = u.sec.regs ∧ posted u r c (cplOf q opKeyRevoke rNoPriv 0 0 0)) ∧
      (16 ≤ ctx.val → (u.ctx ctx).st ≠ csClosed →
        Completes (.ctxClose t q ctx) s fun r => r.sec.regs = u.sec.regs.filter fun k => k.ctx != ctx.val))

/-- 12_isolation R293: on the signal, a unit in ATTACHED begins a scrub exactly as for TENANT_DETACH; a signal during a scrub joins it (R304). -/
def Obligations.TenantChange : Prop :=
  ∀ (s d : State) (t : Nat) (q : CmdRef),
    let u := s.advance t
    u.hubOn = true → s.sramW = [] →
    (u.sec.tstate = tsAttached → u.scrubbing = false → u.isOper q.ctx = true → (u.ctx q.ctx).st ≠ csClosed →
      exec (.tenantDetach t q) s = .next d →
      Completes (.tenantChangeSignal t) s fun r => r = { d with sec := { d.sec with scrubBy := none } } ∧ r.scrubbing = true) ∧
    (u.sec.tstate ≠ tsAttached ∨ u.scrubbing = true → Completes (.tenantChangeSignal t) s fun r => Only [] u r)

/-- Sync ports, node time, steps and triggers of the node (13_node R307, R309, R310, R312, R313; 02_fabric_time R54). The instants of a
step order are the model's (log entry 26). -/
def Obligations.NodeLinks : Prop :=
  ∀ (s : State) (t : Nat) (p : Fin 3) (peer dev : BitVec 6) (delay : BitVec 8) (seq h leg hp : Nat) (probes : List NodeProbe)
    (pr : NodeProbe) (offh : Int) (at_ tk : BitVec 64) (line : Fin 8) (ser : BitVec 8),
    let u := s.advance t
    let x := u.port p
    let who := ((x.peer).map (·.toNat)).getD 0
    let o := (probeHalf pr (signedOf 12 (u.rf (Kx.synPcfg leg) 11 0))).tdiv 2 + pr.offh
    let on := u.rb Kx.synId 31 = true
    u.hubOn = true →
    (u.rb (Kx.synPcfg p) 31 = true → x.st ≠ spRetired →
      Completes (.syncPortTrained t p peer delay) s (fun r => r.port p = { st := spUp, peer := some peer, delay := delay.toNat }) ∧
      Completes (.syncLinkLoss t p) s (fun r => r.port p = { x with st := spTraining, peer := none })) ∧
    (x.st = spUp →
      (u.chanExists (0x6000 + p) = true → (u.chan (0x6000 + p)).st = chActive →
        Completes (.syncReplayRequest t p seq) s fun r =>
          (r.chan (0x6000 + p)).total = (u.chan (0x6000 + p)).total + 1 ∧ .nodeMsg who nmReplay seq 0 ∈ r.out) ∧
      Completes (.nodeProbe t p) s (fun r =>
        r.out = u.out ++ [.nodeMsg who nmTimeReply u.now (BitVec.ofInt 64 u.node.offh).toNat]) ∧
      (u.devId.isSome = true →
        (u.node.seen.any fun y => y.1 == dev.toNat && y.2.1 == ser.toNat) = false →
        Completes (.trigBlockReceived t p dev line ser false) s fun r =>
          r.node.seen.getLast? = some (dev.toNat, ser.toNat, u.now) ∧
            r.out = u.out ++ (u.upPorts.filter fun k => k != p.val).map (fun k => Out.trigBlock k dev.toNat line ser) ∧
            (u.rb (Kx.hubTrigCfg line) 28 = true → r.mesh.length = u.mesh.length + 1) ∧
            (u.rb (Kx.hubTrigCfg line) 28 = false → r.mesh = u.mesh))) ∧
    (on → u.node.isHead = false → u.node.estranged = false → u.node.head = some h → u.route h = some (leg, hp) →
      leg = p.val → x.peer = some dev → u.node.slot ≠ some (u.now / usT) → bestProbe (probes.take 8) = some pr →
      Completes (.nodeTimeExchange t p dev probes) s fun r =>
        r.node.offh = o ∧ r.clk.devTq = (alignNext u.clk.devTq u.node.aligned o).1 ∧ r.node.slot = some (u.now / usT)) ∧
    (u.node.isHead = true → dev.toNat ≠ u.self → u.node.reachable u.now dev.toNat = true →
      (8000 < offh →
        Completes (.nodeStepOrder t dev offh false) s fun r =>
          r.out = u.out ++ [.nodeMsg dev.toNat nmStep ((Int.ofNat u.now - offh).toNat + 6 * usT) (stepTicks offh)]) ∧
      (offh < -8000000 →
        Completes (.nodeStepOrder t dev offh true) s fun r =>
          r.clk.steps = u.clk.steps ++ [(u.now + 50 * usT, stepTicks offh)])) ∧
    (u.inNode = true → u.node.isHead = false →
      Completes (.nodeStepReceived t at_ tk) s fun r => r.clk.steps = u.clk.steps ++ [(at_.toNat, tk.toNat)])

/-- Beacons, the head and aggregation (13_node R315-R321, R327, R328). -/
def Obligations.NodeHead : Prop :=
  ∀ (s : State) (t : Nat) (p : Fin 3) (b : Beacon) (dev : BitVec 6) (x : NodeDev) (port : Port) (v : Word) (wm : BitVec 64) (j c n : Nat)
    (cu : Curd) (l : List NodeItem) (it : NodeItem) (k : BitVec 2) (e : BitVec 32) (y : Sub),
    let u := s.advance t
    let d := dev.toNat
    let beacons := fun (r : State) => r.out.filterMap fun z => match z with | .beacon i _ => some i | _ => none
    u.hubOn = true →
    (u.rb Kx.synId 31 = true →
      Completes (.beaconSend t) s (fun r =>
        r.node.head = u.computeHead ∧ beacons r = beacons u ++ u.upPorts ∧
          (u.node.isHead = false → 1 ≤ u.node.headCand → u.computeHead = some u.self → r.node.isHead = true) ∧
          (u.node.isHead = false → u.node.headCand = 0 → r.node.isHead = false) ∧
          (u.node.isHead = true → u.computeHead ≠ some u.self → r.node.isHead = false ∧ r.node.places = [])) ∧
      ((u.port p).st = spUp →
        (b.dev ≠ u.self →
          Completes (.beaconReceived t p b) s fun r => (sget r.node.devs b.dev).map (fun z => (z.b, z.at_)) = some (b, u.now)) ∧
        (b.dev = u.self → b.echo = false → u.node.dup = false →
          Completes (.beaconReceived t p b) s fun r => r.node.estranged = true ∧ r.rb Kx.synStatus 5 = true))) ∧
    (port ≠ .dbg → u.holdsLease port = true →
      Completes (.headClaim t port v) s fun r =>
        if v.getLsbD 31 then r.node.claim = u.node.claimHi + 1 ∧ r.node.claimHi = u.node.claimHi + 1 else r.node.claim = 0) ∧
    (u.inNode = true → u.node.isHead = false →
      Completes (.nodeProgress t) s fun r => r.out = u.out ++ [.nodeMsg (u.node.head.getD 0) nmProgress u.wm 0]) ∧
    (u.subOf .node = some y → j < y.next →
      Completes (.nodeAckReceived t j) s fun r =>
        (r.subOf .node).map (·.cursor) =
          some (if y.last ≤ max y.cursor (j + 1) then max (max y.cursor (j + 1)) y.next else max y.cursor (j + 1))) ∧
    (sget u.node.devs d = some x →
      (x.at_ + 300 * usT < u.now → Completes (.beaconTimeout t dev) s fun r => sget r.node.devs d = none) ∧
      (u.node.isHead = true →
        Completes (.nodeProgressReceived t dev wm) s (fun r =>
          (sget r.node.devs d).map (·.prog) = some (max x.prog wm.toNat)) ∧
        (u.nodeRoom = true → u.node.nfeat.getLsbD 3 = true → Machine.NodeItem.isLapped it = true ∨ it = .curd j cu ∧ x.got ≤ j →
          Completes (.recFrameReceived t dev it) s fun r => (sget r.node.devs d).map (·.queue) = some (x.queue ++ [it])) ∧
        (u.nodeRing = some (c, n) → u.ringOpen c n = true → (u.ring c n).due = [] → u.nextPlace = some d → x.queue = .curd j cu :: l →
          Completes (.nodePlace t) s fun r =>
            (sget r.node.devs d).map (·.queue) = some l ∧ r.node.places = u.node.places ++ [(d, j, (u.ring c n).pi)] ∧
              (r.ring c n).pi = ((u.ring c n).pi + 1) % 2 ^ 32) ∧
        Completes (.boundaryReport t dev k e) s (fun r =>
          (2 ≤ k.toNat → (sget r.node.devs d).map (·.expect) = some (some e)) ∧
            (k.toNat < 2 → (sget r.node.devs d).map (·.plandiff) = some true ∧ (x.plandiff = false → r.rb Kx.synStatus 4 = true)))))

/-- Node snapshots (13_node R323), node commits (R324-R326, R328) and node queries (R330). -/
def Obligations.NodeCommands : Prop :=
  ∀ (s : State) (t : Nat) (dev : BitVec 6) (at_ parts : BitVec 64) (id e : BitVec 32) (port : Port) (o : NodeOp) (old : SMap Word)
    (a : QueryArgs) (y : Query) (an : Answer),
    let u := s.advance t
    let d := dev.toNat
    let n := u.node
    let T := u.rd64 Kx.synNtLo Kx.synNtHi
    let apart := fun (q : Nat) => u.snaps.all fun z => decide (q + 4 * usT ≤ z.t ∨ z.t + 4 * usT ≤ q)
    let alone := u.plan.owner = none ∧ u.lease.kind ≠ okFw ∧ u.plan.auto = false
    let head := n.head.getD 0
    u.hubOn = true →
    (n.isHead = true → port ≠ .dbg →
      (n.nfeat.getLsbD 0 = true → T ≠ 0 → u.now + 50 * usT ≤ T → apart T = true →
        Completes (.nodeSnapshot t port) s fun r =>
          r.node.snapId = n.snapId + 1 ∧ r.node.result = 0 ∧ r.node.nmap = 0 ∧
            r.snaps = u.snaps ++ [{ id := u.snapId + 1, t := T, asker := none, node := n.snapId + 1 }]) ∧
      (n.nfeat.getLsbD 1 = true → n.op = none → u.now + 50 * usT ≤ T → T ≤ u.now + secT →
        (u.lease.kind = 0 ∨ u.pathTxn = true) →
        Completes (.nodeCommit t port parts 0) s fun r =>
          r.node.op.map (fun z => (z.t, z.ready, z.swapped, z.gone, z.due)) = some (T, [], [], false, T + 10 * usT) ∧
            r.out = u.out ++ [.nodeMsg 64 nmPrepare T 0] ∧
            (u.pathTxn = true → r.plan.phase = .preparing ∧ r.plan.t = T ∧ r.plan.node = true ∧ r.node.nt = some T)) ∧
      (n.nfeat.getLsbD 1 = true → n.op = none → T < u.now + 50 * usT →
        Completes (.nodeCommit t port parts 0) s fun r => r.node.result = BitVec.ofNat 8 rTooSoon ∧ r.node.op = none)) ∧
    (u.inNode = true → n.isHead = false →
      (u.clk.devTq ≠ 3 → u.now + 4 * usT ≤ at_.toNat → apart at_.toNat = true →
        Completes (.nodeSnapshotReceived t at_ id) s fun r =>
          r.snaps = u.snaps ++ [{ id := u.snapId + 1, t := at_.toNat, asker := none, node := id }]) ∧
      (u.pathTxn = true →
        Completes (.nodePrepareReceived t at_) s fun r =>
          r.plan.phase = .preparing ∧ r.plan.t = at_.toNat ∧ r.plan.node = true ∧ r.node.nt = some at_.toNat) ∧
      (u.pathTxn = false → u.lease.kind ≠ 0 →
        Completes (.nodePrepareReceived t at_) s fun r =>
          r.plan = u.plan ∧ r.out = u.out ++ [.nodeMsg head nmReport nrBusy at_.toNat]) ∧
      (u.plan.node = true → u.plan.nodeSwap = some true → u.plan.t + 10 * usT ≤ u.now → alone →
        Completes (.nodeReportDeadline t true) s fun r =>
          r.node.plandiff = false ∧ r.node.nt = none ∧ r.plan.phase = .idle ∧ r.lease.kind = 0 ∧ r.plan.result = 0)) ∧
    (u.plan.node = true → u.plan.phase = .preparing → alone →
      Completes (.nodeGoReceived t true) s (fun r => r.plan.nodeGo = some true ∧ r.plan.phase = .preparing) ∧
      (u.lease.forfeit = none →
        Completes (.nodeGoReceived t false) s fun r =>
          r.plan.phase = .opened ∧ r.plan.result = BitVec.ofNat 8 rNotReady ∧ r.node.nt = none)) ∧
    (n.op = some o →
      (o.gone = false →
        Completes (.nodeReadyReceived t dev) s (fun r => (r.node.op.map fun z => decide (d ∈ z.ready)) = some true) ∧
        (u.plan.node = false → o.t ≤ u.now + 10 * usT →
          Completes (.nodeGoDecision t) s fun r =>
            if (opMissing o u.self u.ownReady o.ready).isEmpty then
              r.node.op = some { o with gone := true } ∧ r.out = u.out ++ [.nodeMsg 64 nmGo 1 o.t]
            else
              r.node.op = none ∧ r.node.result = BitVec.ofNat 8 rNotReady ∧
                r.node.nmap = devMap (opMissing o u.self u.ownReady o.ready) ∧ r.out = u.out ++ [.nodeMsg 64 nmGo 0 0])) ∧
      (n.isHead = true →
        Completes (.nodeSwapReportReceived t dev (BitVec.ofNat 2 nrSwapped)) s (fun r =>
          (r.node.op.map fun z => decide (d ∈ z.swapped)) = some true) ∧
        (o.gone = true → o.missed = none → o.due ≤ u.now → u.plan.node = false →
          Completes (.nodeReportDeadline t true) s fun r =>
            if (opMissing o u.self (u.plan.nodeSwap == some true) o.swapped).isEmpty then
              r.node.op = none ∧ r.node.result = 0 ∧ r.node.nmap = 0
            else
              r.node.result = BitVec.ofNat 8 rSwapMiss ∧
                r.out = u.out ++ [.nodeMsg 64 nmRollback (o.due + 10 * usT) 0] ∧
                (r.node.op.map (·.missed)) = some (some (devMap (opMissing o u.self (u.plan.nodeSwap == some true) o.swapped)))) ∧
        (o.missed.isSome = true → o.due + 10 * usT ≤ u.now →
          Completes (.nodeRollback t) s fun r =>
            r.node.op = none ∧
              (u.plan.node = true → u.plan.nodeSwap = some true → u.plan.prior = some (old, e) → alone →
                r.plan.epoch = e + 2 ∧ r.plan.phase = .idle ∧ r.lease.kind = 0 ∧ r.plan.result = BitVec.ofNat 8 rSwapMiss)))) ∧
    (u.nodeQueries = true → u.inNode = true → u.churn.qs.length < 64 →
      Completes (.nodeQueryReceived t dev a) s fun r =>
        r.churn.qs.length = u.churn.qs.length + 1 ∧
          (r.churn.qs.getLast?).map (fun z => (z.id, z.args, z.from_, z.since)) = some (u.churn.nextQ, a, some d, u.now)) ∧
    (u.churn.qs = [y] →
      (d ∈ y.waiting →
        Completes (.nodeQueryAnswerReceived t y.id dev an) s fun r =>
          r.churn.qs = [{ y with waiting := y.waiting.filter (· != d), node := some (y.node.getD [] ++ [(d, an)]) }]) ∧
      (y.waiting ≠ [] → y.since + msT ≤ u.now →
        Completes (.nodeQueryTimeout t y.id) s fun r => r.churn.qs = [{ y with waiting := [], partial_ := true }]))

/-- The life of a channel (14_startup R346-R351, Table 14.4). -/
def Obligations.ChannelLife : Prop :=
  ∀ (s : State) (t : Nat) (port : Port) (ch : BitVec 16) (leg : Nat),
    let u := s.advance t
    let n := ch.toNat
    let c := u.chan n
    u.hubOn = true →
    (u.chanExists n = true → c.st = chActive →
      (winOf u.now ≤ c.win →
        Completes (.channelError t ch) s (fun r =>
          (r.chan n).evwin = min 0xFFFF (c.evwin + 1) ∧ (r.chan n).total = c.total + 1 ∧ (r.chan n).retry = 0) ∧
        (leg < 42 → meshLeg leg = n →
          Completes (.meshParityError t leg) s fun r =>
            (r.chan n).evwin = min 0xFFFF (c.evwin + 1) ∧ (r.chan n).total = c.total + 1)) ∧
      Completes (.channelRetryResult t ch true) s (fun r => (r.chan n).retry = 0 ∧ (r.chan n).st = chActive) ∧
      Completes (.channelRetryResult t ch false) s (fun r =>
        (r.chan n).retry = min 3 (c.retry + 1) ∧ (r.chan n).st = if 2 ≤ c.retry then chRetired else chActive) ∧
      (c.win < winOf u.now →
        Completes (.channelWindowClose t ch) s fun r =>
          (r.chan n).evwin = 0 ∧ (r.chan n).win = winOf u.now ∧
            (r.chan n).st = (if 10 ≤ c.evwin ∧ 2 ≤ c.hot then chRetired else chActive) ∧
            (c.evwin < 10 → (r.chan n).hot = 0))) ∧
    (u.holdsLease port = true → u.chanExists u.chSel = true →
      ((u.chan u.chSel).st = chRetired →
        Completes (.channelRestore t port) s fun r => (r.chan u.chSel).st = chRestoring ∧ r.rb Kx.glbChctl 31 = true) ∧
      Completes (.channelRetire t port) s (fun r => (r.chan u.chSel).st = chRetired)) ∧
    (c.st = chRestoring →
      Completes (.channelRestoreDone t ch true) s (fun r => (r.chan n).st = chActive ∧ r.rb Kx.glbChctl 31 = false) ∧
      Completes (.channelRestoreDone t ch false) s (fun r => (r.chan n).st = chRetired ∧ r.rb Kx.glbChctl 31 = false))

/-- 14_startup R350: a retired channel stays in the table as RETIRED, and KX_GLB_STATUS.RETIRED counts it. RESTORE (R351), by its own command or as a register write, is what leads out. -/
def Obligations.RetiredStays : Prop :=
  ∀ (s r : State) (i : Instr) (t n : Nat) (port : Port),
    let u := s.advance t
    let byHost := fun (j : Instr) => match j with
      | .coldReset _ _ _ _ | .retentionSupplyLoss _ | .channelRestore _ _ | .registerWrite _ _ _ _ _ _ _ | .regWrite _ _ => true
      | .rwpWrite _ _ _ _ _ _ | .autocommitWrite _ _ _ _ => true
      | _ => false
    (u.hubOn = true → u.holdsLease port = true → u.chanExists u.chSel = true →
      Completes (.channelRetire t port) s fun x =>
        (x.chan u.chSel).st = chRetired ∧ sget x.chans u.chSel = some (x.chan u.chSel)) ∧
    fld s.glbStatusWord 23 16 = min 255 (s.chans.filter fun e => e.2.st == chRetired).length ∧
    (byHost i = false → exec i s = .next r → (s.chan n).st = chRetired → (r.chan n).st = chRetired)

/-- The hub pair (14_startup R336, R337, R342-R345), the standby's confirmations (06_admission R138) and the service cores
(01_unit_anatomy R26, 17_setup_registers R391). -/
def Obligations.HubPair : Prop :=
  ∀ (s : State) (t : Nat) (port : Port) (a b pv : Bool) (h : HubId) (both prev : Bool) (cause : BitVec 8) (t0 c : Nat) (k core : Fin 8)
    (fc : BitVec 2) (m e : BitVec 64) (v : Word),
    let u := s.advance t
    let p := u.pair
    let mirrored := p.stbyOk = true ∧ (u.chan 0x7000).st ≠ chRetired
    let base := if v.getLsbD 8 then 8 else 0
    (u.isOn = true →
      (p.warm = false → (p.ready = true ∨ p.bootFail = true) →
        Completes (.rstN t) s fun r => r.pair.warm = true ∧ r.pair.lastRst = lrRstN ∧ r.pair.takeover = none ∧ r.sram = [] ∧ r.pins = []) ∧
      (p.warm = true →
        (bootChoice p.active a b pv = some (h, both, prev) →
          Completes (.hubPairResume t a b pv) s fun r =>
            r.pair.warm = false ∧ r.pair.ready = true ∧ r.pair.active = h ∧
              (both = true → p.stbyFenced = false → r.pair.stbyOk = true)) ∧
        (bootChoice p.active a b pv = none →
          Completes (.hubPairResume t a b pv) s fun r =>
            r.pair.ready = false ∧ r.pair.bootFail = true ∧ r.pair.lastRst = lrBootFail)) ∧
      (p.takeover = some (t0, c) →
        (t0 + 20 * usT ≤ u.now → Completes (.fenceTimeout t) s fun r => r.pair.fenceReq = true) ∧
        Completes (.fenceConfirm t) s (fun r =>
          r.pair.active = otherHub p.active ∧ r.pair.takeover = none ∧ r.pair.takeovers = min 255 (p.takeovers + 1) ∧
            r.rb Kx.glbCtl 30 = false ∧ (c = tcPlanned → p.stbyFenced = false → r.pair.stbyOk = true) ∧
            (c ≠ tcPlanned → r.pair.stbyOk = false))) ∧
      ((fld (u.rd Kx.dbgCtl) 23 16 = 0 ∨ v.getLsbD 8 = (u.rd Kx.dbgCtl).getLsbD 8) →
        Completes (.coreHalt t .dbg v) s fun r => (r.core (base + core)).halted = v.getLsbD (16 + core))) ∧
    (u.hubOn = true →
      (mirrored →
        Completes (.heartbeatTimeout t) s (fun r => r.pair.takeover = some (u.now, tcSilent)) ∧
        Completes (.hubSelfFault t cause) s (fun r =>
          r.pair.takeover = some (u.now, if cause = 3 then tcWatchdog else tcSelf)) ∧
        (u.holdsLease port = true → port ≠ .dbg →
          Completes (.switch t port) s fun r => r.pair.takeover = some (u.now, tcPlanned) ∧ r.rb Kx.glbCtl 30 = true)) ∧
      (¬ mirrored →
        Completes (.heartbeatTimeout t) s (fun r => r.pair.warm = true ∧ r.pair.lastRst = lrBoth) ∧
        Completes (.hubSelfFault t cause) s (fun r => r.pair.warm = true ∧ r.pair.lastRst = lrBoth)) ∧
      (u.holdsLease port = true → port ≠ .dbg →
        Completes (.warmrst t port) s fun r => r.pair.warm = true ∧ r.pair.lastRst = lrWarm ∧ r.sram = []) ∧
      (p.stbyOk = false → p.stbyFenced = false → Completes (.hubRejoin t) s fun r => r.pair.stbyOk = true) ∧
      (p.stbyOk = true → Completes (.standbyHubLoss t) s fun r => r.pair.stbyOk = false ∧ (r.src k).wait = []) ∧
      ((u.core (u.coreIdx core)).fault = false →
        Completes (.serviceCoreFault t core fc m e) s fun r => (r.core (u.coreIdx core)).fault = true))

/-- Cold start (14_startup R333, R334; what survives it is log entry 39), the supplies (18_integration R400), station resets (R338), port
resets (R339), job restarts (R340, R341) and uncorrectable memory errors (R353). -/
def Obligations.Resets : Prop :=
  ∀ (s : State) (t : Nat) (a b pv : Bool) (h : HubId) (both prev : Bool) (die : Fin 40) (c at_ slot : Nat) (addr : BitVec 24),
    let u := s.advance t
    let st := u.stn die
    (bootChoice .a a b pv = some (h, both, prev) →
      Completes (.coldReset t a b pv) s fun r =>
        r.isOn = true ∧ r.pair.ready = true ∧ r.pair.active = h ∧ r.pair.lastRst = lrPorst ∧ r.clk.now = min t (2000 * usT) ∧
          r.sec.keyReady = true ∧ (s.present die = true → (r.stn die).inReset = false ∧ (r.stn die).servo.st = svLocked)) ∧
    (bootChoice .a a b pv = none →
      Completes (.coldReset t a b pv) s fun r => r.pair.ready = false ∧ r.pair.bootFail = true) ∧
    Completes (.powerLoss t) s (fun r => r.pair.power = .off ∧ r.pair.ready = false ∧ r.pins = []) ∧
    Completes (.retentionSupplyLoss t) s (fun r =>
      r.oasisA.slots = [] ∧ r.oasisB.slots = [] ∧
        (u.isOn = true → u.present die = true → (r.stn die).closed = [] ∧ (r.stn die).cur = none)) ∧
    (u.isOn = true →
      Completes (.porstNAssert t) s (fun r => r.pair.power = .porst ∧ r.pair.ready = false ∧ r.pins = []) ∧
      (u.stnOn die = true →
        Completes (.stationResetEntry t die) s (fun r =>
          (r.stn die).inReset = true ∧ (r.stn die).reload = false ∧ (r.stn die).cur = none ∧
            (r.stn die).closed.all (fun z => z.st == .unsent) = true) ∧
        Completes (.sramUncorr t 2 die addr) s (fun r => (r.stn die).inReset = true)) ∧
      (u.stnHeld die = false → st.inReset = true → u.present die = true →
        Completes (.stationResetExit t die) s fun r => (r.stn die).inReset = false ∧ (r.stn die).servo.st = svAcquire) ∧
      Completes (.portAReset t) s (fun r =>
        r.msix = {} ∧ (u.lease.kind = okPortA → u.pinned = false → r.lease.kind = 0) ∧
          (u.ctxs.map (·.1) = [c] → (u.ctx c).ringloc = false → (u.ctx c).st = csRunning → (r.ctx c).st = csStopped)) ∧
      Completes (.portBReset t) s (fun r =>
        r.portB.eid = 0 ∧ r.portB.enable = 0 ∧ r.portB.notices = [] ∧
          (u.lease.kind = okPortB → u.pinned = false → r.lease.kind = 0)) ∧
      (u.lease.kind = okPortA →
        Completes (.portAFatalError t) s fun r => .a ∈ r.lease.fence ∧ (u.pinned = false → r.lease.kind = 0))) ∧
    (u.hubOn = true →
      (u.reach die = true → st.reload = false →
        Completes (.stationReload t die) s fun r => (r.stn die).reload = true ∧ (r.stn die).epoch = u.plan.epoch) ∧
      (u.pair.restart = none →
        Completes (.jobRestartSignal t) s fun r => r.pair.restart = some (u.now + 4 * usT)) ∧
      (u.pair.restart = some at_ → u.pinned = false → at_ ≤ u.now → u.plan.t + usT ≤ at_ → u.plan.rbAt + usT ≤ at_ →
        Completes (.jobRestartBoundary t) s fun r =>
          r.pair.restart = none ∧ r.plan.epoch = u.plan.epoch + 1 ∧
            (u.stnOn die = true → (r.stn die).epoch = u.plan.epoch + 1)) ∧
      Completes (.sramUncorr t 7 slot addr) s (fun r =>
        slot ∈ (if u.pair.active = .a then r.oasisA else r.oasisB).bad))

/-- 11_management R276. The ledger notes the instant of the boundary. -/
def Obligations.RestartDefers : Prop :=
  ∀ (s : State) (t a : Nat),
    let u := s.advance t
    let p := u.plan
    let last := max p.t (if p.rbAt ≤ u.now then p.rbAt else 0)
    let b := max a (last + usT)
    u.hubOn = true → s.sramW = [] → u.pair.restart = some a →
    (u.pinned = true → Completes (.jobRestartBoundary t) s fun r => Only [] u r) ∧
    (u.pinned = false → p.t ≤ u.now → u.now < b → Completes (.jobRestartBoundary t) s fun r => Only [] u r) ∧
    (u.pinned = false → p.t ≤ u.now → b ≤ u.now →
      Completes (.jobRestartBoundary t) s fun r =>
        r.plan.epoch = p.epoch + 1 ∧ r.pair.restart = none ∧ (u.ledOn = true → b ∈ r.led.closeAt))

/-- The egress port (15_egress R362, R363, R371) and the Caravan streams (R364, R366-R369). -/
def Obligations.Egress : Prop :=
  ∀ (s : State) (t : Nat) (port : Port) (k : Fin 16) (v : Word) (csn : Nat) (cu : Curd) (l : List Nat) (ses : BitVec 32) (y : Sub)
    (cum cumJ win : BitVec 64) (bm : BitVec 256) (f : RxFrame) (sub : Fin 4) (i : CsnKind) (e w : Nat),
    let u := s.advance t
    let x := u.strm k
    let ready := x.st ≠ esOff ∧ u.strmDown k = false ∧ x.wait = false ∧ x.paceAt ≤ u.now ∧ u.cvTurn k = true
    u.hubOn = true →
    (port ≠ .dbg → u.holdsLease port = true →
      (x.st = esOff →
        Completes (.streamStart t port k v) s fun r =>
          (r.strm k).st = esSend ∧ r.egr.session = u.egr.session + 1 ∧ (r.strm k).session = u.egr.session + 1 ∧
            (r.strm k).next = 0 ∧ (r.subOf (.stream k)).isSome = true) ∧
      (x.st = esSend →
        Completes (.streamEnd t port k v) s fun r =>
          (r.strm k).st = esEnding ∧ (r.strm k).endAt = some u.now ∧ r.rb (Kx.egrScfg k) 31 = false)) ∧
    (ready →
      (x.resend = csn :: l → x.sent = [(csn, i, e, w)] →
        Completes (.caravanSend t k) s fun r => (r.strm k).resend = l ∧ (r.strm k).sent = [(csn, i, u.now, w + 1)]) ∧
      (x.resend = [] → x.retry = [] → x.next ≤ x.window →
        (x.st = esSend → u.subOf (.stream k) = some y → y.lap = none → y.next < u.jrn.delivTo → u.strmCurd k y.next = some cu →
          Completes (.caravanSend t k) s fun r =>
            (r.strm k).next = x.next + 1 ∧ (r.strm k).sent = x.sent ++ [(x.next, .data y.next, u.now, 0)] ∧
              r.out = u.out ++ [.caravan (u.cvFrame k ptData (packetFlags false cu.filtered) x.next y.next (cu.words.flatMap bytesOf64))] ∧
              (r.subOf (.stream k)).map (·.next) = some (y.next + 1)) ∧
        (x.st = esEnding → (x.sent.any fun z => z.2.1 == .endMark) = false → ((u.subOf (.stream k)).bind (·.lap)) = none →
          Completes (.caravanSend t k) s fun r =>
            r.out = u.out ++ [.caravan (u.cvFrame k ptEnd 0 x.next 0 (beBytes 8 x.next))]))) ∧
    (x.st ≠ esOff →
      (x.session = ses → x.wait = false → x.endAt = none → u.subOf (.stream k) = some y → cum.toNat + 1 < 2 ^ 64 →
        cum.toNat + 1 ≤ x.next → bm = 0 → x.cum = none →
        Completes (.caravanAck t k ses cum cumJ win bm) s fun r =>
          (r.strm k).ackAt = u.now ∧ (r.strm k).window = win.toNat ∧ (r.strm k).cum = some (cum.toNat, cumJ.toNat) ∧
            (r.strm k).sent = x.sent.filter (fun z => decide (cum.toNat + 1 ≤ z.1)) ∧ (r.strm k).st ≠ esStalled ∧
            (r.subOf (.stream k)).map (·.cursor) = some (max y.cursor (cumJ.toNat + 1))) ∧
      (x.session ≠ ses →
        Completes (.caravanAck t k ses cum cumJ win bm) s fun r => r.rf Kx.egrStatus 15 8 = min 255 (u.rf Kx.egrStatus 15 8 + 1)) ∧
      (u.strmDown k = false → x.sent = [(csn, i, e, w)] → csn ∉ x.holds → e + u.rto ≤ u.now → csn ∉ x.resend → csn ∉ x.retry →
        x.wait = false → u.now < max x.ackAt x.probeAt + u.rto → x.st = esSend →
        Completes (.retransmitTimeout t k csn) s fun r => (r.strm k).retry = x.retry ++ [csn]) ∧
      (x.st = esSend → x.endAt = none → x.sent ≠ [] → x.ackAt + u.dead ≤ u.now →
        Completes (.streamStall t k) s fun r => (r.strm k).st = esStalled)) ∧
    (u.rb Kx.egrCfg 31 = true →
      (f.pause = true →
        Completes (.egressFrameRx t f) s fun r =>
          r.rb Kx.egrStatus 17 = true ∧ r.rf Kx.egrStatus 15 8 = min 255 (u.rf Kx.egrStatus 15 8 + 1)) ∧
      (f.pause = false → u.keeps f = false →
        Completes (.egressFrameRx t f) s fun r => r.rf Kx.egrStatus 15 8 = min 255 (u.rf Kx.egrStatus 15 8 + 1)) ∧
      (f.pause = false → u.keeps f = true → Completes (.egressFrameRx t f) s fun r => r.rd Kx.egrStatus = u.rd Kx.egrStatus) ∧
      (u.egr.up ≠ 0 →
        Completes (.neighborSolicitation t u.egrAddr) s fun r => r.out = u.out ++ [.neighborAdv u.egrAddr]) ∧
      (u.egrMode = 0 → u.laneWidth ≠ u.egr.width ∨ u.egr.owed ≠ 0 → (u.laneWidth = 0 → u.resendsPending = false) →
        Completes (.portRestart t) s fun r =>
          r.egr.width = u.laneWidth ∧ r.subUp 0 = false ∧ r.rf Kx.egrStatus 7 0 = min 255 (u.rf Kx.egrStatus 7 0 + 1))) ∧
    (u.subOk sub = true → u.subUp sub = false → Completes (.subportUp t sub) s fun r => r.subUp sub = true) ∧
    (u.subUp sub = true → Completes (.egressLinkDown t sub) s fun r => r.subUp sub = false)

/-- The raw record stream (16_grayth R373-R376, R379). -/
def Obligations.Gray : Prop :=
  ∀ (s : State) (t : Nat) (v : Word) (y : Sub) (cu : Curd) (a b : Nat),
    let u := s.advance t
    let g := u.gray
    let base := u.rf Kx.glbGrayBaseLo 31 12 * 4096 + 2 ^ 32 * (u.rd Kx.glbGrayBaseHi).toNat
    let wba := u.rf Kx.glbGrayWbaLo 31 3 * 8 + 2 ^ 32 * (u.rd Kx.glbGrayWbaHi).toNat
    let w := (g.wptr + 1) % 2 ^ 32
    let d := (v.toNat + 2 ^ 32 - g.rptr) % 2 ^ 32
    u.hubOn = true →
    (u.holdsLease .a = true →
      (u.rb Kx.glbGrayCfg 31 = false → u.jrnOn = true →
        Completes (.grayEnable t .a v) s fun r =>
          r.gray.running = true ∧ r.gray.wptr = 0 ∧ r.gray.rptr = 0 ∧ r.rb Kx.glbGrayCfg 31 = true ∧
            (r.subOf .gray).map (·.next) = some u.jrn.widx) ∧
      (u.rb Kx.glbGrayCfg 31 = true →
        Completes (.grayDisable t .a v) s fun r =>
          r.gray.running = false ∧ r.rb Kx.glbGrayCfg 31 = false ∧ r.subOf .gray = none)) ∧
    (u.subOf .gray = some y → g.running = true → u.grayFull = false →
      (y.lap = none → y.next < u.jrn.delivTo →
        ((u.jrn.mem.find? fun e => e.1 == y.next).bind fun e => u.selectCurd {} grayArgs e.2) = some cu →
        Completes (.grayPlace t) s fun r =>
          r.gray.wptr = w ∧ (r.subOf .gray).map (·.next) = some (y.next + 1) ∧
            r.out = u.out ++ [.raw (base + 4096 * (g.wptr % u.grayLen)) cu.words, .raw wba [BitVec.ofNat 64 w]]) ∧
      (y.lap = some (a, b) →
        Completes (.grayPlace t) s fun r =>
          r.gray.wptr = w ∧ (r.subOf .gray).map (·.lap) = some none ∧
            r.out = u.out ++ [.raw (base + 4096 * (g.wptr % u.grayLen)) (skipBlock a b), .raw wba [BitVec.ofNat 64 w]])) ∧
    (d ≠ 0 → d < 2 ^ 31 →
      Completes (.grayRptrWrite t .a v) s fun r =>
        if d ≤ (g.wptr + 2 ^ 32 - g.rptr) % 2 ^ 32 then r.gray.rptr = v.toNat
        else r.gray.rptr = g.rptr ∧ r.rb Kx.glbGrayStat 15 = true)

/-- The frames of the commands of a tap of a station: the parts, registers and stations that each may change; the rest stays. They follow from the rules of
each command taken together, no rule of the spec says them in one sentence. -/
def Obligations.FrameTaps : Prop :=
  ∀ (t cyc burst : Nat) (die : Fin 40) (tap : Fin 32) (lines : BitVec 64) (p1 flow : Bool) (idx arg step : BitVec 32) (addr :
      BitVec 48) (stall src len : BitVec 16) (data : BitVec 128) (entry wid : Fin 64) (slice : Fin 8) (key : Fin 96) (handle :
      BitVec 21) (code : BitVec 4) (tid : BitVec 24) (data2 : List Byte),
    Frame t [.mesh, .snapId, .snaps, .taps, .watches] ((tapRegs die).map (·.off)) [die.val] (.eventLineSample t die tap
      lines p1 cyc) ∧
    Frame t [.mesh, .snapId, .snaps, .taps, .watches] ((tapRegs die).map (·.off)) [die.val] (.commandIssue t die tap idx) ∧
    Frame t [.mesh, .snapId, .snaps, .taps, .watches] ((tapRegs die).map (·.off)) [die.val] (.commandRetire t die tap idx
      addr stall p1 cyc) ∧
    Frame t [.mesh, .snapId, .snaps, .taps, .watches] ((tapRegs die).map (·.off)) [die.val] (.markerBeat t die tap src data
      p1 cyc) ∧
    Frame t [.mesh, .snapId, .snaps, .taps, .watches] ((tapRegs die).map (·.off)) [die.val] (.rptAgeTimeout t die entry) ∧
    Frame t [.mesh, .snapId, .snaps, .taps, .watches] ((tapRegs die).map (·.off)) [die.val] (.markerTimeout t die tap) ∧
    Frame t [.mesh, .snapId, .snaps, .taps, .watches] ((tapRegs die).map (·.off)) [die.val] (.markerQueueDrain t die slice) ∧
    Frame t [.mesh, .snapId, .snaps, .taps, .watches] ((tapRegs die).map (·.off)) [die.val] (.stallHoldRelease t die tap
      flow) ∧
    Frame t [.mesh, .snapId, .snaps, .taps, .watches] ((tapRegs die).map (·.off)) [die.val] (.stallHoldTimeout t die tap
      flow) ∧
    Frame t [.mesh, .snapId, .snaps, .taps, .watches] ((tapRegs die).map (·.off)) [die.val] (.stallRearm t die key) ∧
    Frame t [.mesh, .snapId, .snaps, .taps, .watches] ((tapRegs die).map (·.off)) [die.val] (.flowEvent t die tap handle
      code arg p1 cyc) ∧
    Frame t [.mesh, .snapId, .snaps, .taps, .watches] ((tapRegs die).map (·.off)) [die.val] (.tensorTag t die tap tid step
      addr len p1 cyc) ∧
    Frame t [.mesh, .snapId, .snaps, .taps, .watches] ((tapRegs die).map (·.off)) [die.val] (.endTag t die tap tid step addr
      p1 cyc) ∧
    Frame t [] [] [die.val] (.tensorReadComplete t die burst data2) ∧
    Frame t [] [(Kx.stnTwStat0 die).off] [die.val] (.tensorReadDeadline t die burst) ∧
    Frame t [.mesh, .snapId, .snaps, .taps, .watches] ((tapRegs die).map (·.off)) [die.val] (.accumIdleTimeout t die wid) ∧
    Frame t [.mesh, .snapId, .snaps, .taps, .watches] ((tapRegs die).map (·.off)) [die.val] (.dieFreqChange t die)

/-- The frames of the commands of the links, counters, captures and clock of a station: the parts, registers and stations that each may change; the rest stays. They follow from the rules of
each command taken together, no rule of the spec says them in one sentence. -/
def Obligations.FrameStations : Prop :=
  ∀ (t first turn cycles at_ : Nat) (u : Fin 48) (src : BitVec 16) (lkind cause : BitVec 4) (die : Fin 40) (rsv : Bool)
      (port : Port) (ctr : Fin 320) (ctr2 : Fin 256) (value : Word) (hi : Option Word) (id : BitVec 32) (q : CmdRef) (tq : BitVec 64) (sl : Fin 4),
    Frame t [.jrn, .mesh, .snapId, .snaps, .srcs, .taps, .watches] ((tapRegs u).map (·.off)) [u.val] (.curdFlushTimeout t u) ∧
    Frame t [.jrn, .mesh, .snapId, .snaps, .srcs, .taps, .watches] ((tapRegs u).map (·.off)) [u.val] (.gapFlushTimeout t u
      src lkind cause) ∧
    Frame t [.jrn] (covf die) [die.val] (.curdSend t die) ∧
    Frame t [] [] [die.val] (.resendRequest t die) ∧
    Frame t [] [] [die.val] (.ackReceived t die rsv first) ∧
    Frame t [.jrn] (covf die) [die.val] (.retireNotice t die rsv first) ∧
    Frame t [.chans, .churn, .clk, .egr, .jrn, .led, .node, .pair, .regs, .snaps, .srcs, .stns] [] [] (.resendTimeout t die
      rsv first) ∧
    Frame t [] [] [die.val] (.timeExchangeRequest t die) ∧
    Frame t [] [] [die.val] (.timeExchangeReply t die turn) ∧
    Frame t [] [] [die.val] (.timeReplyReceived t die) ∧
    Frame t [.snaps] ([(Kx.stnTstat die).off] ++ covf die) [die.val] (.servoGroupEnd t die) ∧
    Frame t [.snaps] ([(Kx.stnTstat die).off] ++ covf die) [die.val] (.holdoverTimeout t die) ∧
    Frame t [] (covf die) [die.val] (.tsyncPeriodic t die) ∧
    Frame t [.clk, .jrn, .srcs, .stns] [(Kx.timStatus).off] [] (.refclkLoss t) ∧
    Frame t [.clk, .jrn, .srcs] [] [] (.refclkReturn t cycles) ∧
    Frame t [.clk, .jrn, .node, .regs, .srcs, .stns] [] [] (.ftStepApply t) ∧
    Frame t [.out] [(Kx.glbAccaddr).off, (Kx.glbAccerr).off] [die.val] (.counterLoRead t port die ctr) ∧
    Frame t [.out] [(Kx.glbAccaddr).off, (Kx.glbAccerr).off] [die.val] (.counterHiRead t port die ctr) ∧
    Frame t [.sec] [(Kx.glbAccaddr).off, (Kx.glbAccerr).off, (Kx.semStatus).off] [die.val] (.counterHiWrite t port die ctr2
      value) ∧
    Frame t [.sec, .snaps] ([(Kx.glbAccaddr).off, (Kx.glbAccerr).off, (Kx.semStatus).off, (Kx.stnCntStat die).off] ++ covf
      die) [die.val] (.counterLoWrite t port die ctr2 value hi) ∧
    Frame t [.mesh, .snapId, .snaps, .taps, .watches] ((tapRegs die).map (·.off)) [die.val] (.periodicCapture t die) ∧
    Frame t [.mesh, .snapId, .snaps, .taps, .watches] ((tapRegs die).map (·.off)) [die.val] (.aoCapture t die) ∧
    Frame t [.mesh, .snapId, .snaps, .taps, .watches] ((tapRegs die).map (·.off)) [die.val] (.snapCapture t die id) ∧
    Frame t [] [] [die.val] (.captureWriteDone t die at_) ∧
    Frame t [.ctxs, .msix, .out, .portB, .snapId, .snaps, .sram] [(Kx.ctxStatus q.ctx).off] [] (.snapshot t q tq) ∧
    Frame t [.out, .snapId, .snaps] [] [] (.snapshotMsg t tq) ∧
    Frame t [.ctxs, .jrn, .msix, .out, .portB, .regs, .snaps, .sram, .srcs] [] [] (.snapRecordAdmit t id) ∧
    Frame t [] (covf die) [die.val] (.bwWindowClose t die sl) ∧
    Frame t [.snaps] [] [die.val] (.snapshotCommandReceived t die id)

/-- The frames of the commands of the journal, its sinks and skimming: the parts, registers and stations that each may change; the rest stays. They follow from the rules of
each command taken together, no rule of the spec says them in one sentence. -/
def Obligations.FrameJournal : Prop :=
  ∀ (t jidx : Nat) (reqs : List (Fin 48)) (die : Fin 40) (crcOk : Bool) (u : Fin 48) (src ring : Fin 8) (port : Port) (value :
      Word) (sink : Sink) (ctx : Fin 4096) (lever idx : BitVec 8),
    Frame t [.jrn, .srcs, .stns] [(Kx.hubPoolStat).off] [] (.poolRequest t reqs) ∧
    Frame t [.jrn, .srcs, .stns] [] [] (.poolBufferFree t jidx) ∧
    Frame t [.chans, .churn, .clk, .egr, .jrn, .led, .node, .pair, .regs, .snaps, .srcs, .stns] [] [] (.curdReceived t die
      crcOk) ∧
    Frame t [.jrn, .srcs, .subs] [(Kx.hubJrnStatus).off] [] (.journalTake t u) ∧
    Frame t [.churn, .jrn, .oasisA, .oasisB, .progs, .snaps, .srcs, .wm] [] [] (.journalWriteComplete t jidx) ∧
    Frame t [.jrn] [] [] (.curdDelivery t jidx) ∧
    Frame t [.jrn, .srcs] [] [] (.peerConfirm t src) ∧
    Frame t [.mirror] [] [] (.mirrorUpdate t) ∧
    Frame t [.jrn, .led] [] [] (.rebuildComplete t) ∧
    Frame t [.jrn, .regs, .sec, .srcs, .stns] [] [] (.journalEnable t port value) ∧
    Frame t [.ctxs, .gray, .msix, .node, .out, .portB, .regs, .sram, .subs] [] [] (.sinkPlace t sink) ∧
    Frame t [.ctxs, .node, .out, .subs] [] [] (.placementReadback t ctx ring) ∧
    Frame t [.skim, .srcs, .stns] [] [] (.skimWindowEnd t) ∧
    Frame t [.skim, .srcs, .stns] [] [] (.skimReport t u) ∧
    Frame t [.jrn, .skim, .srcs, .stns] [(Kx.skmStatus).off] [] (.skimDecision t) ∧
    Frame t [.jrn, .skim, .srcs, .stns] [] [] (.fastArm t) ∧
    Frame t [.churn, .jrn, .skim, .srcs, .stns] [] [] (.leverApply t u lever idx) ∧
    Frame t [.skim, .srcs, .stns] [] [] (.leverChangeDelivery t u)

/-- The frames of the commands of the calendar, the pins and the trigger mesh: the parts, registers and stations that each may change; the rest stays. They follow from the rules of
each command taken together, no rule of the spec says them in one sentence. -/
def Obligations.FrameTime : Prop :=
  ∀ (t raw slot held : Nat) (fall : Bool) (port : Port) (value : Word) (drift strobe : Int) (q : CmdRef) (sec : BitVec 48) (ft : BitVec 64) (ns :
      BitVec 30) (bound : BitVec 32) (die : Fin 40) (lines : BitVec 8) (pin : Fin 8) (level chanB : Bool),
    Frame t [.latches, .out] [(Kx.glbAccaddr).off, (Kx.glbAccerr).off] [] (.ftRead t port) ∧
    Frame t [.latches, .out] [(Kx.glbAccaddr).off, (Kx.glbAccerr).off] [] (.rtcSecRead t port) ∧
    Frame t [.clk, .regs, .sec] [] [] (.rtcLoad t port value) ∧
    Frame t [.clk, .jrn, .srcs] [(Kx.rtcCtl).off] [] (.rtcLoadApply t) ∧
    Frame t [] [(Kx.rtcCtl).off] [] (.vbatLow t) ∧
    Frame t [.clk] [(Kx.rtcCtl).off] [] (.autotrimMeasure t drift strobe) ∧
    Frame t [.clk, .jrn, .srcs] [] [] (.rtcSecondStrobe t) ∧
    Frame t [.clk, .jrn, .srcs] [(Kx.rtcCtl).off, (Kx.timStatus).off] [] (.ppsEdge t ⟨raw, fall, held⟩) ∧
    Frame t [.clk, .jrn, .srcs] [(Kx.timStatus).off] [] (.ppsWindowMiss t) ∧
    Frame t [.clk, .ctxs, .msix, .out, .portB, .sram] [(Kx.ctxStatus q.ctx).off, (Kx.timStatus).off] [] (.timeSet t q sec) ∧
    Frame t [.clk, .out] [(Kx.timStatus).off] [] (.timeOfDay t sec) ∧
    Frame t [.clk, .out] [] [] (.ppsOutStart t) ∧
    Frame t [.clk, .out] [] [] (.ppsOutEnd t) ∧
    Frame t [.clk, .ctxs, .jrn, .msix, .out, .portB, .sram, .srcs] [(Kx.ctxStatus q.ctx).off] [] (.hostAnchor t q ft sec ns
      bound) ∧
    Frame t [.clk, .jrn, .out, .srcs] [] [] (.hostAnchorMsg t ft sec ns bound) ∧
    Frame t [.mesh, .snapId, .snaps, .taps, .watches] ((tapRegs die).map (·.off)) [die.val] (.sequencerTransition t die) ∧
    Frame t [.mesh, .snapId, .snaps, .taps, .watches] ((tapRegs die).map (·.off)) [die.val] (.seqTimerExpiry t die) ∧
    Frame t [.free, .jrn, .mesh, .node, .out, .pins, .snapId, .snaps, .srcs, .stns] [] [] (.meshEvent t slot) ∧
    Frame t [.ctxs, .mesh, .msix, .out, .portB, .sram] [(Kx.ctxStatus q.ctx).off] [] (.trigger t q lines) ∧
    Frame t [.mesh, .out] [] [] (.triggerMsg t lines) ∧
    Frame t [.mesh, .pins] [] [] (.trigInEdge t pin level) ∧
    Frame t [.out, .pins] [] [] (.trigOutPulseEnd t pin) ∧
    Frame t [.pins] [] [] (.pinFunctionSwitch t pin level) ∧
    Frame t [.free, .hold, .jrn, .mesh, .srcs] [(Kx.pinHoldStat).off] [] (.holdChange t chanB level) ∧
    Frame t [.free, .hold, .jrn, .srcs] [(Kx.pinHoldStat).off] [] (.holdWindowExpiry t) ∧
    Frame t [.hold, .jrn, .mesh, .srcs] [] [] (.holdUnlock t) ∧
    Frame t [.clk, .jrn, .srcs] [(Kx.rtcCtl).off, (Kx.timStatus).off] [] (.trigPpsEdge t raw) ∧
    Frame t [.clk, .regs] [] [] (.vbatPowerOn t)

/-- The frames of the commands of the Churn, the ledger, tensor watches and queries: the parts, registers and stations that each may change; the rest stays. They follow from the rules of
each command taken together, no rule of the spec says them in one sentence. -/
def Obligations.FrameAnalysis : Prop :=
  ∀ (t id : Nat) (die : Fin 40) (port : Port) (value : Word) (q : CmdRef) (a : WatchArgs) (wid dfn : Fin 64) (sl : Fin 4) (det :
      Fin 32) (a2 : QueryArgs),
    Frame t [.chnCkpt, .churn, .jrn, .led, .out] [] [] (.journalCheckpoint t) ∧
    Frame t [] [] [die.val] (.progressSend t die) ∧
    Frame t [.churn, .progs, .wm] [] [die.val] (.progressReceive t die) ∧
    Frame t [.churn, .progs, .wm] [] [] (.silentTimeout t die) ∧
    Frame t [.churn, .free, .jrn, .led, .srcs, .subs] [(Kx.chnStatus).off, (Kx.ledEvstat).off, (Kx.ledRefuse0).off,
      (Kx.ledRefuse1).off, (Kx.ledStatus).off] [] (.ledgerIngest t) ∧
    Frame t [.churn, .free, .jrn, .led, .srcs] [(Kx.chnStatus).off, (Kx.ledEvstat).off, (Kx.ledRefuse0).off,
      (Kx.ledRefuse1).off] [] (.eventRelease t) ∧
    Frame t [.jrn, .led, .srcs] [] [] (.flowEvict t) ∧
    Frame t [.led] [] [] (.ledgerCatchupDone t) ∧
    Frame t [.jrn, .led, .sec, .srcs, .subs] [(Kx.glbAccaddr).off, (Kx.glbAccerr).off, (Kx.ledCfg).off, (Kx.ledStatus).off,
      (Kx.semStatus).off] [] (.ledgerEnable t port value) ∧
    Frame t [.jrn, .led, .sec, .srcs, .subs] [(Kx.glbAccaddr).off, (Kx.glbAccerr).off, (Kx.ledCfg).off, (Kx.ledStatus).off,
      (Kx.semStatus).off] [] (.ledgerDisable t port value) ∧
    Frame t [.capIds, .ctxs, .free, .msix, .out, .portB, .sram, .watches] [(Kx.ctxStatus q.ctx).off] [] (.watchArm t q a) ∧
    Frame t [.ctxs, .msix, .out, .portB, .sram, .watches] [(Kx.ctxStatus q.ctx).off] [] (.watchRemove t q wid) ∧
    Frame t [.mesh, .regs, .sec, .snapId, .snaps, .stns, .taps, .watches] [] [] (.watchEffect t wid) ∧
    Frame t [.ctxs, .msix, .out, .portB, .regs, .sec, .sram, .stns, .watches] [] [] (.watchRetire t wid) ∧
    Frame t [.regs, .sec] [] [] (.exclLock t port value) ∧
    Frame t [.regs, .sec] [] [] (.tensorWatchEnable t port value) ∧
    Frame t [.chnCkpt, .churn, .out, .sec, .subs] [(Kx.chnCfg).off, (Kx.chnStatus).off, (Kx.glbAccaddr).off,
      (Kx.glbAccerr).off, (Kx.semStatus).off] [] (.churnEnable t port value) ∧
    Frame t [.chnCkpt, .churn, .out, .subs] [(Kx.chnExpstat).off, (Kx.chnStatus).off] [] (.churnIngest t) ∧
    Frame t [.churn, .jrn, .srcs] [] [] (.churnWindowClose t) ∧
    Frame t [.churn] [(Kx.chnStatus).off] [die.val] (.sketchPartial t die sl) ∧
    Frame t [.churn] [] [] (.partialTimeout t dfn) ∧
    Frame t [.churn, .free, .jrn, .mesh, .srcs] [(Kx.chnDetstat).off] [] (.detectorWindowClose t det) ∧
    Frame t [.churn, .out] [] [] (.exploadWindowBegin t) ∧
    Frame t [.churn, .out] [] [] (.exploadWindowClose t) ∧
    Frame t [.churn, .ctxs, .free, .msix, .out, .portB, .sram] [(Kx.ctxStatus q.ctx).off] [] (.query t q a2) ∧
    Frame t [.churn, .ctxs, .free, .led, .msix, .out, .portB, .regs, .sram] [] [] (.queryAnswer t id) ∧
    Frame t [.churn, .ctxs, .free, .led, .msix, .out, .portB, .regs, .sram] [] [] (.queryWaitTimeout t id) ∧
    Frame t [.ctxs, .jrn, .lease, .plan, .srcs] [(Kx.glbAccaddr).off, (Kx.glbAccerr).off, (Kx.semStatus).off] []
      (.semRequest t port value) ∧
    Frame t [.ctxs, .jrn, .lease, .plan, .srcs] [(Kx.glbAccaddr).off, (Kx.glbAccerr).off, (Kx.semStatus).off] []
      (.semRelease t port value) ∧
    Frame t [.ctxs, .jrn, .lease, .plan, .srcs] [(Kx.semStatus).off] [] (.leaseExpiry t) ∧
    Frame t [] [] [die.val] (.sketchStreamBoundary t die sl)

/-- The frames of the commands of contexts, their commands, tenants and seals: the parts, registers and stations that each may change; the rest stays. They follow from the rules of
each command taken together, no rule of the spec says them in one sentence. -/
def Obligations.FrameContexts : Prop :=
  ∀ (t seq : Nat) (q : CmdRef) (target addr buf tenant : BitVec 64) (ring : Fin 8) (a : SubArgs) (a2 : CtxArgs) (ctx : Fin 4096)
      (port : Port) (tee fetch ok : Bool) (value : Word) (words : List (BitVec 64)) (mem : Option (List (BitVec 64))) (vec : Fin
      4112) (point : Option (BitVec 384 × BitVec 384)) (keyId len : BitVec 32) (st : TdiSt),
    Frame t [.ctxs, .msix, .out, .portB, .sram] [(Kx.ctxStatus q.ctx).off] [] (.nop t q) ∧
    Frame t [.churn, .ctxs, .msix, .out, .portB, .snaps, .sram, .stns] [(Kx.ctxStatus q.ctx).off] [] (.abort t q target) ∧
    Frame t [.ctxs, .msix, .out, .portB, .sec, .sram, .subs] [(Kx.ctxStatus q.ctx).off] [] (.subscribe t q ring a) ∧
    Frame t [.ctxs, .msix, .out, .portB, .sec, .sram, .subs] [(Kx.ctxStatus q.ctx).off] [] (.unsubscribe t q ring) ∧
    Frame t [.ctxs, .msix, .out, .portB, .regs, .sec, .sram] [] [] (.ctxOpen t q a2) ∧
    Frame t [.ctxs, .msix, .out, .portB, .sec, .sram] [(Kx.ctxStatus q.ctx).off] [] (.ctxModify t q a2) ∧
    Frame t [.churn, .ctxs, .jrn, .lease, .mesh, .msix, .out, .plan, .portB, .regs, .sec, .snapId, .snaps, .sram, .srcs,
      .stns, .subs, .taps, .watches] [] [] (.ctxClose t q ctx) ∧
    Frame t [.ctxs, .msix, .out, .portB] [(Kx.ctxStatus ctx).off, (Kx.glbAccaddr).off, (Kx.glbAccerr).off] [] (.dbCmd t port
      tee ctx value) ∧
    Frame t [.ctxs, .msix, .out, .portB, .sram] [(Kx.ctxStatus ctx).off, (Kx.glbAccaddr).off, (Kx.glbAccerr).off] [] (.dbCpl
      t port tee ctx value) ∧
    Frame t [.ctxs, .msix, .out, .portB, .regs] [] [] (.dbRec t port tee ctx ring value) ∧
    Frame t [.ctxs, .msix, .out, .portB, .sram] [(Kx.ctxStatus ctx).off] [] (.descriptorFetch t ctx words) ∧
    Frame t [.capIds, .churn, .clk, .ctxs, .free, .jrn, .lease, .mesh, .msix, .out, .plan, .portB, .regs, .sec, .snapId,
      .snaps, .sram, .srcs, .stns, .subs, .taps, .watches] [] [] (.logWriteComplete t ctx seq mem) ∧
    Frame t [.ctxs, .msix, .out, .portB] [] [] (.completionSignalTimeout t ctx) ∧
    Frame t [.ctxs, .jrn, .lease, .msix, .out, .plan, .portB, .srcs] [(Kx.ctxStatus ctx).off, (Kx.semStatus).off] []
      (.hostReadError t ctx fetch) ∧
    Frame t [.ctxs, .msix, .out, .portB, .regs, .sram, .subs] [] [] (.contextRun t port tee ctx) ∧
    Frame t [.ctxs] [(Kx.glbAccaddr).off, (Kx.glbAccerr).off] [] (.contextStop t port tee ctx) ∧
    Frame t [.sec] [(Kx.ctxLogCfg).off, (Kx.glbAccaddr).off, (Kx.glbAccerr).off, (Kx.semStatus).off] [] (.commandLogEnable t
      port value) ∧
    Frame t [.msix, .out] [] [] (.msixUnmask t vec) ∧
    Frame t [.ctxs, .msix, .out, .portB, .sec, .sram] [(Kx.ctxStatus q.ctx).off] [] (.keyRegister t q addr point) ∧
    Frame t [.ctxs, .msix, .out, .portB, .sec, .sram] [(Kx.ctxStatus q.ctx).off] [] (.keyRevoke t q keyId) ∧
    Frame t [.ctxs, .msix, .out, .portB, .sram] [(Kx.ctxStatus q.ctx).off] [] (.sealPubkey t q buf ok) ∧
    Frame t [.ctxs, .msix, .out, .portB, .sram] [(Kx.ctxStatus q.ctx).off] [] (.disclose t q buf len ok) ∧
    Frame t [.ctxs, .msix, .out, .portB, .sec, .sram] [(Kx.ctxStatus q.ctx).off] [] (.tenantAttach t q tenant) ∧
    Frame t [.ctxs, .msix, .out, .plan, .portB, .sec, .sram] [(Kx.ctxStatus q.ctx).off] [] (.tenantDetach t q) ∧
    Frame t [.plan, .sec] [] [] (.tenantChangeSignal t) ∧
    Frame t [.churn, .ctxs, .jrn, .lease, .led, .mesh, .mirror, .msix, .oasisA, .oasisB, .out, .plan, .portB, .regs, .sec,
      .snapId, .snaps, .sram, .srcs, .stns, .subs, .taps, .watches] [] [] (.scrubStep t) ∧
    Frame t [.ctxs, .free, .fw, .jrn, .mbxs, .msix, .out, .portB, .regs, .sec, .sram, .srcs] [] [] (.sealOpComplete t ok) ∧
    Frame t [.jrn, .sec] [] [] (.sealPeriod t) ∧
    Frame t [.sec] [] [] (.tdiStateChange t st)

/-- The frames of the commands of plan transactions: the parts, registers and stations that each may change; the rest stays. They follow from the rules of
each command taken together, no rule of the spec says them in one sentence. -/
def Obligations.FramePlans : Prop :=
  ∀ (t : Nat) (q : CmdRef) (ms : BitVec 10) (inline_ : List (Word × Word)) (list : Option (List (Word × Word))) (at_ : BitVec
      64) (force : Bool) (port : Port) (die : Fin 40) (crc : BitVec 32),
    Frame t [.ctxs, .jrn, .lease, .msix, .out, .plan, .portB, .sram, .srcs] [(Kx.ctxStatus q.ctx).off, (Kx.semStatus).off]
      [] (.planBegin t q ms) ∧
    Frame t [.ctxs, .jrn, .lease, .msix, .out, .plan, .portB, .sram, .srcs] [(Kx.ctxStatus q.ctx).off, (Kx.semStatus).off]
      [] (.planStage t q inline_ list) ∧
    Frame t [.ctxs, .jrn, .lease, .msix, .out, .plan, .portB, .sram, .srcs] [(Kx.ctxStatus q.ctx).off, (Kx.semStatus).off]
      [] (.planCommit t q at_) ∧
    Frame t [.ctxs, .jrn, .lease, .msix, .out, .plan, .portB, .sram, .srcs] [(Kx.ctxStatus q.ctx).off, (Kx.semStatus).off]
      [] (.planRollback t q force) ∧
    Frame t [.ctxs, .jrn, .lease, .plan, .srcs] [(Kx.glbAccaddr).off, (Kx.glbAccerr).off, (Kx.semStatus).off] [] (.opBegin t
      port) ∧
    Frame t [.ctxs, .jrn, .lease, .plan, .srcs] [(Kx.glbAccaddr).off, (Kx.glbAccerr).off, (Kx.semStatus).off] [] (.opCommit
      t port) ∧
    Frame t [.ctxs, .jrn, .lease, .plan, .srcs] [(Kx.glbAccaddr).off, (Kx.glbAccerr).off, (Kx.semStatus).off] []
      (.opRollback t port force) ∧
    Frame t [] [] [die.val] (.prepareReceived t die) ∧
    Frame t [.out, .plan] [] [] (.readyReceived t die crc) ∧
    Frame t [.ctxs, .jrn, .lease, .msix, .out, .plan, .portB, .regs, .sram, .srcs, .stns] [] [] (.commitGo t) ∧
    Frame t [] [] [die.val] (.goReceived t die) ∧
    Frame t [.churn, .clk, .jrn, .mesh, .node, .out, .pins, .plan, .regs, .sec, .snapId, .snaps, .srcs, .stns] [] []
      (.stationSwap t die) ∧
    Frame t [.churn, .clk, .ctxs, .jrn, .lease, .msix, .node, .out, .pins, .plan, .portB, .regs, .sec, .sram, .srcs, .stns]
      [] [] (.commitCheck t) ∧
    Frame t [.churn, .clk, .ctxs, .free, .jrn, .lease, .msix, .node, .out, .pins, .plan, .portB, .regs, .sec, .snaps, .sram,
      .srcs, .stns] [] [] (.rollbackBoundary t) ∧
    Frame t [.churn, .plan, .regs, .snaps] [] [die.val] (.rollbackReceived t die)

/-- The frames of the commands of Port B and the mailboxes: the parts, registers and stations that each may change; the rest stays. They follow from the rules of
each command taken together, no rule of the spec says them in one sentence. -/
def Obligations.FrameMessages : Prop :=
  ∀ (t addr len src : Nat) (data text : List Byte) (ctx : Fin 4096) (sel dest cmd : BitVec 8) (value : Word) (enable : BitVec 2)
      (port : Port) (mbx : Fin 16) (dmwr ok last : Bool) (mem : Option (List Byte)) (arg : BitVec 16) (rest : List Word),
    Frame t [.out] [] [] (.sramRead t addr len) ∧
    Frame t [.out, .sram] [] [] (.sramWrite t addr data) ∧
    Frame t [.ctxs, .msix, .out, .portB, .regs, .sram] [] [] (.doorbell t ctx sel value) ∧
    Frame t [.out, .portB] [] [] (.setNotify t dest enable) ∧
    Frame t [.out, .portB] [] [] (.noticeResend t src) ∧
    Frame t [.ctxs, .jrn, .lease, .mbxs, .msix, .out, .plan, .portB, .srcs] ([(Kx.semStatus).off] ++ ((List.range 16).map
      fun i => (Kx.mbxTxstat i).off)) [] (.mctpControl t cmd data) ∧
    Frame t [.mbxs, .out, .regs, .sram] [] [] (.mbxPost t port mbx value dmwr) ∧
    Frame t [.mbxs] ([(Kx.glbAccaddr).off, (Kx.glbAccerr).off] ++ ((List.range 16).map fun i => (Kx.mbxTxstat i).off)) []
      (.mbxAck t port mbx value) ∧
    Frame t [.mbxs, .out] [(Kx.glbAccaddr).off, (Kx.glbAccerr).off] [] (.mbxAckqRead t port mbx) ∧
    Frame t [.mbxs, .msix, .out, .portB] (((List.range 16).map fun i => (Kx.mbxTxstat i).off)) [] (.ping t mbx) ∧
    Frame t [.mbxs, .msix, .out, .portB, .sram] (((List.range 16).map fun i => (Kx.mbxTxstat i).off)) [] (.fwInfo t mbx ok) ∧
    Frame t [.fw, .mbxs, .msix, .out, .portB, .sec] (((List.range 16).map fun i => (Kx.mbxTxstat i).off)) [] (.fwStage t mbx
      mem last) ∧
    Frame t [.fw, .mbxs, .msix, .out, .portB] (((List.range 16).map fun i => (Kx.mbxTxstat i).off)) [] (.fwActivate t mbx) ∧
    Frame t [.free, .mbxs, .msix, .out, .portB] (((List.range 16).map fun i => (Kx.mbxTxstat i).off)) [] (.diagRun t mbx) ∧
    Frame t [.mbxs, .msix, .out, .portB] (((List.range 16).map fun i => (Kx.mbxTxstat i).off)) [] (.oasisDump t mbx ok) ∧
    Frame t [.mbxs, .msix, .out, .pins, .portB, .sram] [] [] (.console t mbx arg rest text) ∧
    Frame t [.oasisA, .oasisB, .sec] [(Kx.glbAccaddr).off, (Kx.glbAccerr).off, (Kx.oasCtl).off, (Kx.semStatus).off] []
      (.oasisClear t port value) ∧
    Frame t [.out, .portB] [] [] (.noticeResponse t src)

/-- The frames of the commands of a node of several devices: the parts, registers and stations that each may change; the rest stays. They follow from the rules of
each command taken together, no rule of the spec says them in one sentence. -/
def Obligations.FrameNode : Prop :=
  ∀ (t seq jidx id : Nat) (port : Fin 3) (peer dev origin : BitVec 6) (delay serial : BitVec 8) (probes : List NodeProbe) (offh : Int) (ok join
      ctrl go : Bool) (line : Fin 8) (b : Beacon) (port2 : Port) (value : Word) (x : NodeItem) (kind : BitVec 2) (epoch id2 :
      BitVec 32) (parts busy at_ wm ticks : BitVec 64) (a : QueryArgs) (ans : Answer),
    Frame t [.node] [] [] (.syncPortTrained t port peer delay) ∧
    Frame t [.clk, .jrn, .node, .srcs, .stns] [(Kx.synStatus).off] [] (.nodeTimeExchange t port peer probes) ∧
    Frame t [.out] [] [] (.nodeProbe t port) ∧
    Frame t [.clk, .out] [] [] (.nodeStepOrder t dev offh join) ∧
    Frame t [.mesh, .node, .out] [] [] (.trigBlockReceived t port origin line serial ctrl) ∧
    Frame t [.chans, .churn, .clk, .egr, .jrn, .led, .node, .out, .pair, .regs, .snaps, .srcs, .stns] [] []
      (.syncReplayRequest t port seq) ∧
    Frame t [.ctxs, .free, .jrn, .lease, .msix, .node, .out, .plan, .portB, .regs, .sec, .sram, .srcs, .stns, .subs] [] []
      (.beaconSend t) ∧
    Frame t [.ctxs, .free, .jrn, .node, .out, .sec, .srcs, .subs] [(Kx.synStatus).off] [] (.beaconReceived t port b) ∧
    Frame t [.ctxs, .free, .jrn, .node, .sec, .srcs, .subs] [(Kx.synStatus).off] [] (.beaconTimeout t dev) ∧
    Frame t [.ctxs, .free, .jrn, .node, .sec, .srcs, .subs] [(Kx.glbAccaddr).off, (Kx.glbAccerr).off, (Kx.semStatus).off,
      (Kx.synClaim).off, (Kx.synStatus).off] [] (.headClaim t port2 value) ∧
    Frame t [.out] [] [] (.nodeProgress t) ∧
    Frame t [.node, .out, .subs] [] [] (.recFrameReceived t dev x) ∧
    Frame t [.ctxs, .gray, .msix, .node, .out, .portB, .regs, .sram, .subs] [] [] (.nodePlace t) ∧
    Frame t [.subs] [] [] (.nodeAckReceived t jidx) ∧
    Frame t [.jrn, .node, .srcs] [(Kx.synStatus).off] [] (.boundaryReport t dev kind epoch) ∧
    Frame t [.node, .out, .snapId, .snaps] [(Kx.glbAccaddr).off, (Kx.glbAccerr).off] [] (.nodeSnapshot t port2) ∧
    Frame t [.node, .out, .plan] [(Kx.glbAccaddr).off, (Kx.glbAccerr).off] [] (.nodeCommit t port2 parts busy) ∧
    Frame t [.ctxs, .jrn, .lease, .msix, .node, .out, .plan, .portB, .regs, .sram, .srcs, .stns] [] [] (.nodeGoDecision t) ∧
    Frame t [.ctxs, .lease, .msix, .node, .out, .plan, .portB, .regs, .sram, .stns] [] [] (.nodeReportDeadline t ok) ∧
    Frame t [.churn, .clk, .ctxs, .jrn, .lease, .msix, .node, .out, .pins, .plan, .portB, .regs, .sec, .snaps, .sram, .srcs,
      .stns] [] [] (.nodeRollback t) ∧
    Frame t [.churn] [] [] (.nodeQueryTimeout t id) ∧
    Frame t [.node] [] [] (.syncLinkLoss t port) ∧
    Frame t [.node, .out, .plan] [] [] (.nodePrepareReceived t at_) ∧
    Frame t [.node] [] [] (.nodeReadyReceived t dev) ∧
    Frame t [.ctxs, .jrn, .lease, .msix, .node, .out, .plan, .portB, .regs, .sram, .srcs, .stns] [] [] (.nodeGoReceived t
      go) ∧
    Frame t [.ctxs, .jrn, .lease, .msix, .node, .out, .plan, .portB, .regs, .sram, .srcs, .stns] [] []
      (.nodeSwapReportReceived t dev kind) ∧
    Frame t [.out, .snapId, .snaps] [] [] (.nodeSnapshotReceived t at_ id2) ∧
    Frame t [.churn, .out] [] [] (.nodeQueryReceived t dev a) ∧
    Frame t [.churn] [] [] (.nodeQueryAnswerReceived t id dev ans) ∧
    Frame t [.node] [] [] (.nodeProgressReceived t dev wm) ∧
    Frame t [.clk] [] [] (.nodeStepReceived t at_ ticks)

/-- The frames of the commands of the egress port, the gray port and channels: the parts, registers and stations that each may change; the rest stays. They follow from the rules of
each command taken together, no rule of the spec says them in one sentence. -/
def Obligations.FrameEgress : Prop :=
  ∀ (t leg csn : Nat) (chan : BitVec 16) (ok : Bool) (port : Port) (str : Fin 16) (value : Word) (session : BitVec 32) (cum cumJ
      window : BitVec 64) (bitmap : BitVec 256) (f : RxFrame) (target : BitVec 128) (sub : Fin 4),
    Frame t [.chans, .churn, .clk, .egr, .jrn, .led, .node, .pair, .regs, .snaps, .srcs, .stns] [] [] (.meshParityError t
      leg) ∧
    Frame t [.chans, .churn, .clk, .egr, .jrn, .led, .node, .pair, .regs, .snaps, .srcs, .stns] [] [] (.channelError t chan) ∧
    Frame t [.chans, .churn, .clk, .egr, .jrn, .led, .node, .pair, .regs, .snaps, .srcs, .stns] [] [] (.channelRetryResult t
      chan ok) ∧
    Frame t [.chans, .churn, .clk, .egr, .jrn, .led, .node, .pair, .regs, .snaps, .srcs, .stns] [] [] (.channelWindowClose t
      chan) ∧
    Frame t [.chans, .sec] [(Kx.glbAccaddr).off, (Kx.glbAccerr).off, (Kx.glbChctl).off, (Kx.semStatus).off] []
      (.channelRestore t port) ∧
    Frame t [.chans, .jrn, .node, .pair, .regs, .snaps, .srcs, .stns] [] [] (.channelRestoreDone t chan ok) ∧
    Frame t [.chans, .churn, .clk, .egr, .jrn, .led, .node, .pair, .regs, .sec, .snaps, .srcs, .stns] [] [] (.channelRetire
      t port) ∧
    Frame t [.egr, .out, .sec, .subs] [(Kx.egrScfg str).off, (Kx.egrStatus).off, (Kx.glbAccaddr).off, (Kx.glbAccerr).off,
      (Kx.semStatus).off] [] (.streamStart t port str value) ∧
    Frame t [.egr, .out, .sec, .subs] [(Kx.egrScfg str).off, (Kx.egrStatus).off, (Kx.glbAccaddr).off, (Kx.glbAccerr).off,
      (Kx.semStatus).off] [] (.streamEnd t port str value) ∧
    Frame t [.egr, .out, .subs] [(Kx.egrSstat str).off] [] (.caravanSend t str) ∧
    Frame t [.egr, .subs] [(Kx.egrSstat str).off, (Kx.egrStatus).off] [] (.caravanAck t str session cum cumJ window bitmap) ∧
    Frame t [.egr, .out] [] [] (.retransmitTimeout t str csn) ∧
    Frame t [.egr, .subs] [] [] (.streamStall t str) ∧
    Frame t [] [(Kx.egrStatus).off] [] (.egressFrameRx t f) ∧
    Frame t [.out] [] [] (.neighborSolicitation t target) ∧
    Frame t [.egr, .out] [] [] (.subportUp t sub) ∧
    Frame t [.egr, .out] [(Kx.egrStatus).off] [] (.portRestart t) ∧
    Frame t [.gray, .sec, .subs] [(Kx.glbAccaddr).off, (Kx.glbAccerr).off, (Kx.glbGrayCfg).off, (Kx.glbGrayStat).off,
      (Kx.semStatus).off] [] (.grayEnable t port value) ∧
    Frame t [.gray, .sec, .subs] [(Kx.glbAccaddr).off, (Kx.glbAccerr).off, (Kx.glbGrayCfg).off, (Kx.glbGrayStat).off,
      (Kx.semStatus).off] [] (.grayDisable t port value) ∧
    Frame t [.ctxs, .gray, .out, .subs] [(Kx.glbGrayStat).off] [] (.grayPlace t) ∧
    Frame t [.gray] [(Kx.glbAccaddr).off, (Kx.glbAccerr).off, (Kx.glbGrayStat).off] [] (.grayRptrWrite t port value) ∧
    Frame t [.egr, .out] [] [] (.egressLinkDown t sub)

/-- The frames of the commands of registers, the hub pair and resets: the parts, registers and stations that each may change; the rest stays. They follow from the rules of
each command taken together, no rule of the spec says them in one sentence. -/
def Obligations.FrameUnit : Prop :=
  ∀ (t width count idx : Nat) (port : Port) (off : BitVec 26) (be cause sram : BitVec 8) (value mcause mepc : BitVec 64) (value2
      data : Word) (tee verA verB prevOk : Bool) (writes : List (BitVec 26 × Word)) (die : Fin 40) (core : Fin 8) (cause2 op :
      BitVec 2) (addr : BitVec 24),
    Frame t [.chans, .chnCkpt, .churn, .clk, .ctxs, .egr, .free, .fw, .gray, .hold, .jrn, .latches, .lease, .led, .mbxs,
      .mesh, .msix, .node, .oasisA, .oasisB, .out, .pair, .pins, .plan, .portB, .regs, .sec, .snapId, .snaps, .sram, .srcs,
      .stns, .subs, .watches] [] [] (.rwpWrite t port off width be value) ∧
    Frame t [.chans, .chnCkpt, .churn, .clk, .ctxs, .egr, .free, .fw, .gray, .hold, .jrn, .latches, .lease, .led, .mbxs,
      .mesh, .msix, .node, .oasisA, .oasisB, .out, .pair, .pins, .plan, .portB, .regs, .sec, .snapId, .snaps, .sram, .srcs,
      .stns, .subs, .watches] [] [] (.autocommitWrite t port off value2) ∧
    Frame t [.chans, .chnCkpt, .churn, .clk, .ctxs, .egr, .free, .fw, .gray, .hold, .jrn, .latches, .lease, .led, .mbxs,
      .mesh, .msix, .node, .oasisA, .oasisB, .out, .pair, .pins, .plan, .portB, .regs, .sec, .snapId, .snaps, .sram, .srcs,
      .stns, .subs, .watches] [] [] (.registerWrite t port tee off width be value) ∧
    Frame t [.ctxs, .free, .jrn, .latches, .lease, .mbxs, .out, .plan, .regs, .srcs, .stns] [] [] (.regRead t off count) ∧
    Frame t [.chans, .chnCkpt, .churn, .clk, .ctxs, .egr, .free, .fw, .gray, .hold, .jrn, .latches, .lease, .led, .mbxs,
      .mesh, .msix, .node, .oasisA, .oasisB, .out, .pair, .pins, .plan, .portB, .regs, .sec, .snapId, .snaps, .sram, .srcs,
      .stns, .subs, .watches] [] [] (.regWrite t writes) ∧
    Frame t [.clk, .regs, .sram, .stns, .srcs, .jrn, .subs, .oasisA, .oasisB, .skim, .wm, .progs, .led, .watches, .capIds,
      .chnCkpt, .churn, .ctxs, .lease, .plan, .mbxs, .portB, .fw, .sec, .node, .chans, .egr, .gray, .pins, .hold, .mesh,
      .snaps, .snapId, .pair, .mirror, .msix, .dbg, .latches, .free, .taps] [] [] (.coldReset t verA verB prevOk) ∧
    Frame t [.ctxs, .free, .fw, .hold, .latches, .mbxs, .msix, .node, .out, .pair, .pins, .portB, .sram, .stns]
      (((List.range 16).map fun i => (Kx.mbxTxstat i).off)) [] (.rstN t) ∧
    Frame t [.clk, .ctxs, .free, .fw, .hold, .latches, .mbxs, .msix, .node, .out, .pair, .pins, .portB, .sec, .sram, .stns]
      ([(Kx.glbAccaddr).off, (Kx.glbAccerr).off, (Kx.glbCtl).off, (Kx.semStatus).off] ++ ((List.range 16).map fun i =>
      (Kx.mbxTxstat i).off)) [] (.warmrst t port) ∧
    Frame t [.churn, .clk, .ctxs, .egr, .free, .fw, .jrn, .lease, .led, .mirror, .msix, .node, .oasisA, .oasisB, .out,
      .pair, .pins, .plan, .portB, .progs, .regs, .sec, .skim, .snaps, .sram, .srcs, .stns, .subs, .wm] [] []
      (.hubPairResume t verA verB prevOk) ∧
    Frame t [.churn, .jrn, .plan, .stns, .watches] (covf die) [] (.stationResetEntry t die) ∧
    Frame t [] (covf die) [die.val] (.stationResetExit t die) ∧
    Frame t [.mesh, .snapId, .snaps] ([(Kx.hubMeshStat).off] ++ covf die) [die.val] (.stationReload t die) ∧
    Frame t [.ctxs, .jrn, .latches, .lease, .mbxs, .msix, .out, .plan, .portB, .srcs, .stns, .subs] ([(Kx.semStatus).off] ++
      ((List.range 16).map fun i => (Kx.mbxTxstat i).off)) [] (.portAReset t) ∧
    Frame t [.ctxs, .jrn, .latches, .lease, .mbxs, .msix, .out, .plan, .portB, .srcs, .stns] ([(Kx.semStatus).off] ++
      ((List.range 16).map fun i => (Kx.mbxTxstat i).off)) [] (.portBReset t) ∧
    Frame t [.pair] [] [] (.jobRestartSignal t) ∧
    Frame t [.churn, .jrn, .led, .mesh, .node, .out, .pair, .plan, .regs, .snapId, .snaps, .srcs, .stns, .taps, .watches] []
      [] (.jobRestartBoundary t) ∧
    Frame t [.clk, .ctxs, .free, .fw, .hold, .latches, .mbxs, .msix, .node, .out, .pair, .pins, .portB, .sram, .stns]
      (((List.range 16).map fun i => (Kx.mbxTxstat i).off)) [] (.heartbeatTimeout t) ∧
    Frame t [.clk, .ctxs, .free, .fw, .hold, .latches, .mbxs, .msix, .node, .out, .pair, .pins, .portB, .sram, .stns]
      (((List.range 16).map fun i => (Kx.mbxTxstat i).off)) [] (.hubSelfFault t cause) ∧
    Frame t [.clk, .ctxs, .free, .fw, .hold, .latches, .mbxs, .msix, .node, .out, .pair, .pins, .portB, .sec, .sram, .stns]
      ([(Kx.glbAccaddr).off, (Kx.glbAccerr).off, (Kx.glbCtl).off, (Kx.semStatus).off] ++ ((List.range 16).map fun i =>
      (Kx.mbxTxstat i).off)) [] (.switch t port) ∧
    Frame t [.chans, .churn, .clk, .ctxs, .egr, .jrn, .lease, .led, .mirror, .msix, .node, .oasisA, .oasisB, .out, .pair,
      .pins, .plan, .portB, .progs, .regs, .sec, .skim, .snaps, .sram, .srcs, .stns, .subs, .wm] [] [] (.fenceConfirm t) ∧
    Frame t [.pair] [] [] (.fenceTimeout t) ∧
    Frame t [.chans, .clk, .mirror, .pair] [] [] (.hubRejoin t) ∧
    Frame t [.chans, .churn, .clk, .ctxs, .egr, .jrn, .lease, .led, .mbxs, .msix, .node, .out, .pair, .plan, .portB, .regs,
      .snaps, .srcs, .stns] [] [] (.serviceCoreFault t core cause2 mcause mepc) ∧
    Frame t [.dbg, .lease, .pair] [(Kx.dbgCtl).off, (Kx.glbAccaddr).off, (Kx.glbAccerr).off] [] (.coreHalt t port value2) ∧
    Frame t [.chans, .churn, .clk, .ctxs, .egr, .jrn, .lease, .led, .mbxs, .msix, .node, .oasisA, .oasisB, .out, .pair,
      .plan, .portB, .regs, .snaps, .srcs, .stns, .subs, .watches] [] [] (.sramUncorr t sram idx addr) ∧
    Frame t [.pair, .pins] [] [] (.powerLoss t) ∧
    Frame t [.ctxs, .dbg, .free, .jrn, .latches, .lease, .mbxs, .pair, .plan, .srcs, .stns] [(Kx.dbgCtl).off,
      (Kx.glbAccaddr).off, (Kx.glbAccerr).off, (Kx.semStatus).off] [] (.kxaccAccess t op off data) ∧
    Frame t [.ctxs, .jrn, .lease, .plan, .srcs] [(Kx.semStatus).off] [] (.portAFatalError t) ∧
    Frame t [.clk, .jrn, .pair, .srcs] [] [] (.standbyHubLoss t) ∧
    Frame t [.pair, .pins] [] [] (.porstNAssert t) ∧
    Frame t [.capIds, .chans, .egr, .free, .jrn, .oasisA, .oasisB, .sec, .srcs, .stns] [] [] (.retentionSupplyLoss t)
end

