-- ==== Sys2Proof/Laws/State.lean ====
section
/-!
SUPPORT. One lemma per field per basic update of State: what a basic update leaves, and what it writes.
-/

namespace Sys2Proof.Machine

/-! ## wr -/

@[simp] theorem State.wr_pending (s : State) (r : Reg) (v : Word) : (s.wr r v).pending = s.pending := rfl
@[simp] theorem State.wr_clk (s : State) (r : Reg) (v : Word) : (s.wr r v).clk = s.clk := rfl
@[simp] theorem State.wr_sram (s : State) (r : Reg) (v : Word) : (s.wr r v).sram = s.sram := rfl
@[simp] theorem State.wr_stns (s : State) (r : Reg) (v : Word) : (s.wr r v).stns = s.stns := rfl
@[simp] theorem State.wr_srcs (s : State) (r : Reg) (v : Word) : (s.wr r v).srcs = s.srcs := rfl
@[simp] theorem State.wr_jrn (s : State) (r : Reg) (v : Word) : (s.wr r v).jrn = s.jrn := rfl
@[simp] theorem State.wr_subs (s : State) (r : Reg) (v : Word) : (s.wr r v).subs = s.subs := rfl
@[simp] theorem State.wr_oasisA (s : State) (r : Reg) (v : Word) : (s.wr r v).oasisA = s.oasisA := rfl
@[simp] theorem State.wr_oasisB (s : State) (r : Reg) (v : Word) : (s.wr r v).oasisB = s.oasisB := rfl
@[simp] theorem State.wr_skim (s : State) (r : Reg) (v : Word) : (s.wr r v).skim = s.skim := rfl
@[simp] theorem State.wr_wm (s : State) (r : Reg) (v : Word) : (s.wr r v).wm = s.wm := rfl
@[simp] theorem State.wr_progs (s : State) (r : Reg) (v : Word) : (s.wr r v).progs = s.progs := rfl
@[simp] theorem State.wr_led (s : State) (r : Reg) (v : Word) : (s.wr r v).led = s.led := rfl
@[simp] theorem State.wr_watches (s : State) (r : Reg) (v : Word) : (s.wr r v).watches = s.watches := rfl
@[simp] theorem State.wr_capIds (s : State) (r : Reg) (v : Word) : (s.wr r v).capIds = s.capIds := rfl
@[simp] theorem State.wr_chnCkpt (s : State) (r : Reg) (v : Word) : (s.wr r v).chnCkpt = s.chnCkpt := rfl
@[simp] theorem State.wr_churn (s : State) (r : Reg) (v : Word) : (s.wr r v).churn = s.churn := rfl
@[simp] theorem State.wr_ctxs (s : State) (r : Reg) (v : Word) : (s.wr r v).ctxs = s.ctxs := rfl
@[simp] theorem State.wr_lease (s : State) (r : Reg) (v : Word) : (s.wr r v).lease = s.lease := rfl
@[simp] theorem State.wr_plan (s : State) (r : Reg) (v : Word) : (s.wr r v).plan = s.plan := rfl
@[simp] theorem State.wr_mbxs (s : State) (r : Reg) (v : Word) : (s.wr r v).mbxs = s.mbxs := rfl
@[simp] theorem State.wr_portB (s : State) (r : Reg) (v : Word) : (s.wr r v).portB = s.portB := rfl
@[simp] theorem State.wr_fw (s : State) (r : Reg) (v : Word) : (s.wr r v).fw = s.fw := rfl
@[simp] theorem State.wr_sec (s : State) (r : Reg) (v : Word) : (s.wr r v).sec = s.sec := rfl
@[simp] theorem State.wr_node (s : State) (r : Reg) (v : Word) : (s.wr r v).node = s.node := rfl
@[simp] theorem State.wr_chans (s : State) (r : Reg) (v : Word) : (s.wr r v).chans = s.chans := rfl
@[simp] theorem State.wr_egr (s : State) (r : Reg) (v : Word) : (s.wr r v).egr = s.egr := rfl
@[simp] theorem State.wr_gray (s : State) (r : Reg) (v : Word) : (s.wr r v).gray = s.gray := rfl
@[simp] theorem State.wr_pins (s : State) (r : Reg) (v : Word) : (s.wr r v).pins = s.pins := rfl
@[simp] theorem State.wr_hold (s : State) (r : Reg) (v : Word) : (s.wr r v).hold = s.hold := rfl
@[simp] theorem State.wr_mesh (s : State) (r : Reg) (v : Word) : (s.wr r v).mesh = s.mesh := rfl
@[simp] theorem State.wr_snaps (s : State) (r : Reg) (v : Word) : (s.wr r v).snaps = s.snaps := rfl
@[simp] theorem State.wr_snapId (s : State) (r : Reg) (v : Word) : (s.wr r v).snapId = s.snapId := rfl
@[simp] theorem State.wr_pair (s : State) (r : Reg) (v : Word) : (s.wr r v).pair = s.pair := rfl
@[simp] theorem State.wr_mirror (s : State) (r : Reg) (v : Word) : (s.wr r v).mirror = s.mirror := rfl
@[simp] theorem State.wr_integ (s : State) (r : Reg) (v : Word) : (s.wr r v).integ = s.integ := rfl
@[simp] theorem State.wr_msix (s : State) (r : Reg) (v : Word) : (s.wr r v).msix = s.msix := rfl
@[simp] theorem State.wr_dbg (s : State) (r : Reg) (v : Word) : (s.wr r v).dbg = s.dbg := rfl
@[simp] theorem State.wr_latches (s : State) (r : Reg) (v : Word) : (s.wr r v).latches = s.latches := rfl
@[simp] theorem State.wr_out (s : State) (r : Reg) (v : Word) : (s.wr r v).out = s.out := rfl
@[simp] theorem State.wr_free (s : State) (r : Reg) (v : Word) : (s.wr r v).free = s.free := rfl
@[simp] theorem State.wr_taps (s : State) (r : Reg) (v : Word) : (s.wr r v).taps = s.taps := rfl
@[simp] theorem State.wr_hw (s : State) (r : Reg) (v : Word) : (s.wr r v).hw = s.hw := rfl
@[simp] theorem State.wr_sramW (s : State) (r : Reg) (v : Word) : (s.wr r v).sramW = s.sramW := rfl

/-! ## setF -/

@[simp] theorem State.setF_pending (s : State) (r : Reg) (hi lo v : Nat) : (s.setF r hi lo v).pending = s.pending := rfl
@[simp] theorem State.setF_clk (s : State) (r : Reg) (hi lo v : Nat) : (s.setF r hi lo v).clk = s.clk := rfl
@[simp] theorem State.setF_sram (s : State) (r : Reg) (hi lo v : Nat) : (s.setF r hi lo v).sram = s.sram := rfl
@[simp] theorem State.setF_stns (s : State) (r : Reg) (hi lo v : Nat) : (s.setF r hi lo v).stns = s.stns := rfl
@[simp] theorem State.setF_srcs (s : State) (r : Reg) (hi lo v : Nat) : (s.setF r hi lo v).srcs = s.srcs := rfl
@[simp] theorem State.setF_jrn (s : State) (r : Reg) (hi lo v : Nat) : (s.setF r hi lo v).jrn = s.jrn := rfl
@[simp] theorem State.setF_subs (s : State) (r : Reg) (hi lo v : Nat) : (s.setF r hi lo v).subs = s.subs := rfl
@[simp] theorem State.setF_oasisA (s : State) (r : Reg) (hi lo v : Nat) : (s.setF r hi lo v).oasisA = s.oasisA := rfl
@[simp] theorem State.setF_oasisB (s : State) (r : Reg) (hi lo v : Nat) : (s.setF r hi lo v).oasisB = s.oasisB := rfl
@[simp] theorem State.setF_skim (s : State) (r : Reg) (hi lo v : Nat) : (s.setF r hi lo v).skim = s.skim := rfl
@[simp] theorem State.setF_wm (s : State) (r : Reg) (hi lo v : Nat) : (s.setF r hi lo v).wm = s.wm := rfl
@[simp] theorem State.setF_progs (s : State) (r : Reg) (hi lo v : Nat) : (s.setF r hi lo v).progs = s.progs := rfl
@[simp] theorem State.setF_led (s : State) (r : Reg) (hi lo v : Nat) : (s.setF r hi lo v).led = s.led := rfl
@[simp] theorem State.setF_watches (s : State) (r : Reg) (hi lo v : Nat) : (s.setF r hi lo v).watches = s.watches := rfl
@[simp] theorem State.setF_capIds (s : State) (r : Reg) (hi lo v : Nat) : (s.setF r hi lo v).capIds = s.capIds := rfl
@[simp] theorem State.setF_chnCkpt (s : State) (r : Reg) (hi lo v : Nat) : (s.setF r hi lo v).chnCkpt = s.chnCkpt := rfl
@[simp] theorem State.setF_churn (s : State) (r : Reg) (hi lo v : Nat) : (s.setF r hi lo v).churn = s.churn := rfl
@[simp] theorem State.setF_ctxs (s : State) (r : Reg) (hi lo v : Nat) : (s.setF r hi lo v).ctxs = s.ctxs := rfl
@[simp] theorem State.setF_lease (s : State) (r : Reg) (hi lo v : Nat) : (s.setF r hi lo v).lease = s.lease := rfl
@[simp] theorem State.setF_plan (s : State) (r : Reg) (hi lo v : Nat) : (s.setF r hi lo v).plan = s.plan := rfl
@[simp] theorem State.setF_mbxs (s : State) (r : Reg) (hi lo v : Nat) : (s.setF r hi lo v).mbxs = s.mbxs := rfl
@[simp] theorem State.setF_portB (s : State) (r : Reg) (hi lo v : Nat) : (s.setF r hi lo v).portB = s.portB := rfl
@[simp] theorem State.setF_fw (s : State) (r : Reg) (hi lo v : Nat) : (s.setF r hi lo v).fw = s.fw := rfl
@[simp] theorem State.setF_sec (s : State) (r : Reg) (hi lo v : Nat) : (s.setF r hi lo v).sec = s.sec := rfl
@[simp] theorem State.setF_node (s : State) (r : Reg) (hi lo v : Nat) : (s.setF r hi lo v).node = s.node := rfl
@[simp] theorem State.setF_chans (s : State) (r : Reg) (hi lo v : Nat) : (s.setF r hi lo v).chans = s.chans := rfl
@[simp] theorem State.setF_egr (s : State) (r : Reg) (hi lo v : Nat) : (s.setF r hi lo v).egr = s.egr := rfl
@[simp] theorem State.setF_gray (s : State) (r : Reg) (hi lo v : Nat) : (s.setF r hi lo v).gray = s.gray := rfl
@[simp] theorem State.setF_pins (s : State) (r : Reg) (hi lo v : Nat) : (s.setF r hi lo v).pins = s.pins := rfl
@[simp] theorem State.setF_hold (s : State) (r : Reg) (hi lo v : Nat) : (s.setF r hi lo v).hold = s.hold := rfl
@[simp] theorem State.setF_mesh (s : State) (r : Reg) (hi lo v : Nat) : (s.setF r hi lo v).mesh = s.mesh := rfl
@[simp] theorem State.setF_snaps (s : State) (r : Reg) (hi lo v : Nat) : (s.setF r hi lo v).snaps = s.snaps := rfl
@[simp] theorem State.setF_snapId (s : State) (r : Reg) (hi lo v : Nat) : (s.setF r hi lo v).snapId = s.snapId := rfl
@[simp] theorem State.setF_pair (s : State) (r : Reg) (hi lo v : Nat) : (s.setF r hi lo v).pair = s.pair := rfl
@[simp] theorem State.setF_mirror (s : State) (r : Reg) (hi lo v : Nat) : (s.setF r hi lo v).mirror = s.mirror := rfl
@[simp] theorem State.setF_integ (s : State) (r : Reg) (hi lo v : Nat) : (s.setF r hi lo v).integ = s.integ := rfl
@[simp] theorem State.setF_msix (s : State) (r : Reg) (hi lo v : Nat) : (s.setF r hi lo v).msix = s.msix := rfl
@[simp] theorem State.setF_dbg (s : State) (r : Reg) (hi lo v : Nat) : (s.setF r hi lo v).dbg = s.dbg := rfl
@[simp] theorem State.setF_latches (s : State) (r : Reg) (hi lo v : Nat) : (s.setF r hi lo v).latches = s.latches := rfl
@[simp] theorem State.setF_out (s : State) (r : Reg) (hi lo v : Nat) : (s.setF r hi lo v).out = s.out := rfl
@[simp] theorem State.setF_free (s : State) (r : Reg) (hi lo v : Nat) : (s.setF r hi lo v).free = s.free := rfl
@[simp] theorem State.setF_taps (s : State) (r : Reg) (hi lo v : Nat) : (s.setF r hi lo v).taps = s.taps := rfl
@[simp] theorem State.setF_hw (s : State) (r : Reg) (hi lo v : Nat) : (s.setF r hi lo v).hw = s.hw := rfl
@[simp] theorem State.setF_sramW (s : State) (r : Reg) (hi lo v : Nat) : (s.setF r hi lo v).sramW = s.sramW := rfl

/-! ## setB -/

@[simp] theorem State.setB_pending (s : State) (r : Reg) (i : Nat) (b : Bool) : (s.setB r i b).pending = s.pending := rfl
@[simp] theorem State.setB_clk (s : State) (r : Reg) (i : Nat) (b : Bool) : (s.setB r i b).clk = s.clk := rfl
@[simp] theorem State.setB_sram (s : State) (r : Reg) (i : Nat) (b : Bool) : (s.setB r i b).sram = s.sram := rfl
@[simp] theorem State.setB_stns (s : State) (r : Reg) (i : Nat) (b : Bool) : (s.setB r i b).stns = s.stns := rfl
@[simp] theorem State.setB_srcs (s : State) (r : Reg) (i : Nat) (b : Bool) : (s.setB r i b).srcs = s.srcs := rfl
@[simp] theorem State.setB_jrn (s : State) (r : Reg) (i : Nat) (b : Bool) : (s.setB r i b).jrn = s.jrn := rfl
@[simp] theorem State.setB_subs (s : State) (r : Reg) (i : Nat) (b : Bool) : (s.setB r i b).subs = s.subs := rfl
@[simp] theorem State.setB_oasisA (s : State) (r : Reg) (i : Nat) (b : Bool) : (s.setB r i b).oasisA = s.oasisA := rfl
@[simp] theorem State.setB_oasisB (s : State) (r : Reg) (i : Nat) (b : Bool) : (s.setB r i b).oasisB = s.oasisB := rfl
@[simp] theorem State.setB_skim (s : State) (r : Reg) (i : Nat) (b : Bool) : (s.setB r i b).skim = s.skim := rfl
@[simp] theorem State.setB_wm (s : State) (r : Reg) (i : Nat) (b : Bool) : (s.setB r i b).wm = s.wm := rfl
@[simp] theorem State.setB_progs (s : State) (r : Reg) (i : Nat) (b : Bool) : (s.setB r i b).progs = s.progs := rfl
@[simp] theorem State.setB_led (s : State) (r : Reg) (i : Nat) (b : Bool) : (s.setB r i b).led = s.led := rfl
@[simp] theorem State.setB_watches (s : State) (r : Reg) (i : Nat) (b : Bool) : (s.setB r i b).watches = s.watches := rfl
@[simp] theorem State.setB_capIds (s : State) (r : Reg) (i : Nat) (b : Bool) : (s.setB r i b).capIds = s.capIds := rfl
@[simp] theorem State.setB_chnCkpt (s : State) (r : Reg) (i : Nat) (b : Bool) : (s.setB r i b).chnCkpt = s.chnCkpt := rfl
@[simp] theorem State.setB_churn (s : State) (r : Reg) (i : Nat) (b : Bool) : (s.setB r i b).churn = s.churn := rfl
@[simp] theorem State.setB_ctxs (s : State) (r : Reg) (i : Nat) (b : Bool) : (s.setB r i b).ctxs = s.ctxs := rfl
@[simp] theorem State.setB_lease (s : State) (r : Reg) (i : Nat) (b : Bool) : (s.setB r i b).lease = s.lease := rfl
@[simp] theorem State.setB_plan (s : State) (r : Reg) (i : Nat) (b : Bool) : (s.setB r i b).plan = s.plan := rfl
@[simp] theorem State.setB_mbxs (s : State) (r : Reg) (i : Nat) (b : Bool) : (s.setB r i b).mbxs = s.mbxs := rfl
@[simp] theorem State.setB_portB (s : State) (r : Reg) (i : Nat) (b : Bool) : (s.setB r i b).portB = s.portB := rfl
@[simp] theorem State.setB_fw (s : State) (r : Reg) (i : Nat) (b : Bool) : (s.setB r i b).fw = s.fw := rfl
@[simp] theorem State.setB_sec (s : State) (r : Reg) (i : Nat) (b : Bool) : (s.setB r i b).sec = s.sec := rfl
@[simp] theorem State.setB_node (s : State) (r : Reg) (i : Nat) (b : Bool) : (s.setB r i b).node = s.node := rfl
@[simp] theorem State.setB_chans (s : State) (r : Reg) (i : Nat) (b : Bool) : (s.setB r i b).chans = s.chans := rfl
@[simp] theorem State.setB_egr (s : State) (r : Reg) (i : Nat) (b : Bool) : (s.setB r i b).egr = s.egr := rfl
@[simp] theorem State.setB_gray (s : State) (r : Reg) (i : Nat) (b : Bool) : (s.setB r i b).gray = s.gray := rfl
@[simp] theorem State.setB_pins (s : State) (r : Reg) (i : Nat) (b : Bool) : (s.setB r i b).pins = s.pins := rfl
@[simp] theorem State.setB_hold (s : State) (r : Reg) (i : Nat) (b : Bool) : (s.setB r i b).hold = s.hold := rfl
@[simp] theorem State.setB_mesh (s : State) (r : Reg) (i : Nat) (b : Bool) : (s.setB r i b).mesh = s.mesh := rfl
@[simp] theorem State.setB_snaps (s : State) (r : Reg) (i : Nat) (b : Bool) : (s.setB r i b).snaps = s.snaps := rfl
@[simp] theorem State.setB_snapId (s : State) (r : Reg) (i : Nat) (b : Bool) : (s.setB r i b).snapId = s.snapId := rfl
@[simp] theorem State.setB_pair (s : State) (r : Reg) (i : Nat) (b : Bool) : (s.setB r i b).pair = s.pair := rfl
@[simp] theorem State.setB_mirror (s : State) (r : Reg) (i : Nat) (b : Bool) : (s.setB r i b).mirror = s.mirror := rfl
@[simp] theorem State.setB_integ (s : State) (r : Reg) (i : Nat) (b : Bool) : (s.setB r i b).integ = s.integ := rfl
@[simp] theorem State.setB_msix (s : State) (r : Reg) (i : Nat) (b : Bool) : (s.setB r i b).msix = s.msix := rfl
@[simp] theorem State.setB_dbg (s : State) (r : Reg) (i : Nat) (b : Bool) : (s.setB r i b).dbg = s.dbg := rfl
@[simp] theorem State.setB_latches (s : State) (r : Reg) (i : Nat) (b : Bool) : (s.setB r i b).latches = s.latches := rfl
@[simp] theorem State.setB_out (s : State) (r : Reg) (i : Nat) (b : Bool) : (s.setB r i b).out = s.out := rfl
@[simp] theorem State.setB_free (s : State) (r : Reg) (i : Nat) (b : Bool) : (s.setB r i b).free = s.free := rfl
@[simp] theorem State.setB_taps (s : State) (r : Reg) (i : Nat) (b : Bool) : (s.setB r i b).taps = s.taps := rfl
@[simp] theorem State.setB_sramW (s : State) (r : Reg) (i : Nat) (b : Bool) : (s.setB r i b).sramW = s.sramW := rfl

/-! ## incF -/

@[simp] theorem State.incF_pending (s : State) (r : Reg) (hi lo v : Nat) : (s.incF r hi lo v).pending = s.pending := rfl
@[simp] theorem State.incF_clk (s : State) (r : Reg) (hi lo v : Nat) : (s.incF r hi lo v).clk = s.clk := rfl
@[simp] theorem State.incF_sram (s : State) (r : Reg) (hi lo v : Nat) : (s.incF r hi lo v).sram = s.sram := rfl
@[simp] theorem State.incF_stns (s : State) (r : Reg) (hi lo v : Nat) : (s.incF r hi lo v).stns = s.stns := rfl
@[simp] theorem State.incF_srcs (s : State) (r : Reg) (hi lo v : Nat) : (s.incF r hi lo v).srcs = s.srcs := rfl
@[simp] theorem State.incF_jrn (s : State) (r : Reg) (hi lo v : Nat) : (s.incF r hi lo v).jrn = s.jrn := rfl
@[simp] theorem State.incF_subs (s : State) (r : Reg) (hi lo v : Nat) : (s.incF r hi lo v).subs = s.subs := rfl
@[simp] theorem State.incF_oasisA (s : State) (r : Reg) (hi lo v : Nat) : (s.incF r hi lo v).oasisA = s.oasisA := rfl
@[simp] theorem State.incF_oasisB (s : State) (r : Reg) (hi lo v : Nat) : (s.incF r hi lo v).oasisB = s.oasisB := rfl
@[simp] theorem State.incF_skim (s : State) (r : Reg) (hi lo v : Nat) : (s.incF r hi lo v).skim = s.skim := rfl
@[simp] theorem State.incF_wm (s : State) (r : Reg) (hi lo v : Nat) : (s.incF r hi lo v).wm = s.wm := rfl
@[simp] theorem State.incF_progs (s : State) (r : Reg) (hi lo v : Nat) : (s.incF r hi lo v).progs = s.progs := rfl
@[simp] theorem State.incF_led (s : State) (r : Reg) (hi lo v : Nat) : (s.incF r hi lo v).led = s.led := rfl
@[simp] theorem State.incF_watches (s : State) (r : Reg) (hi lo v : Nat) : (s.incF r hi lo v).watches = s.watches := rfl
@[simp] theorem State.incF_capIds (s : State) (r : Reg) (hi lo v : Nat) : (s.incF r hi lo v).capIds = s.capIds := rfl
@[simp] theorem State.incF_chnCkpt (s : State) (r : Reg) (hi lo v : Nat) : (s.incF r hi lo v).chnCkpt = s.chnCkpt := rfl
@[simp] theorem State.incF_churn (s : State) (r : Reg) (hi lo v : Nat) : (s.incF r hi lo v).churn = s.churn := rfl
@[simp] theorem State.incF_ctxs (s : State) (r : Reg) (hi lo v : Nat) : (s.incF r hi lo v).ctxs = s.ctxs := rfl
@[simp] theorem State.incF_lease (s : State) (r : Reg) (hi lo v : Nat) : (s.incF r hi lo v).lease = s.lease := rfl
@[simp] theorem State.incF_plan (s : State) (r : Reg) (hi lo v : Nat) : (s.incF r hi lo v).plan = s.plan := rfl
@[simp] theorem State.incF_mbxs (s : State) (r : Reg) (hi lo v : Nat) : (s.incF r hi lo v).mbxs = s.mbxs := rfl
@[simp] theorem State.incF_portB (s : State) (r : Reg) (hi lo v : Nat) : (s.incF r hi lo v).portB = s.portB := rfl
@[simp] theorem State.incF_fw (s : State) (r : Reg) (hi lo v : Nat) : (s.incF r hi lo v).fw = s.fw := rfl
@[simp] theorem State.incF_sec (s : State) (r : Reg) (hi lo v : Nat) : (s.incF r hi lo v).sec = s.sec := rfl
@[simp] theorem State.incF_node (s : State) (r : Reg) (hi lo v : Nat) : (s.incF r hi lo v).node = s.node := rfl
@[simp] theorem State.incF_chans (s : State) (r : Reg) (hi lo v : Nat) : (s.incF r hi lo v).chans = s.chans := rfl
@[simp] theorem State.incF_egr (s : State) (r : Reg) (hi lo v : Nat) : (s.incF r hi lo v).egr = s.egr := rfl
@[simp] theorem State.incF_gray (s : State) (r : Reg) (hi lo v : Nat) : (s.incF r hi lo v).gray = s.gray := rfl
@[simp] theorem State.incF_pins (s : State) (r : Reg) (hi lo v : Nat) : (s.incF r hi lo v).pins = s.pins := rfl
@[simp] theorem State.incF_hold (s : State) (r : Reg) (hi lo v : Nat) : (s.incF r hi lo v).hold = s.hold := rfl
@[simp] theorem State.incF_mesh (s : State) (r : Reg) (hi lo v : Nat) : (s.incF r hi lo v).mesh = s.mesh := rfl
@[simp] theorem State.incF_snaps (s : State) (r : Reg) (hi lo v : Nat) : (s.incF r hi lo v).snaps = s.snaps := rfl
@[simp] theorem State.incF_snapId (s : State) (r : Reg) (hi lo v : Nat) : (s.incF r hi lo v).snapId = s.snapId := rfl
@[simp] theorem State.incF_pair (s : State) (r : Reg) (hi lo v : Nat) : (s.incF r hi lo v).pair = s.pair := rfl
@[simp] theorem State.incF_mirror (s : State) (r : Reg) (hi lo v : Nat) : (s.incF r hi lo v).mirror = s.mirror := rfl
@[simp] theorem State.incF_integ (s : State) (r : Reg) (hi lo v : Nat) : (s.incF r hi lo v).integ = s.integ := rfl
@[simp] theorem State.incF_msix (s : State) (r : Reg) (hi lo v : Nat) : (s.incF r hi lo v).msix = s.msix := rfl
@[simp] theorem State.incF_dbg (s : State) (r : Reg) (hi lo v : Nat) : (s.incF r hi lo v).dbg = s.dbg := rfl
@[simp] theorem State.incF_latches (s : State) (r : Reg) (hi lo v : Nat) : (s.incF r hi lo v).latches = s.latches := rfl
@[simp] theorem State.incF_out (s : State) (r : Reg) (hi lo v : Nat) : (s.incF r hi lo v).out = s.out := rfl
@[simp] theorem State.incF_free (s : State) (r : Reg) (hi lo v : Nat) : (s.incF r hi lo v).free = s.free := rfl
@[simp] theorem State.incF_taps (s : State) (r : Reg) (hi lo v : Nat) : (s.incF r hi lo v).taps = s.taps := rfl
@[simp] theorem State.incF_sramW (s : State) (r : Reg) (hi lo v : Nat) : (s.incF r hi lo v).sramW = s.sramW := rfl

/-! ## setStn -/

@[simp] theorem State.setStn_pending (s : State) (n : Nat) (x : Stn) : (s.setStn n x).pending = s.pending := rfl
@[simp] theorem State.setStn_clk (s : State) (n : Nat) (x : Stn) : (s.setStn n x).clk = s.clk := rfl
@[simp] theorem State.setStn_regs (s : State) (n : Nat) (x : Stn) : (s.setStn n x).regs = s.regs := rfl
@[simp] theorem State.setStn_sram (s : State) (n : Nat) (x : Stn) : (s.setStn n x).sram = s.sram := rfl
@[simp] theorem State.setStn_srcs (s : State) (n : Nat) (x : Stn) : (s.setStn n x).srcs = s.srcs := rfl
@[simp] theorem State.setStn_jrn (s : State) (n : Nat) (x : Stn) : (s.setStn n x).jrn = s.jrn := rfl
@[simp] theorem State.setStn_subs (s : State) (n : Nat) (x : Stn) : (s.setStn n x).subs = s.subs := rfl
@[simp] theorem State.setStn_oasisA (s : State) (n : Nat) (x : Stn) : (s.setStn n x).oasisA = s.oasisA := rfl
@[simp] theorem State.setStn_oasisB (s : State) (n : Nat) (x : Stn) : (s.setStn n x).oasisB = s.oasisB := rfl
@[simp] theorem State.setStn_skim (s : State) (n : Nat) (x : Stn) : (s.setStn n x).skim = s.skim := rfl
@[simp] theorem State.setStn_wm (s : State) (n : Nat) (x : Stn) : (s.setStn n x).wm = s.wm := rfl
@[simp] theorem State.setStn_progs (s : State) (n : Nat) (x : Stn) : (s.setStn n x).progs = s.progs := rfl
@[simp] theorem State.setStn_led (s : State) (n : Nat) (x : Stn) : (s.setStn n x).led = s.led := rfl
@[simp] theorem State.setStn_watches (s : State) (n : Nat) (x : Stn) : (s.setStn n x).watches = s.watches := rfl
@[simp] theorem State.setStn_capIds (s : State) (n : Nat) (x : Stn) : (s.setStn n x).capIds = s.capIds := rfl
@[simp] theorem State.setStn_chnCkpt (s : State) (n : Nat) (x : Stn) : (s.setStn n x).chnCkpt = s.chnCkpt := rfl
@[simp] theorem State.setStn_churn (s : State) (n : Nat) (x : Stn) : (s.setStn n x).churn = s.churn := rfl
@[simp] theorem State.setStn_ctxs (s : State) (n : Nat) (x : Stn) : (s.setStn n x).ctxs = s.ctxs := rfl
@[simp] theorem State.setStn_lease (s : State) (n : Nat) (x : Stn) : (s.setStn n x).lease = s.lease := rfl
@[simp] theorem State.setStn_plan (s : State) (n : Nat) (x : Stn) : (s.setStn n x).plan = s.plan := rfl
@[simp] theorem State.setStn_mbxs (s : State) (n : Nat) (x : Stn) : (s.setStn n x).mbxs = s.mbxs := rfl
@[simp] theorem State.setStn_portB (s : State) (n : Nat) (x : Stn) : (s.setStn n x).portB = s.portB := rfl
@[simp] theorem State.setStn_fw (s : State) (n : Nat) (x : Stn) : (s.setStn n x).fw = s.fw := rfl
@[simp] theorem State.setStn_sec (s : State) (n : Nat) (x : Stn) : (s.setStn n x).sec = s.sec := rfl
@[simp] theorem State.setStn_node (s : State) (n : Nat) (x : Stn) : (s.setStn n x).node = s.node := rfl
@[simp] theorem State.setStn_chans (s : State) (n : Nat) (x : Stn) : (s.setStn n x).chans = s.chans := rfl
@[simp] theorem State.setStn_egr (s : State) (n : Nat) (x : Stn) : (s.setStn n x).egr = s.egr := rfl
@[simp] theorem State.setStn_gray (s : State) (n : Nat) (x : Stn) : (s.setStn n x).gray = s.gray := rfl
@[simp] theorem State.setStn_pins (s : State) (n : Nat) (x : Stn) : (s.setStn n x).pins = s.pins := rfl
@[simp] theorem State.setStn_hold (s : State) (n : Nat) (x : Stn) : (s.setStn n x).hold = s.hold := rfl
@[simp] theorem State.setStn_mesh (s : State) (n : Nat) (x : Stn) : (s.setStn n x).mesh = s.mesh := rfl
@[simp] theorem State.setStn_snaps (s : State) (n : Nat) (x : Stn) : (s.setStn n x).snaps = s.snaps := rfl
@[simp] theorem State.setStn_snapId (s : State) (n : Nat) (x : Stn) : (s.setStn n x).snapId = s.snapId := rfl
@[simp] theorem State.setStn_pair (s : State) (n : Nat) (x : Stn) : (s.setStn n x).pair = s.pair := rfl
@[simp] theorem State.setStn_mirror (s : State) (n : Nat) (x : Stn) : (s.setStn n x).mirror = s.mirror := rfl
@[simp] theorem State.setStn_integ (s : State) (n : Nat) (x : Stn) : (s.setStn n x).integ = s.integ := rfl
@[simp] theorem State.setStn_msix (s : State) (n : Nat) (x : Stn) : (s.setStn n x).msix = s.msix := rfl
@[simp] theorem State.setStn_dbg (s : State) (n : Nat) (x : Stn) : (s.setStn n x).dbg = s.dbg := rfl
@[simp] theorem State.setStn_latches (s : State) (n : Nat) (x : Stn) : (s.setStn n x).latches = s.latches := rfl
@[simp] theorem State.setStn_out (s : State) (n : Nat) (x : Stn) : (s.setStn n x).out = s.out := rfl
@[simp] theorem State.setStn_free (s : State) (n : Nat) (x : Stn) : (s.setStn n x).free = s.free := rfl
@[simp] theorem State.setStn_taps (s : State) (n : Nat) (x : Stn) : (s.setStn n x).taps = s.taps := rfl
@[simp] theorem State.setStn_hw (s : State) (n : Nat) (x : Stn) : (s.setStn n x).hw = s.hw := rfl
@[simp] theorem State.setStn_sramW (s : State) (n : Nat) (x : Stn) : (s.setStn n x).sramW = s.sramW := rfl

/-! ## modStn -/

@[simp] theorem State.modStn_pending (s : State) (n : Nat) (f : Stn → Stn) : (s.modStn n f).pending = s.pending := rfl
@[simp] theorem State.modStn_clk (s : State) (n : Nat) (f : Stn → Stn) : (s.modStn n f).clk = s.clk := rfl
@[simp] theorem State.modStn_regs (s : State) (n : Nat) (f : Stn → Stn) : (s.modStn n f).regs = s.regs := rfl
@[simp] theorem State.modStn_sram (s : State) (n : Nat) (f : Stn → Stn) : (s.modStn n f).sram = s.sram := rfl
@[simp] theorem State.modStn_srcs (s : State) (n : Nat) (f : Stn → Stn) : (s.modStn n f).srcs = s.srcs := rfl
@[simp] theorem State.modStn_jrn (s : State) (n : Nat) (f : Stn → Stn) : (s.modStn n f).jrn = s.jrn := rfl
@[simp] theorem State.modStn_subs (s : State) (n : Nat) (f : Stn → Stn) : (s.modStn n f).subs = s.subs := rfl
@[simp] theorem State.modStn_oasisA (s : State) (n : Nat) (f : Stn → Stn) : (s.modStn n f).oasisA = s.oasisA := rfl
@[simp] theorem State.modStn_oasisB (s : State) (n : Nat) (f : Stn → Stn) : (s.modStn n f).oasisB = s.oasisB := rfl
@[simp] theorem State.modStn_skim (s : State) (n : Nat) (f : Stn → Stn) : (s.modStn n f).skim = s.skim := rfl
@[simp] theorem State.modStn_wm (s : State) (n : Nat) (f : Stn → Stn) : (s.modStn n f).wm = s.wm := rfl
@[simp] theorem State.modStn_progs (s : State) (n : Nat) (f : Stn → Stn) : (s.modStn n f).progs = s.progs := rfl
@[simp] theorem State.modStn_led (s : State) (n : Nat) (f : Stn → Stn) : (s.modStn n f).led = s.led := rfl
@[simp] theorem State.modStn_watches (s : State) (n : Nat) (f : Stn → Stn) : (s.modStn n f).watches = s.watches := rfl
@[simp] theorem State.modStn_capIds (s : State) (n : Nat) (f : Stn → Stn) : (s.modStn n f).capIds = s.capIds := rfl
@[simp] theorem State.modStn_chnCkpt (s : State) (n : Nat) (f : Stn → Stn) : (s.modStn n f).chnCkpt = s.chnCkpt := rfl
@[simp] theorem State.modStn_churn (s : State) (n : Nat) (f : Stn → Stn) : (s.modStn n f).churn = s.churn := rfl
@[simp] theorem State.modStn_ctxs (s : State) (n : Nat) (f : Stn → Stn) : (s.modStn n f).ctxs = s.ctxs := rfl
@[simp] theorem State.modStn_lease (s : State) (n : Nat) (f : Stn → Stn) : (s.modStn n f).lease = s.lease := rfl
@[simp] theorem State.modStn_plan (s : State) (n : Nat) (f : Stn → Stn) : (s.modStn n f).plan = s.plan := rfl
@[simp] theorem State.modStn_mbxs (s : State) (n : Nat) (f : Stn → Stn) : (s.modStn n f).mbxs = s.mbxs := rfl
@[simp] theorem State.modStn_portB (s : State) (n : Nat) (f : Stn → Stn) : (s.modStn n f).portB = s.portB := rfl
@[simp] theorem State.modStn_fw (s : State) (n : Nat) (f : Stn → Stn) : (s.modStn n f).fw = s.fw := rfl
@[simp] theorem State.modStn_sec (s : State) (n : Nat) (f : Stn → Stn) : (s.modStn n f).sec = s.sec := rfl
@[simp] theorem State.modStn_node (s : State) (n : Nat) (f : Stn → Stn) : (s.modStn n f).node = s.node := rfl
@[simp] theorem State.modStn_chans (s : State) (n : Nat) (f : Stn → Stn) : (s.modStn n f).chans = s.chans := rfl
@[simp] theorem State.modStn_egr (s : State) (n : Nat) (f : Stn → Stn) : (s.modStn n f).egr = s.egr := rfl
@[simp] theorem State.modStn_gray (s : State) (n : Nat) (f : Stn → Stn) : (s.modStn n f).gray = s.gray := rfl
@[simp] theorem State.modStn_pins (s : State) (n : Nat) (f : Stn → Stn) : (s.modStn n f).pins = s.pins := rfl
@[simp] theorem State.modStn_hold (s : State) (n : Nat) (f : Stn → Stn) : (s.modStn n f).hold = s.hold := rfl
@[simp] theorem State.modStn_mesh (s : State) (n : Nat) (f : Stn → Stn) : (s.modStn n f).mesh = s.mesh := rfl
@[simp] theorem State.modStn_snaps (s : State) (n : Nat) (f : Stn → Stn) : (s.modStn n f).snaps = s.snaps := rfl
@[simp] theorem State.modStn_snapId (s : State) (n : Nat) (f : Stn → Stn) : (s.modStn n f).snapId = s.snapId := rfl
@[simp] theorem State.modStn_pair (s : State) (n : Nat) (f : Stn → Stn) : (s.modStn n f).pair = s.pair := rfl
@[simp] theorem State.modStn_mirror (s : State) (n : Nat) (f : Stn → Stn) : (s.modStn n f).mirror = s.mirror := rfl
@[simp] theorem State.modStn_integ (s : State) (n : Nat) (f : Stn → Stn) : (s.modStn n f).integ = s.integ := rfl
@[simp] theorem State.modStn_msix (s : State) (n : Nat) (f : Stn → Stn) : (s.modStn n f).msix = s.msix := rfl
@[simp] theorem State.modStn_dbg (s : State) (n : Nat) (f : Stn → Stn) : (s.modStn n f).dbg = s.dbg := rfl
@[simp] theorem State.modStn_latches (s : State) (n : Nat) (f : Stn → Stn) : (s.modStn n f).latches = s.latches := rfl
@[simp] theorem State.modStn_out (s : State) (n : Nat) (f : Stn → Stn) : (s.modStn n f).out = s.out := rfl
@[simp] theorem State.modStn_free (s : State) (n : Nat) (f : Stn → Stn) : (s.modStn n f).free = s.free := rfl
@[simp] theorem State.modStn_taps (s : State) (n : Nat) (f : Stn → Stn) : (s.modStn n f).taps = s.taps := rfl
@[simp] theorem State.modStn_hw (s : State) (n : Nat) (f : Stn → Stn) : (s.modStn n f).hw = s.hw := rfl
@[simp] theorem State.modStn_sramW (s : State) (n : Nat) (f : Stn → Stn) : (s.modStn n f).sramW = s.sramW := rfl

/-! ## modSrc -/

@[simp] theorem State.modSrc_pending (s : State) (k : Nat) (f : HubSrc → HubSrc) : (s.modSrc k f).pending = s.pending := rfl
@[simp] theorem State.modSrc_clk (s : State) (k : Nat) (f : HubSrc → HubSrc) : (s.modSrc k f).clk = s.clk := rfl
@[simp] theorem State.modSrc_regs (s : State) (k : Nat) (f : HubSrc → HubSrc) : (s.modSrc k f).regs = s.regs := rfl
@[simp] theorem State.modSrc_sram (s : State) (k : Nat) (f : HubSrc → HubSrc) : (s.modSrc k f).sram = s.sram := rfl
@[simp] theorem State.modSrc_stns (s : State) (k : Nat) (f : HubSrc → HubSrc) : (s.modSrc k f).stns = s.stns := rfl
@[simp] theorem State.modSrc_jrn (s : State) (k : Nat) (f : HubSrc → HubSrc) : (s.modSrc k f).jrn = s.jrn := rfl
@[simp] theorem State.modSrc_subs (s : State) (k : Nat) (f : HubSrc → HubSrc) : (s.modSrc k f).subs = s.subs := rfl
@[simp] theorem State.modSrc_oasisA (s : State) (k : Nat) (f : HubSrc → HubSrc) : (s.modSrc k f).oasisA = s.oasisA := rfl
@[simp] theorem State.modSrc_oasisB (s : State) (k : Nat) (f : HubSrc → HubSrc) : (s.modSrc k f).oasisB = s.oasisB := rfl
@[simp] theorem State.modSrc_skim (s : State) (k : Nat) (f : HubSrc → HubSrc) : (s.modSrc k f).skim = s.skim := rfl
@[simp] theorem State.modSrc_wm (s : State) (k : Nat) (f : HubSrc → HubSrc) : (s.modSrc k f).wm = s.wm := rfl
@[simp] theorem State.modSrc_progs (s : State) (k : Nat) (f : HubSrc → HubSrc) : (s.modSrc k f).progs = s.progs := rfl
@[simp] theorem State.modSrc_led (s : State) (k : Nat) (f : HubSrc → HubSrc) : (s.modSrc k f).led = s.led := rfl
@[simp] theorem State.modSrc_watches (s : State) (k : Nat) (f : HubSrc → HubSrc) : (s.modSrc k f).watches = s.watches := rfl
@[simp] theorem State.modSrc_capIds (s : State) (k : Nat) (f : HubSrc → HubSrc) : (s.modSrc k f).capIds = s.capIds := rfl
@[simp] theorem State.modSrc_chnCkpt (s : State) (k : Nat) (f : HubSrc → HubSrc) : (s.modSrc k f).chnCkpt = s.chnCkpt := rfl
@[simp] theorem State.modSrc_churn (s : State) (k : Nat) (f : HubSrc → HubSrc) : (s.modSrc k f).churn = s.churn := rfl
@[simp] theorem State.modSrc_ctxs (s : State) (k : Nat) (f : HubSrc → HubSrc) : (s.modSrc k f).ctxs = s.ctxs := rfl
@[simp] theorem State.modSrc_lease (s : State) (k : Nat) (f : HubSrc → HubSrc) : (s.modSrc k f).lease = s.lease := rfl
@[simp] theorem State.modSrc_plan (s : State) (k : Nat) (f : HubSrc → HubSrc) : (s.modSrc k f).plan = s.plan := rfl
@[simp] theorem State.modSrc_mbxs (s : State) (k : Nat) (f : HubSrc → HubSrc) : (s.modSrc k f).mbxs = s.mbxs := rfl
@[simp] theorem State.modSrc_portB (s : State) (k : Nat) (f : HubSrc → HubSrc) : (s.modSrc k f).portB = s.portB := rfl
@[simp] theorem State.modSrc_fw (s : State) (k : Nat) (f : HubSrc → HubSrc) : (s.modSrc k f).fw = s.fw := rfl
@[simp] theorem State.modSrc_sec (s : State) (k : Nat) (f : HubSrc → HubSrc) : (s.modSrc k f).sec = s.sec := rfl
@[simp] theorem State.modSrc_node (s : State) (k : Nat) (f : HubSrc → HubSrc) : (s.modSrc k f).node = s.node := rfl
@[simp] theorem State.modSrc_chans (s : State) (k : Nat) (f : HubSrc → HubSrc) : (s.modSrc k f).chans = s.chans := rfl
@[simp] theorem State.modSrc_egr (s : State) (k : Nat) (f : HubSrc → HubSrc) : (s.modSrc k f).egr = s.egr := rfl
@[simp] theorem State.modSrc_gray (s : State) (k : Nat) (f : HubSrc → HubSrc) : (s.modSrc k f).gray = s.gray := rfl
@[simp] theorem State.modSrc_pins (s : State) (k : Nat) (f : HubSrc → HubSrc) : (s.modSrc k f).pins = s.pins := rfl
@[simp] theorem State.modSrc_hold (s : State) (k : Nat) (f : HubSrc → HubSrc) : (s.modSrc k f).hold = s.hold := rfl
@[simp] theorem State.modSrc_mesh (s : State) (k : Nat) (f : HubSrc → HubSrc) : (s.modSrc k f).mesh = s.mesh := rfl
@[simp] theorem State.modSrc_snaps (s : State) (k : Nat) (f : HubSrc → HubSrc) : (s.modSrc k f).snaps = s.snaps := rfl
@[simp] theorem State.modSrc_snapId (s : State) (k : Nat) (f : HubSrc → HubSrc) : (s.modSrc k f).snapId = s.snapId := rfl
@[simp] theorem State.modSrc_pair (s : State) (k : Nat) (f : HubSrc → HubSrc) : (s.modSrc k f).pair = s.pair := rfl
@[simp] theorem State.modSrc_mirror (s : State) (k : Nat) (f : HubSrc → HubSrc) : (s.modSrc k f).mirror = s.mirror := rfl
@[simp] theorem State.modSrc_integ (s : State) (k : Nat) (f : HubSrc → HubSrc) : (s.modSrc k f).integ = s.integ := rfl
@[simp] theorem State.modSrc_msix (s : State) (k : Nat) (f : HubSrc → HubSrc) : (s.modSrc k f).msix = s.msix := rfl
@[simp] theorem State.modSrc_dbg (s : State) (k : Nat) (f : HubSrc → HubSrc) : (s.modSrc k f).dbg = s.dbg := rfl
@[simp] theorem State.modSrc_latches (s : State) (k : Nat) (f : HubSrc → HubSrc) : (s.modSrc k f).latches = s.latches := rfl
@[simp] theorem State.modSrc_out (s : State) (k : Nat) (f : HubSrc → HubSrc) : (s.modSrc k f).out = s.out := rfl
@[simp] theorem State.modSrc_free (s : State) (k : Nat) (f : HubSrc → HubSrc) : (s.modSrc k f).free = s.free := rfl
@[simp] theorem State.modSrc_taps (s : State) (k : Nat) (f : HubSrc → HubSrc) : (s.modSrc k f).taps = s.taps := rfl
@[simp] theorem State.modSrc_hw (s : State) (k : Nat) (f : HubSrc → HubSrc) : (s.modSrc k f).hw = s.hw := rfl
@[simp] theorem State.modSrc_sramW (s : State) (k : Nat) (f : HubSrc → HubSrc) : (s.modSrc k f).sramW = s.sramW := rfl

/-! ## modCtx -/

@[simp] theorem State.modCtx_pending (s : State) (c : Nat) (f : CtxS → CtxS) : (s.modCtx c f).pending = s.pending := rfl
@[simp] theorem State.modCtx_clk (s : State) (c : Nat) (f : CtxS → CtxS) : (s.modCtx c f).clk = s.clk := rfl
@[simp] theorem State.modCtx_regs (s : State) (c : Nat) (f : CtxS → CtxS) : (s.modCtx c f).regs = s.regs := rfl
@[simp] theorem State.modCtx_sram (s : State) (c : Nat) (f : CtxS → CtxS) : (s.modCtx c f).sram = s.sram := rfl
@[simp] theorem State.modCtx_stns (s : State) (c : Nat) (f : CtxS → CtxS) : (s.modCtx c f).stns = s.stns := rfl
@[simp] theorem State.modCtx_srcs (s : State) (c : Nat) (f : CtxS → CtxS) : (s.modCtx c f).srcs = s.srcs := rfl
@[simp] theorem State.modCtx_jrn (s : State) (c : Nat) (f : CtxS → CtxS) : (s.modCtx c f).jrn = s.jrn := rfl
@[simp] theorem State.modCtx_subs (s : State) (c : Nat) (f : CtxS → CtxS) : (s.modCtx c f).subs = s.subs := rfl
@[simp] theorem State.modCtx_oasisA (s : State) (c : Nat) (f : CtxS → CtxS) : (s.modCtx c f).oasisA = s.oasisA := rfl
@[simp] theorem State.modCtx_oasisB (s : State) (c : Nat) (f : CtxS → CtxS) : (s.modCtx c f).oasisB = s.oasisB := rfl
@[simp] theorem State.modCtx_skim (s : State) (c : Nat) (f : CtxS → CtxS) : (s.modCtx c f).skim = s.skim := rfl
@[simp] theorem State.modCtx_wm (s : State) (c : Nat) (f : CtxS → CtxS) : (s.modCtx c f).wm = s.wm := rfl
@[simp] theorem State.modCtx_progs (s : State) (c : Nat) (f : CtxS → CtxS) : (s.modCtx c f).progs = s.progs := rfl
@[simp] theorem State.modCtx_led (s : State) (c : Nat) (f : CtxS → CtxS) : (s.modCtx c f).led = s.led := rfl
@[simp] theorem State.modCtx_watches (s : State) (c : Nat) (f : CtxS → CtxS) : (s.modCtx c f).watches = s.watches := rfl
@[simp] theorem State.modCtx_capIds (s : State) (c : Nat) (f : CtxS → CtxS) : (s.modCtx c f).capIds = s.capIds := rfl
@[simp] theorem State.modCtx_chnCkpt (s : State) (c : Nat) (f : CtxS → CtxS) : (s.modCtx c f).chnCkpt = s.chnCkpt := rfl
@[simp] theorem State.modCtx_churn (s : State) (c : Nat) (f : CtxS → CtxS) : (s.modCtx c f).churn = s.churn := rfl
@[simp] theorem State.modCtx_lease (s : State) (c : Nat) (f : CtxS → CtxS) : (s.modCtx c f).lease = s.lease := rfl
@[simp] theorem State.modCtx_plan (s : State) (c : Nat) (f : CtxS → CtxS) : (s.modCtx c f).plan = s.plan := rfl
@[simp] theorem State.modCtx_mbxs (s : State) (c : Nat) (f : CtxS → CtxS) : (s.modCtx c f).mbxs = s.mbxs := rfl
@[simp] theorem State.modCtx_portB (s : State) (c : Nat) (f : CtxS → CtxS) : (s.modCtx c f).portB = s.portB := rfl
@[simp] theorem State.modCtx_fw (s : State) (c : Nat) (f : CtxS → CtxS) : (s.modCtx c f).fw = s.fw := rfl
@[simp] theorem State.modCtx_sec (s : State) (c : Nat) (f : CtxS → CtxS) : (s.modCtx c f).sec = s.sec := rfl
@[simp] theorem State.modCtx_node (s : State) (c : Nat) (f : CtxS → CtxS) : (s.modCtx c f).node = s.node := rfl
@[simp] theorem State.modCtx_chans (s : State) (c : Nat) (f : CtxS → CtxS) : (s.modCtx c f).chans = s.chans := rfl
@[simp] theorem State.modCtx_egr (s : State) (c : Nat) (f : CtxS → CtxS) : (s.modCtx c f).egr = s.egr := rfl
@[simp] theorem State.modCtx_gray (s : State) (c : Nat) (f : CtxS → CtxS) : (s.modCtx c f).gray = s.gray := rfl
@[simp] theorem State.modCtx_pins (s : State) (c : Nat) (f : CtxS → CtxS) : (s.modCtx c f).pins = s.pins := rfl
@[simp] theorem State.modCtx_hold (s : State) (c : Nat) (f : CtxS → CtxS) : (s.modCtx c f).hold = s.hold := rfl
@[simp] theorem State.modCtx_mesh (s : State) (c : Nat) (f : CtxS → CtxS) : (s.modCtx c f).mesh = s.mesh := rfl
@[simp] theorem State.modCtx_snaps (s : State) (c : Nat) (f : CtxS → CtxS) : (s.modCtx c f).snaps = s.snaps := rfl
@[simp] theorem State.modCtx_snapId (s : State) (c : Nat) (f : CtxS → CtxS) : (s.modCtx c f).snapId = s.snapId := rfl
@[simp] theorem State.modCtx_pair (s : State) (c : Nat) (f : CtxS → CtxS) : (s.modCtx c f).pair = s.pair := rfl
@[simp] theorem State.modCtx_mirror (s : State) (c : Nat) (f : CtxS → CtxS) : (s.modCtx c f).mirror = s.mirror := rfl
@[simp] theorem State.modCtx_integ (s : State) (c : Nat) (f : CtxS → CtxS) : (s.modCtx c f).integ = s.integ := rfl
@[simp] theorem State.modCtx_msix (s : State) (c : Nat) (f : CtxS → CtxS) : (s.modCtx c f).msix = s.msix := rfl
@[simp] theorem State.modCtx_dbg (s : State) (c : Nat) (f : CtxS → CtxS) : (s.modCtx c f).dbg = s.dbg := rfl
@[simp] theorem State.modCtx_latches (s : State) (c : Nat) (f : CtxS → CtxS) : (s.modCtx c f).latches = s.latches := rfl
@[simp] theorem State.modCtx_out (s : State) (c : Nat) (f : CtxS → CtxS) : (s.modCtx c f).out = s.out := rfl
@[simp] theorem State.modCtx_free (s : State) (c : Nat) (f : CtxS → CtxS) : (s.modCtx c f).free = s.free := rfl
@[simp] theorem State.modCtx_taps (s : State) (c : Nat) (f : CtxS → CtxS) : (s.modCtx c f).taps = s.taps := rfl
@[simp] theorem State.modCtx_hw (s : State) (c : Nat) (f : CtxS → CtxS) : (s.modCtx c f).hw = s.hw := rfl
@[simp] theorem State.modCtx_sramW (s : State) (c : Nat) (f : CtxS → CtxS) : (s.modCtx c f).sramW = s.sramW := rfl

/-! ## emit -/

@[simp] theorem State.emit_pending (s : State) (o : Out) : (s.emit o).pending = s.pending := rfl
@[simp] theorem State.emit_clk (s : State) (o : Out) : (s.emit o).clk = s.clk := rfl
@[simp] theorem State.emit_regs (s : State) (o : Out) : (s.emit o).regs = s.regs := rfl
@[simp] theorem State.emit_sram (s : State) (o : Out) : (s.emit o).sram = s.sram := rfl
@[simp] theorem State.emit_stns (s : State) (o : Out) : (s.emit o).stns = s.stns := rfl
@[simp] theorem State.emit_srcs (s : State) (o : Out) : (s.emit o).srcs = s.srcs := rfl
@[simp] theorem State.emit_jrn (s : State) (o : Out) : (s.emit o).jrn = s.jrn := rfl
@[simp] theorem State.emit_subs (s : State) (o : Out) : (s.emit o).subs = s.subs := rfl
@[simp] theorem State.emit_oasisA (s : State) (o : Out) : (s.emit o).oasisA = s.oasisA := rfl
@[simp] theorem State.emit_oasisB (s : State) (o : Out) : (s.emit o).oasisB = s.oasisB := rfl
@[simp] theorem State.emit_skim (s : State) (o : Out) : (s.emit o).skim = s.skim := rfl
@[simp] theorem State.emit_wm (s : State) (o : Out) : (s.emit o).wm = s.wm := rfl
@[simp] theorem State.emit_progs (s : State) (o : Out) : (s.emit o).progs = s.progs := rfl
@[simp] theorem State.emit_led (s : State) (o : Out) : (s.emit o).led = s.led := rfl
@[simp] theorem State.emit_watches (s : State) (o : Out) : (s.emit o).watches = s.watches := rfl
@[simp] theorem State.emit_capIds (s : State) (o : Out) : (s.emit o).capIds = s.capIds := rfl
@[simp] theorem State.emit_chnCkpt (s : State) (o : Out) : (s.emit o).chnCkpt = s.chnCkpt := rfl
@[simp] theorem State.emit_churn (s : State) (o : Out) : (s.emit o).churn = s.churn := rfl
@[simp] theorem State.emit_ctxs (s : State) (o : Out) : (s.emit o).ctxs = s.ctxs := rfl
@[simp] theorem State.emit_lease (s : State) (o : Out) : (s.emit o).lease = s.lease := rfl
@[simp] theorem State.emit_plan (s : State) (o : Out) : (s.emit o).plan = s.plan := rfl
@[simp] theorem State.emit_mbxs (s : State) (o : Out) : (s.emit o).mbxs = s.mbxs := rfl
@[simp] theorem State.emit_portB (s : State) (o : Out) : (s.emit o).portB = s.portB := rfl
@[simp] theorem State.emit_fw (s : State) (o : Out) : (s.emit o).fw = s.fw := rfl
@[simp] theorem State.emit_sec (s : State) (o : Out) : (s.emit o).sec = s.sec := rfl
@[simp] theorem State.emit_node (s : State) (o : Out) : (s.emit o).node = s.node := rfl
@[simp] theorem State.emit_chans (s : State) (o : Out) : (s.emit o).chans = s.chans := rfl
@[simp] theorem State.emit_egr (s : State) (o : Out) : (s.emit o).egr = s.egr := rfl
@[simp] theorem State.emit_gray (s : State) (o : Out) : (s.emit o).gray = s.gray := rfl
@[simp] theorem State.emit_pins (s : State) (o : Out) : (s.emit o).pins = s.pins := rfl
@[simp] theorem State.emit_hold (s : State) (o : Out) : (s.emit o).hold = s.hold := rfl
@[simp] theorem State.emit_mesh (s : State) (o : Out) : (s.emit o).mesh = s.mesh := rfl
@[simp] theorem State.emit_snaps (s : State) (o : Out) : (s.emit o).snaps = s.snaps := rfl
@[simp] theorem State.emit_snapId (s : State) (o : Out) : (s.emit o).snapId = s.snapId := rfl
@[simp] theorem State.emit_pair (s : State) (o : Out) : (s.emit o).pair = s.pair := rfl
@[simp] theorem State.emit_mirror (s : State) (o : Out) : (s.emit o).mirror = s.mirror := rfl
@[simp] theorem State.emit_integ (s : State) (o : Out) : (s.emit o).integ = s.integ := rfl
@[simp] theorem State.emit_msix (s : State) (o : Out) : (s.emit o).msix = s.msix := rfl
@[simp] theorem State.emit_dbg (s : State) (o : Out) : (s.emit o).dbg = s.dbg := rfl
@[simp] theorem State.emit_latches (s : State) (o : Out) : (s.emit o).latches = s.latches := rfl
@[simp] theorem State.emit_free (s : State) (o : Out) : (s.emit o).free = s.free := rfl
@[simp] theorem State.emit_taps (s : State) (o : Out) : (s.emit o).taps = s.taps := rfl
@[simp] theorem State.emit_hw (s : State) (o : Out) : (s.emit o).hw = s.hw := rfl
@[simp] theorem State.emit_sramW (s : State) (o : Out) : (s.emit o).sramW = s.sramW := rfl

/-! ## noLatch -/

@[simp] theorem State.noLatch_pending (s : State) (p : Port) (off : Nat) : (s.noLatch p off).pending = s.pending := rfl
@[simp] theorem State.noLatch_clk (s : State) (p : Port) (off : Nat) : (s.noLatch p off).clk = s.clk := rfl
@[simp] theorem State.noLatch_regs (s : State) (p : Port) (off : Nat) : (s.noLatch p off).regs = s.regs := rfl
@[simp] theorem State.noLatch_sram (s : State) (p : Port) (off : Nat) : (s.noLatch p off).sram = s.sram := rfl
@[simp] theorem State.noLatch_stns (s : State) (p : Port) (off : Nat) : (s.noLatch p off).stns = s.stns := rfl
@[simp] theorem State.noLatch_srcs (s : State) (p : Port) (off : Nat) : (s.noLatch p off).srcs = s.srcs := rfl
@[simp] theorem State.noLatch_jrn (s : State) (p : Port) (off : Nat) : (s.noLatch p off).jrn = s.jrn := rfl
@[simp] theorem State.noLatch_subs (s : State) (p : Port) (off : Nat) : (s.noLatch p off).subs = s.subs := rfl
@[simp] theorem State.noLatch_oasisA (s : State) (p : Port) (off : Nat) : (s.noLatch p off).oasisA = s.oasisA := rfl
@[simp] theorem State.noLatch_oasisB (s : State) (p : Port) (off : Nat) : (s.noLatch p off).oasisB = s.oasisB := rfl
@[simp] theorem State.noLatch_skim (s : State) (p : Port) (off : Nat) : (s.noLatch p off).skim = s.skim := rfl
@[simp] theorem State.noLatch_wm (s : State) (p : Port) (off : Nat) : (s.noLatch p off).wm = s.wm := rfl
@[simp] theorem State.noLatch_progs (s : State) (p : Port) (off : Nat) : (s.noLatch p off).progs = s.progs := rfl
@[simp] theorem State.noLatch_led (s : State) (p : Port) (off : Nat) : (s.noLatch p off).led = s.led := rfl
@[simp] theorem State.noLatch_watches (s : State) (p : Port) (off : Nat) : (s.noLatch p off).watches = s.watches := rfl
@[simp] theorem State.noLatch_capIds (s : State) (p : Port) (off : Nat) : (s.noLatch p off).capIds = s.capIds := rfl
@[simp] theorem State.noLatch_chnCkpt (s : State) (p : Port) (off : Nat) : (s.noLatch p off).chnCkpt = s.chnCkpt := rfl
@[simp] theorem State.noLatch_churn (s : State) (p : Port) (off : Nat) : (s.noLatch p off).churn = s.churn := rfl
@[simp] theorem State.noLatch_ctxs (s : State) (p : Port) (off : Nat) : (s.noLatch p off).ctxs = s.ctxs := rfl
@[simp] theorem State.noLatch_lease (s : State) (p : Port) (off : Nat) : (s.noLatch p off).lease = s.lease := rfl
@[simp] theorem State.noLatch_plan (s : State) (p : Port) (off : Nat) : (s.noLatch p off).plan = s.plan := rfl
@[simp] theorem State.noLatch_mbxs (s : State) (p : Port) (off : Nat) : (s.noLatch p off).mbxs = s.mbxs := rfl
@[simp] theorem State.noLatch_portB (s : State) (p : Port) (off : Nat) : (s.noLatch p off).portB = s.portB := rfl
@[simp] theorem State.noLatch_fw (s : State) (p : Port) (off : Nat) : (s.noLatch p off).fw = s.fw := rfl
@[simp] theorem State.noLatch_sec (s : State) (p : Port) (off : Nat) : (s.noLatch p off).sec = s.sec := rfl
@[simp] theorem State.noLatch_node (s : State) (p : Port) (off : Nat) : (s.noLatch p off).node = s.node := rfl
@[simp] theorem State.noLatch_chans (s : State) (p : Port) (off : Nat) : (s.noLatch p off).chans = s.chans := rfl
@[simp] theorem State.noLatch_egr (s : State) (p : Port) (off : Nat) : (s.noLatch p off).egr = s.egr := rfl
@[simp] theorem State.noLatch_gray (s : State) (p : Port) (off : Nat) : (s.noLatch p off).gray = s.gray := rfl
@[simp] theorem State.noLatch_pins (s : State) (p : Port) (off : Nat) : (s.noLatch p off).pins = s.pins := rfl
@[simp] theorem State.noLatch_hold (s : State) (p : Port) (off : Nat) : (s.noLatch p off).hold = s.hold := rfl
@[simp] theorem State.noLatch_mesh (s : State) (p : Port) (off : Nat) : (s.noLatch p off).mesh = s.mesh := rfl
@[simp] theorem State.noLatch_snaps (s : State) (p : Port) (off : Nat) : (s.noLatch p off).snaps = s.snaps := rfl
@[simp] theorem State.noLatch_snapId (s : State) (p : Port) (off : Nat) : (s.noLatch p off).snapId = s.snapId := rfl
@[simp] theorem State.noLatch_pair (s : State) (p : Port) (off : Nat) : (s.noLatch p off).pair = s.pair := rfl
@[simp] theorem State.noLatch_mirror (s : State) (p : Port) (off : Nat) : (s.noLatch p off).mirror = s.mirror := rfl
@[simp] theorem State.noLatch_integ (s : State) (p : Port) (off : Nat) : (s.noLatch p off).integ = s.integ := rfl
@[simp] theorem State.noLatch_msix (s : State) (p : Port) (off : Nat) : (s.noLatch p off).msix = s.msix := rfl
@[simp] theorem State.noLatch_dbg (s : State) (p : Port) (off : Nat) : (s.noLatch p off).dbg = s.dbg := rfl
@[simp] theorem State.noLatch_out (s : State) (p : Port) (off : Nat) : (s.noLatch p off).out = s.out := rfl
@[simp] theorem State.noLatch_free (s : State) (p : Port) (off : Nat) : (s.noLatch p off).free = s.free := rfl
@[simp] theorem State.noLatch_taps (s : State) (p : Port) (off : Nat) : (s.noLatch p off).taps = s.taps := rfl
@[simp] theorem State.noLatch_hw (s : State) (p : Port) (off : Nat) : (s.noLatch p off).hw = s.hw := rfl
@[simp] theorem State.noLatch_sramW (s : State) (p : Port) (off : Nat) : (s.noLatch p off).sramW = s.sramW := rfl

/-! ## What the updates write -/

@[simp] theorem State.setStn_stns (s : State) (n : Nat) (x : Stn) : (s.setStn n x).stns = sput s.stns n x := rfl
@[simp] theorem State.modStn_stns (s : State) (n : Nat) (f : Stn → Stn) : (s.modStn n f).stns = sput s.stns n (f (s.stn n)) := rfl
@[simp] theorem State.modSrc_srcs (s : State) (k : Nat) (f : HubSrc → HubSrc) : (s.modSrc k f).srcs = sput s.srcs k (f (s.src k)) := rfl
@[simp] theorem State.modCtx_ctxs (s : State) (c : Nat) (f : CtxS → CtxS) : (s.modCtx c f).ctxs = sput s.ctxs c (f (s.ctx c)) := rfl
@[simp] theorem State.emit_out (s : State) (o : Out) : (s.emit o).out = s.out ++ [o] := rfl

/-! ## settle -/

@[simp] theorem settle_pending (s x : State) : (settle s x).pending = s.pending := rfl
@[simp] theorem settle_integ (s x : State) : (settle s x).integ = s.integ := rfl
@[simp] theorem settle_sramW (s x : State) : (settle s x).sramW = [] := rfl
@[simp] theorem settle_sram (s x : State) : (settle s x).sram = x.sramW.foldl Memory.apply s.sram := rfl
@[simp] theorem settle_clk (s x : State) : (settle s x).clk = { x.clk with now := max s.clk.now x.clk.now } := rfl
@[simp] theorem settle_regs (s x : State) : (settle s x).regs = x.regs := rfl
@[simp] theorem settle_stns (s x : State) : (settle s x).stns = x.stns := rfl
@[simp] theorem settle_srcs (s x : State) : (settle s x).srcs = x.srcs := rfl
@[simp] theorem settle_jrn (s x : State) : (settle s x).jrn = x.jrn := rfl
@[simp] theorem settle_subs (s x : State) : (settle s x).subs = x.subs := rfl
@[simp] theorem settle_oasisA (s x : State) : (settle s x).oasisA = x.oasisA := rfl
@[simp] theorem settle_oasisB (s x : State) : (settle s x).oasisB = x.oasisB := rfl
@[simp] theorem settle_skim (s x : State) : (settle s x).skim = x.skim := rfl
@[simp] theorem settle_wm (s x : State) : (settle s x).wm = x.wm := rfl
@[simp] theorem settle_progs (s x : State) : (settle s x).progs = x.progs := rfl
@[simp] theorem settle_led (s x : State) : (settle s x).led = x.led := rfl
@[simp] theorem settle_watches (s x : State) : (settle s x).watches = x.watches := rfl
@[simp] theorem settle_capIds (s x : State) : (settle s x).capIds = x.capIds := rfl
@[simp] theorem settle_chnCkpt (s x : State) : (settle s x).chnCkpt = x.chnCkpt := rfl
@[simp] theorem settle_churn (s x : State) : (settle s x).churn = x.churn := rfl
@[simp] theorem settle_ctxs (s x : State) : (settle s x).ctxs = x.ctxs := rfl
@[simp] theorem settle_lease (s x : State) : (settle s x).lease = x.lease := rfl
@[simp] theorem settle_plan (s x : State) : (settle s x).plan = x.plan := rfl
@[simp] theorem settle_mbxs (s x : State) : (settle s x).mbxs = x.mbxs := rfl
@[simp] theorem settle_portB (s x : State) : (settle s x).portB = x.portB := rfl
@[simp] theorem settle_fw (s x : State) : (settle s x).fw = x.fw := rfl
@[simp] theorem settle_sec (s x : State) : (settle s x).sec = x.sec := rfl
@[simp] theorem settle_node (s x : State) : (settle s x).node = x.node := rfl
@[simp] theorem settle_chans (s x : State) : (settle s x).chans = x.chans := rfl
@[simp] theorem settle_egr (s x : State) : (settle s x).egr = x.egr := rfl
@[simp] theorem settle_gray (s x : State) : (settle s x).gray = x.gray := rfl
@[simp] theorem settle_pins (s x : State) : (settle s x).pins = x.pins := rfl
@[simp] theorem settle_hold (s x : State) : (settle s x).hold = x.hold := rfl
@[simp] theorem settle_mesh (s x : State) : (settle s x).mesh = x.mesh := rfl
@[simp] theorem settle_snaps (s x : State) : (settle s x).snaps = x.snaps := rfl
@[simp] theorem settle_snapId (s x : State) : (settle s x).snapId = x.snapId := rfl
@[simp] theorem settle_pair (s x : State) : (settle s x).pair = x.pair := rfl
@[simp] theorem settle_mirror (s x : State) : (settle s x).mirror = x.mirror := rfl
@[simp] theorem settle_msix (s x : State) : (settle s x).msix = x.msix := rfl
@[simp] theorem settle_dbg (s x : State) : (settle s x).dbg = x.dbg := rfl
@[simp] theorem settle_latches (s x : State) : (settle s x).latches = x.latches := rfl
@[simp] theorem settle_out (s x : State) : (settle s x).out = x.out := rfl
@[simp] theorem settle_free (s x : State) : (settle s x).free = x.free := rfl
@[simp] theorem settle_taps (s x : State) : (settle s x).taps = x.taps := rfl
@[simp] theorem settle_hw (s x : State) : (settle s x).hw = x.hw := rfl

/-! ## advance -/

@[simp] theorem State.advance_pending (s : State) (t : Nat) : (s.advance t).pending = s.pending := by unfold State.advance; split <;> rfl
@[simp] theorem State.advance_regs (s : State) (t : Nat) : (s.advance t).regs = s.regs := by unfold State.advance; split <;> rfl
@[simp] theorem State.advance_sram (s : State) (t : Nat) : (s.advance t).sram = s.sram := by unfold State.advance; split <;> rfl
@[simp] theorem State.advance_stns (s : State) (t : Nat) : (s.advance t).stns = s.stns := by unfold State.advance; split <;> rfl
@[simp] theorem State.advance_srcs (s : State) (t : Nat) : (s.advance t).srcs = s.srcs := by unfold State.advance; split <;> rfl
@[simp] theorem State.advance_jrn (s : State) (t : Nat) : (s.advance t).jrn = s.jrn := by unfold State.advance; split <;> rfl
@[simp] theorem State.advance_subs (s : State) (t : Nat) : (s.advance t).subs = s.subs := by unfold State.advance; split <;> rfl
@[simp] theorem State.advance_oasisA (s : State) (t : Nat) : (s.advance t).oasisA = s.oasisA := by unfold State.advance; split <;> rfl
@[simp] theorem State.advance_oasisB (s : State) (t : Nat) : (s.advance t).oasisB = s.oasisB := by unfold State.advance; split <;> rfl
@[simp] theorem State.advance_skim (s : State) (t : Nat) : (s.advance t).skim = s.skim := by unfold State.advance; split <;> rfl
@[simp] theorem State.advance_wm (s : State) (t : Nat) : (s.advance t).wm = s.wm := by unfold State.advance; split <;> rfl
@[simp] theorem State.advance_progs (s : State) (t : Nat) : (s.advance t).progs = s.progs := by unfold State.advance; split <;> rfl
@[simp] theorem State.advance_led (s : State) (t : Nat) : (s.advance t).led = s.led := by unfold State.advance; split <;> rfl
@[simp] theorem State.advance_watches (s : State) (t : Nat) : (s.advance t).watches = s.watches := by unfold State.advance; split <;> rfl
@[simp] theorem State.advance_capIds (s : State) (t : Nat) : (s.advance t).capIds = s.capIds := by unfold State.advance; split <;> rfl
@[simp] theorem State.advance_chnCkpt (s : State) (t : Nat) : (s.advance t).chnCkpt = s.chnCkpt := by unfold State.advance; split <;> rfl
@[simp] theorem State.advance_churn (s : State) (t : Nat) : (s.advance t).churn = s.churn := by unfold State.advance; split <;> rfl
@[simp] theorem State.advance_ctxs (s : State) (t : Nat) : (s.advance t).ctxs = s.ctxs := by unfold State.advance; split <;> rfl
@[simp] theorem State.advance_lease (s : State) (t : Nat) : (s.advance t).lease = s.lease := by unfold State.advance; split <;> rfl
@[simp] theorem State.advance_plan (s : State) (t : Nat) : (s.advance t).plan = s.plan := by unfold State.advance; split <;> rfl
@[simp] theorem State.advance_mbxs (s : State) (t : Nat) : (s.advance t).mbxs = s.mbxs := by unfold State.advance; split <;> rfl
@[simp] theorem State.advance_portB (s : State) (t : Nat) : (s.advance t).portB = s.portB := by unfold State.advance; split <;> rfl
@[simp] theorem State.advance_fw (s : State) (t : Nat) : (s.advance t).fw = s.fw := by unfold State.advance; split <;> rfl
@[simp] theorem State.advance_sec (s : State) (t : Nat) : (s.advance t).sec = s.sec := by unfold State.advance; split <;> rfl
@[simp] theorem State.advance_node (s : State) (t : Nat) : (s.advance t).node = s.node := by unfold State.advance; split <;> rfl
@[simp] theorem State.advance_chans (s : State) (t : Nat) : (s.advance t).chans = s.chans := by unfold State.advance; split <;> rfl
@[simp] theorem State.advance_egr (s : State) (t : Nat) : (s.advance t).egr = s.egr := by unfold State.advance; split <;> rfl
@[simp] theorem State.advance_gray (s : State) (t : Nat) : (s.advance t).gray = s.gray := by unfold State.advance; split <;> rfl
@[simp] theorem State.advance_pins (s : State) (t : Nat) : (s.advance t).pins = s.pins := by unfold State.advance; split <;> rfl
@[simp] theorem State.advance_hold (s : State) (t : Nat) : (s.advance t).hold = s.hold := by unfold State.advance; split <;> rfl
@[simp] theorem State.advance_mesh (s : State) (t : Nat) : (s.advance t).mesh = s.mesh := by unfold State.advance; split <;> rfl
@[simp] theorem State.advance_snaps (s : State) (t : Nat) : (s.advance t).snaps = s.snaps := by unfold State.advance; split <;> rfl
@[simp] theorem State.advance_snapId (s : State) (t : Nat) : (s.advance t).snapId = s.snapId := by unfold State.advance; split <;> rfl
@[simp] theorem State.advance_pair (s : State) (t : Nat) : (s.advance t).pair = s.pair := by unfold State.advance; split <;> rfl
@[simp] theorem State.advance_mirror (s : State) (t : Nat) : (s.advance t).mirror = s.mirror := by unfold State.advance; split <;> rfl
@[simp] theorem State.advance_integ (s : State) (t : Nat) : (s.advance t).integ = s.integ := by unfold State.advance; split <;> rfl
@[simp] theorem State.advance_msix (s : State) (t : Nat) : (s.advance t).msix = s.msix := by unfold State.advance; split <;> rfl
@[simp] theorem State.advance_dbg (s : State) (t : Nat) : (s.advance t).dbg = s.dbg := by unfold State.advance; split <;> rfl
@[simp] theorem State.advance_latches (s : State) (t : Nat) : (s.advance t).latches = s.latches := by unfold State.advance; split <;> rfl
@[simp] theorem State.advance_out (s : State) (t : Nat) : (s.advance t).out = s.out := by unfold State.advance; split <;> rfl
@[simp] theorem State.advance_free (s : State) (t : Nat) : (s.advance t).free = s.free := by unfold State.advance; split <;> rfl
@[simp] theorem State.advance_taps (s : State) (t : Nat) : (s.advance t).taps = s.taps := by unfold State.advance; split <;> rfl
@[simp] theorem State.advance_sramW (s : State) (t : Nat) : (s.advance t).sramW = s.sramW := by unfold State.advance; split <;> rfl
@[simp] theorem State.advance_stn (s : State) (t n : Nat) : (s.advance t).stn n = s.stn n := by unfold State.stn; rw [State.advance_stns]
@[simp] theorem State.advance_src (s : State) (t k : Nat) : (s.advance t).src k = s.src k := by unfold State.src; rw [State.advance_srcs]
@[simp] theorem State.advance_ctx (s : State) (t c : Nat) : (s.advance t).ctx c = s.ctx c := by unfold State.ctx; rw [State.advance_ctxs]
@[simp] theorem State.advance_rd (s : State) (t : Nat) (r : Reg) : (s.advance t).rd r = s.rd r := by unfold State.rd; rw [State.advance_regs]

end Sys2Proof.Machine
end

