-- ==== Sys2Proof/Laws/Ops.lean ====
section
/-!
SUPPORT. What the sparse maps, the registers, the stations and the wrappers of Machine/Ops.lean do.
-/

namespace Sys2Proof.Machine

/-! ## Sparse maps -/

theorem sget_sput_self {α : Type} (m : SMap α) (k : Nat) (v : α) : sget (sput m k v) k = some v := by
  induction m with
  | nil => simp [sput, sget]
  | cons p m ih =>
    obtain ⟨j, w⟩ := p
    simp only [sput]
    split
    · simp [sget]
    · split
      · simp [sget]
      · rename_i h1 h2
        simp [sget, ih, Ne.symm h2]

theorem sget_sput_ne {α : Type} (m : SMap α) (k j : Nat) (v : α) (h : j ≠ k) : sget (sput m k v) j = sget m j := by
  induction m with
  | nil => simp [sput, sget, Ne.symm h]
  | cons p m ih =>
    obtain ⟨i, w⟩ := p
    simp only [sput]
    split
    · simp [sget, Ne.symm h]
    · split
      · rename_i h1 h2
        subst h2
        simp [sget, Ne.symm h]
      · simp [sget, ih]

theorem sget_sdel_self {α : Type} (m : SMap α) (k : Nat) : sget (sdel m k) k = none := by
  induction m with
  | nil => rfl
  | cons p m ih =>
    obtain ⟨j, w⟩ := p
    simp only [sdel]
    split
    · exact ih
    · rename_i h
      simp [sget, h, ih]

theorem sget_sdel_ne {α : Type} (m : SMap α) (k j : Nat) (h : j ≠ k) : sget (sdel m k) j = sget m j := by
  induction m with
  | nil => rfl
  | cons p m ih =>
    obtain ⟨i, w⟩ := p
    simp only [sdel]
    split
    · rename_i h1
      subst h1
      simp [sget, ih, Ne.symm h]
    · simp [sget, ih]

@[simp] theorem sgetD_sput_self {α : Type} (m : SMap α) (k : Nat) (v d : α) : sgetD (sput m k v) k d = v := by
  simp [sgetD, sget_sput_self]

theorem sgetD_sput_ne {α : Type} (m : SMap α) (k j : Nat) (v d : α) (h : j ≠ k) : sgetD (sput m k v) j d = sgetD m j d := by
  simp [sgetD, sget_sput_ne _ _ _ _ h]

@[simp] theorem sgetD_sdel_self {α : Type} (m : SMap α) (k : Nat) (d : α) : sgetD (sdel m k) k d = d := by
  simp [sgetD, sget_sdel_self]

theorem sgetD_sdel_ne {α : Type} (m : SMap α) (k j : Nat) (d : α) (h : j ≠ k) : sgetD (sdel m k) j d = sgetD m j d := by
  simp [sgetD, sget_sdel_ne _ _ _ h]

@[simp] theorem sgetD_snum_self (m : SMap Nat) (k v : Nat) : sgetD (snum m k v) k 0 = v := by
  unfold snum
  split
  · simp_all
  · simp

theorem sgetD_snum_ne (m : SMap Nat) (k j v : Nat) (h : j ≠ k) : sgetD (snum m k v) j 0 = sgetD m j 0 := by
  unfold snum
  split
  · exact sgetD_sdel_ne _ _ _ _ h
  · exact sgetD_sput_ne _ _ _ _ _ h

/-! ## The rising order of keys -/

/-- Every key lies above a bound. -/
def above {α : Type} (b : Nat) (m : SMap α) : Prop := ∀ p ∈ m, b < p.1

theorem keysRise_cons {α : Type} (j : Nat) (w : α) (m : SMap α) :
    keysRise ((j, w) :: m) = true ↔ above j m ∧ keysRise m = true := by
  induction m generalizing j w with
  | nil => simp [keysRise, above]
  | cons p m ih =>
    obtain ⟨k, v⟩ := p
    constructor
    · intro h
      simp only [keysRise, Bool.and_eq_true, decide_eq_true_eq] at h
      refine ⟨?_, h.2⟩
      intro q hq
      rcases List.mem_cons.mp hq with hq | hq
      · subst hq; exact h.1
      · exact Nat.lt_trans h.1 (((ih k v).mp h.2).1 q hq)
    · intro h
      simp only [keysRise, Bool.and_eq_true, decide_eq_true_eq]
      exact ⟨h.1 (k, v) (by simp), h.2⟩

theorem above_sput {α : Type} (b : Nat) (m : SMap α) (k : Nat) (v : α) (hb : b < k) (h : above b m) : above b (sput m k v) := by
  induction m with
  | nil => intro q hq; simp [sput] at hq; subst hq; exact hb
  | cons p m ih =>
    obtain ⟨j, w⟩ := p
    have hm : above b m := fun q hq => h q (List.mem_cons_of_mem _ hq)
    have hj : b < j := h (j, w) (by simp)
    simp only [sput]
    split
    · intro q hq
      rcases List.mem_cons.mp hq with hq | hq
      · subst hq; exact hb
      · exact h q hq
    · split
      · intro q hq
        rcases List.mem_cons.mp hq with hq | hq
        · subst hq; exact hb
        · exact hm q hq
      · intro q hq
        rcases List.mem_cons.mp hq with hq | hq
        · subst hq; exact hj
        · exact ih hm q hq

theorem keysRise_sput {α : Type} (m : SMap α) (k : Nat) (v : α) (h : keysRise m = true) : keysRise (sput m k v) = true := by
  induction m with
  | nil => rfl
  | cons p m ih =>
    obtain ⟨j, w⟩ := p
    have hc := (keysRise_cons j w m).mp h
    simp only [sput]
    split
    · rename_i hk
      refine (keysRise_cons k v _).mpr ⟨?_, h⟩
      intro q hq
      rcases List.mem_cons.mp hq with hq | hq
      · subst hq; exact hk
      · exact Nat.lt_trans hk (hc.1 q hq)
    · split
      · rename_i hk
        subst hk
        exact (keysRise_cons k v m).mpr hc
      · rename_i h1 h2
        exact (keysRise_cons j w _).mpr ⟨above_sput j m k v (by omega) hc.1, ih hc.2⟩

theorem mem_sdel {α : Type} (m : SMap α) (k : Nat) (q : Nat × α) (h : q ∈ sdel m k) : q ∈ m := by
  induction m with
  | nil => exact h
  | cons p m ih =>
    obtain ⟨j, w⟩ := p
    simp only [sdel] at h
    split at h
    · exact List.mem_cons_of_mem _ (ih h)
    · rcases List.mem_cons.mp h with h | h
      · subst h; simp
      · exact List.mem_cons_of_mem _ (ih h)

theorem keysRise_sdel {α : Type} (m : SMap α) (k : Nat) (h : keysRise m = true) : keysRise (sdel m k) = true := by
  induction m with
  | nil => rfl
  | cons p m ih =>
    obtain ⟨j, w⟩ := p
    have hc := (keysRise_cons j w m).mp h
    simp only [sdel]
    split
    · exact ih hc.2
    · exact (keysRise_cons j w _).mpr ⟨fun q hq => hc.1 q (mem_sdel m k q hq), ih hc.2⟩

theorem mem_sput {α : Type} (m : SMap α) (k : Nat) (v : α) (q : Nat × α) (h : q ∈ sput m k v) : q = (k, v) ∨ q ∈ m := by
  induction m with
  | nil => simp [sput] at h; exact Or.inl h
  | cons p m ih =>
    obtain ⟨j, w⟩ := p
    simp only [sput] at h
    split at h
    · rcases List.mem_cons.mp h with h | h
      · exact Or.inl h
      · exact Or.inr h
    · split at h
      · rcases List.mem_cons.mp h with h | h
        · exact Or.inl h
        · exact Or.inr (List.mem_cons_of_mem _ h)
      · rcases List.mem_cons.mp h with h | h
        · subst h; exact Or.inr (by simp)
        · rcases ih h with h | h
          · exact Or.inl h
          · exact Or.inr (List.mem_cons_of_mem _ h)

/-! ## Hub SRAM -/

/-- The canonical form, as a rule about pairs. -/
theorem Memory.wf_iff (m : List Host.Cell) :
    Memory.wf m = true ↔ keysRise m = true ∧ ∀ c ∈ m, c.2 ≠ sramDefault := by
  simp [Memory.wf]

theorem Memory.read_write_self (m : List Host.Cell) (a : Nat) (b : Byte) : Memory.read (Memory.write m a b) a = b := by
  unfold Memory.read Memory.write
  split
  · simp_all
  · simp

theorem Memory.read_write_ne (m : List Host.Cell) (a j : Nat) (b : Byte) (h : j ≠ a) :
    Memory.read (Memory.write m a b) j = Memory.read m j := by
  unfold Memory.read Memory.write
  split
  · exact sgetD_sdel_ne _ _ _ _ h
  · exact sgetD_sput_ne _ _ _ _ _ h

theorem Memory.wf_write (m : List Host.Cell) (a : Nat) (b : Byte) (h : Memory.wf m = true) : Memory.wf (Memory.write m a b) = true := by
  rw [Memory.wf_iff] at h ⊢
  unfold Memory.write
  split
  · exact ⟨keysRise_sdel _ _ h.1, fun c hc => h.2 c (mem_sdel _ _ _ hc)⟩
  · rename_i hb
    refine ⟨keysRise_sput _ _ _ h.1, fun c hc => ?_⟩
    rcases mem_sput _ _ _ _ hc with hc | hc
    · subst hc; exact hb
    · exact h.2 c hc

theorem Memory.wf_writeBytes (l : List Byte) (m : List Host.Cell) (a : Nat) (h : Memory.wf m = true) :
    Memory.wf (Memory.writeBytes m a l) = true := by
  induction l generalizing m a with
  | nil => exact h
  | cons b l ih => exact ih _ _ (Memory.wf_write m a b h)

theorem Memory.wf_apply (m : List Host.Cell) (o : SramOp) (h : Memory.wf m = true) : Memory.wf (Memory.apply m o) = true := by
  cases o with
  | clear => rfl
  | write a bs =>
    simp only [Memory.apply]
    split
    · exact Memory.wf_writeBytes bs m a h
    · exact h

theorem Memory.wf_foldl_apply (l : List SramOp) (m : List Host.Cell) (h : Memory.wf m = true) :
    Memory.wf (l.foldl Memory.apply m) = true := by
  induction l generalizing m with
  | nil => exact h
  | cons o l ih => exact ih _ (Memory.wf_apply m o h)

theorem Memory.read_writeBytes_out (l : List Byte) (m : List Host.Cell) (a j : Nat) (h : j < a ∨ a + l.length ≤ j) :
    Memory.read (Memory.writeBytes m a l) j = Memory.read m j := by
  induction l generalizing m a with
  | nil => rfl
  | cons b l ih =>
    simp only [List.length_cons] at h
    simp only [Memory.writeBytes]
    rw [ih _ _ (by omega), Memory.read_write_ne _ _ _ _ (by omega)]

theorem Memory.read_writeBytes_in (l : List Byte) (m : List Host.Cell) (a i : Nat) (h : i < l.length) :
    Memory.read (Memory.writeBytes m a l) (a + i) = l.getD i 0 := by
  induction l generalizing m a i with
  | nil => simp at h
  | cons b l ih =>
    simp only [Memory.writeBytes]
    cases i with
    | zero =>
      rw [Memory.read_writeBytes_out _ _ _ _ (by omega)]
      exact Memory.read_write_self m a b
    | succ i =>
      simp only [List.length_cons] at h
      have := ih (Memory.write m a b) (a + 1) i (by omega)
      rw [show a + (i + 1) = a + 1 + i by omega, this]
      rfl

/-! ## Setup registers -/

@[simp] theorem State.rd_wr_self (s : State) (r : Reg) (v : Word) : (s.wr r v).rd r = v := by
  unfold State.wr State.rd
  simp only
  split
  · rename_i h; rw [sget_sdel_self, h]; rfl
  · rw [sget_sput_self]; rfl

theorem State.rd_wr_ne (s : State) (r q : Reg) (v : Word) (h : q.off ≠ r.off) : (s.wr r v).rd q = s.rd q := by
  unfold State.wr State.rd
  simp only
  split
  · rw [sget_sdel_ne _ _ _ h]
  · rw [sget_sput_ne _ _ _ _ h]

/-- A register is read from the register map alone. -/
theorem State.rd_congr {s x : State} (r : Reg) (h : s.regs = x.regs) : s.rd r = x.rd r := by
  unfold State.rd; rw [h]

/-! ## Bit fields of a register -/

/-- A field write, bit by bit. -/
theorem getLsbD_setFld (w : Word) (hi lo v j : Nat) (h : hi < 32) (hl : lo ≤ hi) :
    (setFld w hi lo v).getLsbD j = if lo ≤ j ∧ j ≤ hi then v.testBit (j - lo) else w.getLsbD j := by
  unfold setFld
  by_cases hj : j < 32
  · simp only [BitVec.getLsbD_or, BitVec.getLsbD_and, BitVec.getLsbD_not, BitVec.getLsbD_shiftLeft, BitVec.getLsbD_ofNat,
      Nat.testBit_two_pow_sub_one, hj, decide_true, Bool.true_and]
    by_cases h1 : lo ≤ j
    · by_cases h2 : j ≤ hi
      · have e1 : j - lo < 32 := by omega
        have e2 : j - lo < hi + 1 - lo := by omega
        have e3 : ¬ j < lo := by omega
        simp [h1, h2, e1, e2, e3]
      · have e2 : ¬ (j - lo < hi + 1 - lo) := by omega
        have e3 : ¬ j < lo := by omega
        simp [h2, e2, e3]
    · have e3 : j < lo := by omega
      simp [h1, e3]
  · have h2 : ¬ (lo ≤ j ∧ j ≤ hi) := by omega
    rw [if_neg h2, BitVec.getLsbD_of_ge _ _ (by omega), BitVec.getLsbD_of_ge _ _ (by omega)]

/-- A field, bit by bit. -/
theorem testBit_fld (w : Word) (hi lo i : Nat) : (fld w hi lo).testBit i = (decide (i < hi + 1 - lo) && w.getLsbD (lo + i)) := by
  unfold fld bitsOf
  rw [Nat.testBit_mod_two_pow, Nat.testBit_shiftRight]
  rfl

/-- A field that is written reads back, cut to its width. -/
theorem fld_setFld (w : Word) (hi lo v : Nat) (h : hi < 32) (hl : lo ≤ hi) : fld (setFld w hi lo v) hi lo = v % 2 ^ (hi + 1 - lo) := by
  apply Nat.eq_of_testBit_eq
  intro i
  rw [testBit_fld, getLsbD_setFld _ _ _ _ _ h hl, Nat.testBit_mod_two_pow]
  by_cases hi' : i < hi + 1 - lo
  · have e : lo ≤ lo + i ∧ lo + i ≤ hi := by omega
    rw [if_pos e]
    simp
  · simp [hi']

/-- A field that shares no bit with the one written is unchanged. -/
theorem fld_setFld_ne (w : Word) (hi lo v a b : Nat) (h : hi < 32) (hl : lo ≤ hi) (hd : a < lo ∨ hi < b) :
    fld (setFld w hi lo v) a b = fld w a b := by
  apply Nat.eq_of_testBit_eq
  intro i
  rw [testBit_fld, testBit_fld, getLsbD_setFld _ _ _ _ _ h hl]
  by_cases hi' : i < a + 1 - b
  · have e : ¬ (lo ≤ b + i ∧ b + i ≤ hi) := by omega
    rw [if_neg e]
  · simp [hi']

/-- The record of the cycle that `setB` and `incF` keep is no register. -/
theorem State.rd_setB (s : State) (r q : Reg) (i : Nat) (b : Bool) :
    (s.setB r i b).rd q = (s.wr r (setFld (s.rd r) i i (if b then 1 else 0))).rd q := rfl

theorem State.rd_incF (s : State) (r q : Reg) (hi lo n : Nat) :
    (s.incF r hi lo n).rd q = (s.wr r (setFld (s.rd r) hi lo (satAdd (2 ^ (hi + 1 - lo) - 1) (s.rf r hi lo) n))).rd q := rfl

/-- A saturating field after an increment. -/
theorem State.rf_incF (s : State) (r : Reg) (hi lo n : Nat) (h : hi < 32) (hl : lo ≤ hi) :
    (s.incF r hi lo n).rf r hi lo = min (2 ^ (hi + 1 - lo) - 1) (s.rf r hi lo + n) := by
  unfold State.rf
  rw [State.rd_incF, State.rd_wr_self, fld_setFld _ _ _ _ h hl, Nat.mod_eq_of_lt]
  · rfl
  · have : 0 < 2 ^ (hi + 1 - lo) := Nat.two_pow_pos _
    unfold satAdd
    omega

theorem State.rf_setF (s : State) (r : Reg) (hi lo v : Nat) (h : hi < 32) (hl : lo ≤ hi) :
    (s.setF r hi lo v).rf r hi lo = v % 2 ^ (hi + 1 - lo) := by
  unfold State.setF State.rf
  rw [State.rd_wr_self, fld_setFld _ _ _ _ h hl]

/-- A bit that is written reads back. -/
theorem State.rb_setB (s : State) (r : Reg) (i : Nat) (b : Bool) (h : i < 32) : (s.setB r i b).rb r i = b := by
  unfold State.rb
  rw [State.rd_setB, State.rd_wr_self, getLsbD_setFld _ _ _ _ _ h (Nat.le_refl i)]
  cases b <;> simp

/-- Another bit of the register is unchanged. -/
theorem State.rb_setB_ne (s : State) (r : Reg) (i j : Nat) (b : Bool) (h : i < 32) (hj : j ≠ i) :
    (s.setB r i b).rb r j = s.rb r j := by
  unfold State.rb
  rw [State.rd_setB, State.rd_wr_self, getLsbD_setFld _ _ _ _ _ h (Nat.le_refl i)]
  have : ¬ (i ≤ j ∧ j ≤ i) := by omega
  simp [this]

/-- Another register is unchanged by a field write. -/
theorem State.rd_setF_ne (s : State) (r q : Reg) (hi lo v : Nat) (h : q.off ≠ r.off) : (s.setF r hi lo v).rd q = s.rd q :=
  State.rd_wr_ne _ _ _ _ h

theorem State.rd_setB_ne (s : State) (r q : Reg) (i : Nat) (b : Bool) (h : q.off ≠ r.off) : (s.setB r i b).rd q = s.rd q :=
  State.rd_wr_ne _ _ _ _ h

theorem State.rd_incF_ne (s : State) (r q : Reg) (hi lo n : Nat) (h : q.off ≠ r.off) : (s.incF r hi lo n).rd q = s.rd q :=
  State.rd_wr_ne _ _ _ _ h

/-! ## Stations, sources, contexts -/

@[simp] theorem State.stn_setStn_self (s : State) (n : Nat) (x : Stn) : (s.setStn n x).stn n = x := by
  simp [State.stn]

theorem State.stn_setStn_ne (s : State) (n m : Nat) (x : Stn) (h : m ≠ n) : (s.setStn n x).stn m = s.stn m := by
  simp [State.stn, sgetD_sput_ne _ _ _ _ _ h]

@[simp] theorem State.stn_modStn_self (s : State) (n : Nat) (f : Stn → Stn) : (s.modStn n f).stn n = f (s.stn n) := by
  simp [State.modStn]

theorem State.stn_modStn_ne (s : State) (n m : Nat) (f : Stn → Stn) (h : m ≠ n) : (s.modStn n f).stn m = s.stn m := by
  simp [State.modStn, State.stn_setStn_ne _ _ _ _ h]

@[simp] theorem State.src_modSrc_self (s : State) (k : Nat) (f : HubSrc → HubSrc) : (s.modSrc k f).src k = f (s.src k) := by
  simp [State.src]

theorem State.src_modSrc_ne (s : State) (k j : Nat) (f : HubSrc → HubSrc) (h : j ≠ k) : (s.modSrc k f).src j = s.src j := by
  simp [State.src, sgetD_sput_ne _ _ _ _ _ h]

@[simp] theorem State.ctx_modCtx_self (s : State) (c : Nat) (f : CtxS → CtxS) : (s.modCtx c f).ctx c = f (s.ctx c) := by
  simp [State.ctx]

theorem State.ctx_modCtx_ne (s : State) (c d : Nat) (f : CtxS → CtxS) (h : d ≠ c) : (s.modCtx c f).ctx d = s.ctx d := by
  simp [State.ctx, sgetD_sput_ne _ _ _ _ _ h]

/-- The register writes leave the stations; the station writes leave the registers. -/
@[simp] theorem State.stn_wr (s : State) (r : Reg) (v : Word) (n : Nat) : (s.wr r v).stn n = s.stn n := rfl
@[simp] theorem State.stn_setF (s : State) (r : Reg) (hi lo v n : Nat) : (s.setF r hi lo v).stn n = s.stn n := rfl
@[simp] theorem State.stn_setB (s : State) (r : Reg) (i : Nat) (b : Bool) (n : Nat) : (s.setB r i b).stn n = s.stn n := rfl
@[simp] theorem State.stn_incF (s : State) (r : Reg) (hi lo v n : Nat) : (s.incF r hi lo v).stn n = s.stn n := rfl
@[simp] theorem State.rd_setStn (s : State) (n : Nat) (x : Stn) (r : Reg) : (s.setStn n x).rd r = s.rd r := rfl
@[simp] theorem State.rd_modStn (s : State) (n : Nat) (f : Stn → Stn) (r : Reg) : (s.modStn n f).rd r = s.rd r := rfl

/-! ## settle, seen through the readers -/

@[simp] theorem stn_settle (s x : State) (n : Nat) : (settle s x).stn n = x.stn n := rfl
@[simp] theorem src_settle (s x : State) (k : Nat) : (settle s x).src k = x.src k := rfl
@[simp] theorem ctx_settle (s x : State) (c : Nat) : (settle s x).ctx c = x.ctx c := rfl
@[simp] theorem rd_settle (s x : State) (r : Reg) : (settle s x).rd r = x.rd r := rfl
@[simp] theorem rf_settle (s x : State) (r : Reg) (hi lo : Nat) : (settle s x).rf r hi lo = x.rf r hi lo := rfl
@[simp] theorem rb_settle (s x : State) (r : Reg) (i : Nat) : (settle s x).rb r i = x.rb r i := rfl

/-! ## The wrappers -/

/-- Where the unit is supplied, a command of the unit has its effect. -/
theorem onUnit_next (t : Nat) (f : State → State) (s : State) (h : (s.advance t).isOn = true) :
    onUnit t f s = .next (settle s (f (s.advance t))) := by
  simp [onUnit, always, h]

/-- Where a hub serves, a command of the hub has its effect. -/
theorem onHub_next (t : Nat) (f : State → State) (s : State) (h : (s.advance t).hubOn = true) :
    onHub t f s = .next (settle s (f (s.advance t))) := by
  simp [onHub, always, h]

/-- Where a station works, a command of the station has its effect. -/
theorem onStn_next (t n : Nat) (f : State → State) (s : State) (h : (s.advance t).stnOn n = true) :
    onStn t n f s = .next (settle s (f (s.advance t))) := by
  simp [onStn, always, h]

end Sys2Proof.Machine
end

