-- ==== Sys2Proof/Laws/Admit.lean ====
section
/-!
SUPPORT. What admission at a station and at a hub internal source does where nothing stands in its way.
-/

namespace Sys2Proof.Machine

open Sys2Proof.Safety

/-! ## Counters -/

/-- The station of counter step. -/
theorem State.bump_eq (s : State) (n key d : Nat) :
    ∃ cnt ao incs wrap,
      (∃ rg hw, s.bump n key d = { s.setStn n { s.stn n with cnt := cnt, ao := ao, incs := incs, wrap := wrap } with regs := rg, hw := hw }) ∧
      (256 ≤ key → sgetD ao key 0 = (sgetD (s.stn n).ao key 0 + d) % 2 ^ 48) ∧
      (key < 256 → (s.stn n).loads = [] → sgetD cnt key 0 = (sgetD (s.stn n).cnt key 0 + d) % 2 ^ 48) := by
  obtain ⟨v, w, e⟩ : ∃ v w, (s.stn n).counted key d = (v, w) := ⟨_, _, rfl⟩
  by_cases h : key < 256
  · have q : (s.stn n).loads = [] → v = (sgetD (s.stn n).cnt key 0 + d) % 2 ^ 48 := by
      intro hl; simp only [Stn.counted, h, if_true, hl, List.find?_nil, Prod.mk.injEq] at e; exact e.1.symm
    cases w
    · refine ⟨_, _, _, _, ⟨_, _, by simp only [State.bump, e, h, if_true, Bool.false_eq_true, if_false]; rfl⟩, by omega, fun _ hl => ?_⟩
      rw [sgetD_snum_self, q hl]
    · refine ⟨_, _, _, _, ⟨_, _, by simp only [State.bump, e, h, if_true]; rfl⟩, by omega, fun _ hl => ?_⟩
      rw [sgetD_snum_self, q hl]
  · have q : v = (sgetD (s.stn n).ao key 0 + d) % 2 ^ 48 := by
      simp only [Stn.counted, h, if_false, Prod.mk.injEq] at e; exact e.1.symm
    cases w
    · refine ⟨_, _, _, _, ⟨_, _, by simp only [State.bump, e, h, Bool.false_eq_true, if_false]; rfl⟩, fun _ => ?_, by omega⟩
      rw [sgetD_snum_self, q]
    · refine ⟨_, _, _, _, ⟨_, _, by simp only [State.bump, e, h, if_true, if_false]; rfl⟩, fun _ => ?_, by omega⟩
      rw [sgetD_snum_self, q]

/-- A counter step leaves every station but its own. -/
theorem State.stn_bump_ne (s : State) (n key d m : Nat) (h : m ≠ n) : (s.bump n key d).stn m = s.stn m := by
  obtain ⟨_, _, _, _, ⟨rg, hw, e⟩, -⟩ := State.bump_eq s n key d
  rw [e]
  exact State.stn_setStn_ne s n m _ h

/-- What a counter step does to its station: it moves one counter and may mark it as wrapped. -/
theorem State.stn_bump (s : State) (n key d : Nat) :
    ∃ cnt ao incs wrap, (s.bump n key d).stn n = { s.stn n with cnt := cnt, ao := ao, incs := incs, wrap := wrap } := by
  obtain ⟨c, a, i, w, ⟨rg, hw, e⟩, -⟩ := State.bump_eq s n key d
  refine ⟨c, a, i, w, ?_⟩
  rw [e]
  exact State.stn_setStn_self s n _

/-- An always-on counter adds, modulo 2^48 (03_counters R67). -/
theorem State.ao_bumpAo (s : State) (n j d : Nat) :
    sgetD ((s.bumpAo n j d).stn n).ao (256 + j) 0 = (sgetD (s.stn n).ao (256 + j) 0 + d) % 2 ^ 48 := by
  obtain ⟨c, a, i, w, ⟨rg, hw, e⟩, h, -⟩ := State.bump_eq s n (256 + j) d
  unfold State.bumpAo
  rw [e, ← h (by omega)]
  exact congrArg (fun x : Stn => sgetD x.ao (256 + j) 0) (State.stn_setStn_self s n _)

/-- A counter step leaves everything but registers, what has happened to them in this cycle, and stations. -/
theorem State.bump_shape (s : State) (n key d : Nat) : ∃ rg st hw, s.bump n key d = { s with regs := rg, stns := st, hw := hw } := by
  obtain ⟨c, a, i, w, ⟨rg, hw, e⟩, -⟩ := State.bump_eq s n key d
  exact ⟨rg, _, hw, e⟩

/-! ## Stations -/

/-- The station of a clear admission, in full. -/
theorem State.admitR_clear (s : State) (n : Nat) (r : Record) (fo : Option Nat) (h : clear s n = true) :
    ∃ x, s.admitR n r none fo = (x, numbered s n (fo.getD (s.stnFt n)) r, true) ∧
      (x.stn n).cur = some { unit := n, rsv := false, tq := s.tqNow n, firstSeq := (s.stn n).seq, ftBase := fo.getD (s.stnFt n),
                             epoch := (s.stn n).epoch, recs := [numbered s n (fo.getD (s.stnFt n)) r] } ∧
      (x.stn n).seq = (s.stn n).seq + 1 ∧ (x.stn n).closed = (s.stn n).closed ∧ (x.stn n).gaps = [] ∧
      (∀ m, m ≠ n → x.stn m = s.stn m) ∧ ∃ rg st hw, x = { s with regs := rg, stns := st, hw := hw } := by
  simp only [clear, Bool.and_eq_true, Bool.not_eq_true', Option.isNone_iff_eq_none, List.isEmpty_iff, decide_eq_true_eq] at h
  obtain ⟨⟨⟨⟨h1, h2⟩, h3⟩, h4⟩, h5⟩ := h
  have key : ∀ ft : Nat, ∀ y : State, y = ((s.setStn n { s.stn n with seq := (s.stn n).seq + 1, offer := (s.stn n).offer.add false (numbered s n ft r) }).bumpAo n 42 1) →
      ∃ x, (let (z, refused) := y.pace n (numbered s n ft r)
            if refused then (z.lose n (numbered s n ft r) cPace, numbered s n ft r, false)
            else
              let (z, ok) := z.storeOrd n (numbered s n ft r)
              if ok then (z.flushGaps n fun g => g.src == (numbered s n ft r).src && g.lkind.toNat == lkind (numbered s n ft r).ty && !g.prior, numbered s n ft r, true)
              else (z.lose n (numbered s n ft r) (z.placeCause n), numbered s n ft r, false)) = (x, numbered s n ft r, true) ∧
      (x.stn n).cur = some { unit := n, rsv := false, tq := s.tqNow n, firstSeq := (s.stn n).seq, ftBase := ft,
                             epoch := (s.stn n).epoch, recs := [numbered s n ft r] } ∧
      (x.stn n).seq = (s.stn n).seq + 1 ∧ (x.stn n).closed = (s.stn n).closed ∧ (x.stn n).gaps = [] ∧
      (∀ m, m ≠ n → x.stn m = s.stn m) ∧ ∃ rg st hw, x = { s with regs := rg, stns := st, hw := hw } := by
    intro ft y hy
    obtain ⟨c1, c2, ci, c3, hst⟩ := State.stn_bump (s.setStn n { s.stn n with seq := (s.stn n).seq + 1, offer := (s.stn n).offer.add false (numbered s n ft r) }) n (256 + 42) 1
    obtain ⟨rg, sm, hw, hsh⟩ := State.bump_shape (s.setStn n { s.stn n with seq := (s.stn n).seq + 1, offer := (s.stn n).offer.add false (numbered s n ft r) }) n (256 + 42) 1
    have hne : ∀ m, m ≠ n → y.stn m = s.stn m := by
      intro m hm
      rw [hy]; unfold State.bumpAo
      rw [State.stn_bump_ne _ _ _ _ _ hm, State.stn_setStn_ne _ _ _ _ hm]
    unfold State.bumpAo at hy
    rw [State.stn_setStn_self] at hst
    have hy2 : y.stn n = { s.stn n with seq := (s.stn n).seq + 1, offer := (s.stn n).offer.add false (numbered s n ft r), cnt := c1, ao := c2, incs := ci, wrap := c3 } := by
      rw [hy, hst]
    have hp : y.pace n (numbered s n ft r) = (y.modStn n fun st => { st with pace := (s.stn n).pace }, false) := by
      unfold State.pace
      rw [hy2]; simp [Pacer.take, h2]
    simp only [hp]
    have hcur : ((y.modStn n fun st => { st with pace := (s.stn n).pace }).stn n).cur = none := by
      rw [State.stn_modStn_self, hy2]; exact h3
    have hfree : freeSlots ((y.modStn n fun st => { st with pace := (s.stn n).pace }).stn n) = freeSlots (s.stn n) := by
      rw [State.stn_modStn_self, hy2]; rfl
    have hz : ¬ freeSlots (s.stn n) = 0 := by omega
    simp only [State.storeOrd, hcur, hfree, hz, if_false, Bool.false_eq_true, if_true]
    have hg : ∀ z : State, ∀ p, (z.stn n).gaps = [] → z.flushGaps n p = z := by
      intro z p hz; simp [State.flushGaps, hz]
    have hs : (y.stn n).gaps = [] := by rw [hy2]; exact h4
    rw [hg _ _ (by simp [hs])]
    have htq : ∀ w : State, (w.stn n).servo = (s.stn n).servo → (w.stn n).devTq = (s.stn n).devTq → w.tqNow n = s.tqNow n := by
      intro w h1 h2; simp [State.tqNow, h1, h2]
    refine ⟨_, rfl, ?_, ?_, ?_, ?_, ?_, ?_⟩
    · rw [State.stn_modStn_self]
      simp only [State.openCurd]
      rw [htq _ (by simp [hy2]) (by simp [hy2])]
      simp [hy2, numbered]
    · simp [hy2]
    · simp [hy2]
    · simp [hs]
    · intro m hm
      rw [State.stn_modStn_ne _ _ _ _ hm, State.stn_modStn_ne _ _ _ _ hm, hne m hm]
    · rw [hy, hsh]; exact ⟨_, _, _, rfl⟩
  unfold State.admitR
  simp only [h1, Bool.not_true, Bool.false_eq_true, if_false]
  cases fo with
  | none => exact key _ _ rfl
  | some f => exact key _ _ rfl

/-- A clear admission. -/
theorem State.admit_clear (s : State) (n : Nat) (r : Record) (h : clear s n = true) :
    ((s.admitRec n r).stn n).cur = some { unit := n, rsv := false, tq := s.tqNow n, firstSeq := (s.stn n).seq, ftBase := s.stnFt n,
                                          epoch := (s.stn n).epoch, recs := [numbered s n (s.stnFt n) r] } ∧
      ((s.admitRec n r).stn n).seq = (s.stn n).seq + 1 ∧ ((s.admitRec n r).stn n).closed = (s.stn n).closed ∧
      (∀ m, m ≠ n → (s.admitRec n r).stn m = s.stn m) ∧ ∃ rg st hw, s.admitRec n r = { s with regs := rg, stns := st, hw := hw } := by
  obtain ⟨x, hx, h1, h2, h3, -, h4, h5⟩ := State.admitR_clear s n r none h
  unfold State.admitRec
  rw [hx]
  exact ⟨h1, h2, h3, h4, h5⟩

/-! ## Hub internal sources -/

/-- A hub record that waits for the standby (06_admission R138). -/
theorem State.hubRec_waits (s : State) (k : Nat) (r : Record) (h : waits s = true) :
    s.hubRec k r = s.modSrc k fun x => { x with wait := x.wait ++ [r] } := by
  simp only [waits, Bool.and_eq_true] at h
  simp [State.hubRec, h.1, h.2]

/-- No hub record is formed while the journal is not enabled (log entry 9). -/
theorem State.hubRec_off (s : State) (k : Nat) (r : Record) (h : s.jrnOn = false) : s.hubRec k r = s := by
  simp [State.hubRec, h]

end Sys2Proof.Machine
end

