-- ==== Sys2Proof/Laws/Complete.lean ====
section
/-!
SUPPORT. What posting a completion does where the context can post at once.
-/

namespace Sys2Proof.Machine

open Sys2Proof.Safety

/-- A message to DEST or to an MSI-X vector leaves the contexts. -/
theorem State.sendNotice_shape (s : State) (src kind : Nat) : ∃ pb out, s.sendNotice src kind = { s with portB := pb, out := out } := by
  unfold State.sendNotice
  dsimp only
  generalize (!s.portB.enable.getLsbD (if src < 256 then 0 else 1) || s.portB.notices.any fun x => x.1 == src) = b
  split
  · split
    · exact ⟨_, _, rfl⟩
    · exact ⟨_, _, rfl⟩
  · exact ⟨_, _, rfl⟩

theorem State.msixSend_shape (s : State) (v : Nat) : ∃ mx out, s.msixSend v = { s with msix := mx, out := out } := by
  unfold State.msixSend
  split
  · exact ⟨_, _, rfl⟩
  · exact ⟨_, _, rfl⟩

/-- A signal of a context: what it leaves. -/
theorem State.ctxSignal_shape (s : State) (c kind : Nat) :
    ∃ pb mx out, s.ctxSignal c kind = { s.modCtx c fun x => { x with unsig := 0 } with portB := pb, msix := mx, out := out } := by
  unfold State.ctxSignal
  dsimp only
  split
  · obtain ⟨pb, out, h⟩ := State.sendNotice_shape (s.modCtx c fun x => { x with unsig := 0 }) c kind
    exact ⟨pb, _, out, h⟩
  · obtain ⟨mx, out, h⟩ := State.msixSend_shape (s.modCtx c fun x => { x with unsig := 0 }) c
    exact ⟨_, mx, out, h⟩

/-- What leaves posting completions to a context: other contexts and all that no signal touches. -/
def State.Posts (c : Nat) (s r : State) : Prop :=
  ∃ cx rg hw sw pb mx out, r = { s with ctxs := cx, regs := rg, hw := hw, sramW := sw, portB := pb, msix := mx, out := out } ∧
    ∀ d, d ≠ c → r.ctx d = s.ctx d

theorem State.Posts.refl (c : Nat) (s : State) : State.Posts c s s :=
  ⟨s.ctxs, s.regs, s.hw, s.sramW, s.portB, s.msix, s.out, rfl, fun _ _ => rfl⟩

theorem State.Posts.trans {c : Nat} {s r x : State} (h : State.Posts c s r) (g : State.Posts c r x) : State.Posts c s x := by
  obtain ⟨a1, a2, a3, a4, a5, a6, a7, e, f⟩ := h
  obtain ⟨b1, b2, b3, b4, b5, b6, b7, e', f'⟩ := g
  refine ⟨b1, b2, b3, b4, b5, b6, b7, ?_, fun d hd => by rw [f' d hd, f d hd]⟩
  rw [e', e]

theorem State.posts_modCtx (c : Nat) (s : State) (f : CtxS → CtxS) : State.Posts c s (s.modCtx c f) :=
  ⟨_, s.regs, s.hw, s.sramW, s.portB, s.msix, s.out, rfl, fun d hd => State.ctx_modCtx_ne s c d f hd⟩

theorem State.posts_ctxSignal (c kind : Nat) (s : State) : State.Posts c s (s.ctxSignal c kind) := by
  obtain ⟨pb, mx, out, h⟩ := State.ctxSignal_shape s c kind
  refine State.Posts.trans (State.posts_modCtx c s fun x => { x with unsig := 0 }) ?_
  rw [h]
  exact ⟨_, _, _, _, pb, mx, out, rfl, fun _ _ => rfl⟩

theorem State.posts_ctxStatus (c bit : Nat) (s : State) : State.Posts c s (s.ctxStatus c bit) := by
  unfold State.ctxStatus
  split
  · exact State.Posts.refl c s
  · refine State.Posts.trans ?_ (State.posts_ctxSignal c 1 _)
    exact ⟨_, _, _, _, _, _, _, rfl, fun _ _ => rfl⟩

theorem State.posts_ringWrite (c addr : Nat) (ws : List (BitVec 64)) (s : State) : State.Posts c s (s.ringWrite c addr ws) := by
  unfold State.ringWrite
  split
  · exact ⟨_, _, _, _, _, _, _, rfl, fun _ _ => rfl⟩
  · exact ⟨_, _, _, _, _, _, _, rfl, fun _ _ => rfl⟩

theorem State.posts_cplWrite (c : Nat) (x : Completion) (s : State) : State.Posts c s (s.cplWrite c x).1 := by
  unfold State.cplWrite
  dsimp only
  split
  · exact ((State.posts_ringWrite c _ _ s).trans (State.posts_modCtx c _ _)).trans (State.posts_ctxSignal c 0 _)
  · exact (State.posts_ringWrite c _ _ s).trans (State.posts_modCtx c _ _)

theorem State.posts_postList (fuel : Nat) (c : Nat) (s : State) (l : List Completion) : State.Posts c s (State.postList fuel s c l) := by
  induction fuel generalizing s l with
  | zero => exact State.posts_modCtx c s _
  | succ k ih =>
    cases l with
    | nil => exact State.Posts.refl c s
    | cons x l =>
      simp only [State.postList]
      split
      · exact State.Posts.refl c s
      · split
        · exact State.posts_modCtx c s _
        · split
          · exact (State.posts_modCtx c s _).trans (State.posts_ctxStatus c _ _)
          · exact (State.posts_cplWrite c x s).trans (ih _ _)

theorem State.posts_ctxIdle (c : Nat) (s : State) : State.Posts c s (s.ctxIdle c) := by
  unfold State.ctxIdle
  dsimp only
  split
  · exact State.posts_modCtx c s _
  · exact State.Posts.refl c s

theorem State.posts_postMany (c : Nat) (s : State) (l : List Completion) : State.Posts c s (s.postMany c l) :=
  (State.posts_postList _ c s l).trans (State.posts_ctxIdle c _)

/-- Posting a command's completion changes its context, its messages and its rings alone. -/
theorem State.posts_post (s : State) (q : CmdRef) (op res v0 v1 v2 : Nat) : State.Posts q.ctx s (s.post q op res v0 v1 v2) :=
  State.posts_postMany q.ctx s _

/-- A signal leaves what the context has posted and what it holds. -/
theorem State.ctx_ctxSignal (s : State) (c kind : Nat) : (s.ctxSignal c kind).ctx c = { s.ctx c with unsig := 0 } := by
  obtain ⟨pb, mx, out, h⟩ := State.ctxSignal_shape s c kind
  rw [h]
  exact State.ctx_modCtx_self s c fun x => { x with unsig := 0 }

/-- The completions of a context after one is written. -/
theorem State.cpls_cplWrite (s : State) (c : Nat) (x : Completion) :
    ((s.cplWrite c x).1.ctx c).cpls = (s.ctx c).cpls ++ [x] ∧ ((s.cplWrite c x).1.ctx c).held = (s.ctx c).held ∧
      (s.cplWrite c x).2 = ((s.ctx c).log.filter fun e => e.seq == x.seq && e.first.isNone && !x.dup && !x.final).flatMap
        fun e => followUps e x := by
  have hr : ∀ a ws, (s.ringWrite c a ws).ctx c = s.ctx c := by
    intro a ws; unfold State.ringWrite; split <;> rfl
  unfold State.cplWrite
  dsimp only
  split
  · refine ⟨?_, ?_, rfl⟩
    · rw [State.ctx_ctxSignal, State.ctx_modCtx_self, hr]
    · rw [State.ctx_ctxSignal, State.ctx_modCtx_self, hr]
  · refine ⟨?_, ?_, rfl⟩
    · rw [State.ctx_modCtx_self, hr]
    · rw [State.ctx_modCtx_self, hr]

/-- A completion that can be posted at once is. -/
theorem State.cpls_post (s : State) (q : CmdRef) (op res v0 v1 v2 : Nat) (h : canPost s q.ctx = true) :
    posted s (s.post q op res v0 v1 v2) q.ctx (cplOf q op res v0 v1 v2) := by
  simp only [canPost, Bool.and_eq_true, beq_iff_eq, Bool.not_eq_true', List.isEmpty_iff, List.all_eq_true] at h
  obtain ⟨⟨⟨h1, h2⟩, h3⟩, h4⟩ := h
  obtain ⟨w1, w2, w3⟩ := State.cpls_cplWrite s q.ctx (cplOf q op res v0 v1 v2)
  have hn : (s.cplWrite q.ctx (cplOf q op res v0 v1 v2)).2 = [] := by
    rw [w3, List.flatMap_eq_nil_iff]
    intro e he
    have := h4 e (List.mem_filter.mp he).1
    simp [followUps, this.1, this.2]
  have hi : ∀ z : State, ((z.ctxIdle q.ctx).ctx q.ctx).cpls = (z.ctx q.ctx).cpls := by
    intro z; unfold State.ctxIdle; dsimp only; split
    · rw [State.ctx_modCtx_self]
    · rfl
  unfold State.post State.postMany posted
  rw [hi]
  have hf : ∀ m : Nat, 64 + 4 * m = (62 + 4 * m) + 2 := by omega
  rw [hf]
  generalize 62 + 4 * (_ : Nat) = k
  have hc : ¬ ((s.ctx q.ctx).st = csClosed) := by rw [h1]; decide
  have hs : ((s.ctx q.ctx).st = csStopped) = False := by rw [h1]; simp [csRunning, csStopped]
  simp only [State.postList, hc, hs, h2, h3, if_false, decide_false, List.isEmpty_nil, Bool.not_true, Bool.or_self, Bool.false_eq_true]
  change ((State.postList (k + 1) (s.cplWrite q.ctx (cplOf q op res v0 v1 v2)).1 q.ctx
    ((s.cplWrite q.ctx (cplOf q op res v0 v1 v2)).2 ++ [])).ctx q.ctx).cpls = _
  rw [hn]
  exact w1

end Sys2Proof.Machine
end

