-- ==== Sys2Proof/Laws/Taps.lean ====
section
/-!
SUPPORT. What the commands of a station's taps leave alone, and how an edge runs at a station whose configuration looks at nothing.
-/

namespace Sys2Proof.Machine

open Sys2Proof.Safety

/-! ## One station -/

/-- Only registers, what has happened to them in this cycle and station n differ. -/
def StnOnly (n : Nat) (s x : State) : Prop :=
  (∃ rg st hw, x = { s with regs := rg, stns := st, hw := hw }) ∧ ∀ m, m ≠ n → x.stn m = s.stn m

theorem StnOnly.refl (n : Nat) (s : State) : StnOnly n s s := ⟨⟨s.regs, s.stns, s.hw, rfl⟩, fun _ _ => rfl⟩

theorem StnOnly.trans {n : Nat} {s x y : State} (h : StnOnly n s x) (g : StnOnly n x y) : StnOnly n s y := by
  obtain ⟨⟨a, b, w, e⟩, f⟩ := h
  obtain ⟨⟨c, d, w', e'⟩, f'⟩ := g
  exact ⟨⟨c, d, w', by rw [e', e]⟩, fun m hm => by rw [f' m hm, f m hm]⟩

theorem stnOnly_modStn (n : Nat) (s : State) (f : Stn → Stn) : StnOnly n s (s.modStn n f) :=
  ⟨⟨s.regs, _, s.hw, rfl⟩, fun m hm => State.stn_modStn_ne s n m f hm⟩

theorem stnOnly_setStn (n : Nat) (s : State) (f : Stn) : StnOnly n s (s.setStn n f) :=
  ⟨⟨s.regs, _, s.hw, rfl⟩, fun m hm => State.stn_setStn_ne s n m f hm⟩

theorem stnOnly_bump (n key d : Nat) (s : State) : StnOnly n s (s.bump n key d) :=
  ⟨State.bump_shape s n key d, fun m hm => State.stn_bump_ne s n key d m hm⟩

theorem stnOnly_bumpAo (n j d : Nat) (s : State) : StnOnly n s (s.bumpAo n j d) := stnOnly_bump n (256 + j) d s

theorem stnOnly_incF (n : Nat) (s : State) (r : Reg) (hi lo v : Nat) : StnOnly n s (s.incF r hi lo v) :=
  ⟨⟨_, s.stns, _, rfl⟩, fun _ _ => rfl⟩

/-- The instant a station sees depends on its servo and FT alone. -/
theorem stnFt_congr {s x : State} (n : Nat) (h : x.stn n = s.stn n) (c : x.clk = s.clk) : x.stnFt n = s.stnFt n := by
  unfold State.stnFt; rw [h, c]

/-- A counter step leaves the other always-on counters. -/
theorem State.ao_bump_ne (s : State) (n key d j : Nat) (h : j ≠ key) :
    sgetD ((s.bump n key d).stn n).ao j 0 = sgetD (s.stn n).ao j 0 := by
  by_cases g : key < 256
  · unfold State.bump
    simp only [g, if_true]
    split <;> simp
  · unfold State.bump
    simp only [g, if_false]
    split <;> simp only [State.stn_setB, State.stn_setStn_self, sgetD_snum_ne _ _ _ _ h]

/-! ## The view of a station's taps -/

/-- Registers written one after another with their values in `r`. -/
theorem State.rd_foldl_wr (l : List Reg) (r : State) (s : State) (q : Reg) (hl : ∀ x ∈ l, x.off = q.off → x = q) :
    (((l.zip (l.map r.rd)).foldl (fun (s : State) x => s.wr x.1 x.2) s).rd q =
      if q.off ∈ l.map (·.off) then r.rd q else s.rd q) := by
  induction l generalizing s with
  | nil => rfl
  | cons x l ih =>
    simp only [List.map_cons, List.zip_cons_cons, List.foldl_cons, List.mem_cons]
    rw [ih _ fun y hy => hl y (List.mem_cons_of_mem _ hy)]
    by_cases h : q.off ∈ l.map (·.off)
    · simp [h]
    · by_cases g : q.off = x.off
      · obtain rfl := hl x List.mem_cons_self g.symm
        simp [h]
      · rw [State.rd_wr_ne _ _ _ _ g]
        simp [h, g]

/-- Register writes: the other entries of the register map, and all else. -/
theorem State.foldl_wr_shape (l : List (Reg × Word)) (s : State) :
    ∃ rg, l.foldl (fun (s : State) x => s.wr x.1 x.2) s = { s with regs := rg } ∧
      ∀ off, off ∉ l.map (·.1.off) → sget rg off = sget s.regs off := by
  induction l generalizing s with
  | nil => exact ⟨s.regs, rfl, fun _ _ => rfl⟩
  | cons x l ih =>
    obtain ⟨rg, e, h⟩ := ih (s.wr x.1 x.2)
    refine ⟨rg, by rw [List.foldl_cons, e]; rfl, fun off ho => ?_⟩
    simp only [List.map_cons, List.mem_cons, not_or] at ho
    rw [h off ho.2]
    unfold State.wr
    simp only
    split
    · exact sget_sdel_ne _ _ _ ho.1
    · exact sget_sput_ne _ _ _ _ ho.1

/-- What putting a view back changes. -/
theorem State.putView_shape (s : State) (n : Nat) (v : TapView) :
    ∃ rg, s.putView n v = { s.setStn n v.stn with
      regs := rg, hw := (s.putView n v).hw, watches := v.watches, mesh := v.mesh, snaps := v.snaps, snapId := v.snapId } ∧
      ∀ off, off ∉ (tapRegs n).map (·.off) → sget rg off = sget s.regs off := by
  obtain ⟨rg, e, h⟩ := State.foldl_wr_shape ((tapRegs n).zip v.regs) s
  refine ⟨rg, ?_, fun off ho => h off fun hx => ho ?_⟩
  · unfold State.putView
    simp only
    rw [e]
    rfl
  · obtain ⟨⟨x, w⟩, hm, he⟩ := List.mem_map.mp hx
    exact List.mem_map.mpr ⟨x, (List.of_mem_zip hm).1, he⟩

/-- The station of a view that is put back. -/
@[simp] theorem State.stn_putView (s : State) (n : Nat) (v : TapView) : (s.putView n v).stn n = v.stn := by
  obtain ⟨rg, e, -⟩ := State.putView_shape s n v
  rw [e]
  exact State.stn_setStn_self s n v.stn

/-- The registers that a station's taps write lie at different offsets. -/
theorem tapRegs_inj (n : Nat) (q : Reg) (hq : q ∈ tapRegs n) : ∀ x ∈ tapRegs n, x.off = q.off → x = q := by
  intro x hx h
  simp only [tapRegs, List.cons_append, List.nil_append, List.mem_cons, List.mem_map, List.mem_range] at hx hq
  rcases hx with rfl | rfl | rfl | rfl | rfl | rfl | rfl | rfl | rfl | rfl | ⟨k, hk, rfl⟩ <;>
    rcases hq with rfl | rfl | rfl | rfl | rfl | rfl | rfl | rfl | rfl | rfl | ⟨j, hj, rfl⟩ <;>
    simp_all [Kx.stnMkStat, Kx.stnPcsStat, Kx.stnSeqStat, Kx.stnFlStat, Kx.stnCntStat, Kx.stnTwStat0, Kx.stnTwStat1, Kx.stnTwNflag, Kx.stnSkstat,
      Kx.hubMeshStat, Kx.stnCovf] <;> omega

/-- A register of the view of r, put back into s. -/
theorem State.rd_putView (s r : State) (n : Nat) (q : Reg) (h : q ∈ tapRegs n) : (s.putView n (r.tapView n)).rd q = r.rd q := by
  have e := State.rd_foldl_wr (tapRegs n) r s q (tapRegs_inj n q h)
  rw [if_pos (List.mem_map.mpr ⟨q, h, rfl⟩)] at e
  unfold State.putView State.tapView
  generalize tapRegs n = l at e ⊢
  exact e

/-- Working events of a station's taps changes its view and the edge in hand, and nothing else. -/
theorem State.work_shape (s : State) (n : Nat) (items : List (Nat × TapOp)) :
    ∃ rg, s.work n items = { s.setStn n ((s.runItems items.length n items).stn n) with
        regs := rg, hw := (s.work n items).hw, taps := (s.work n items).taps, watches := (s.runItems items.length n items).watches
        mesh := (s.runItems items.length n items).mesh, snaps := (s.runItems items.length n items).snaps
        snapId := (s.runItems items.length n items).snapId } ∧
      ∀ off, off ∉ (tapRegs n).map (·.off) → sget rg off = sget s.regs off := by
  obtain ⟨rg, e, h⟩ := State.putView_shape s n ((s.runItems items.length n items).tapView n)
  have w : s.work n items = { s.putView n ((s.runItems items.length n items).tapView n) with
      taps := (s.work n items).taps } := rfl
  exact ⟨rg, w.trans (congrArg (fun y : State => { y with taps := (s.work n items).taps }) e), h⟩

/-- A register that the taps write, after their events. -/
theorem State.rd_work (s : State) (n : Nat) (items : List (Nat × TapOp)) (q : Reg) (h : q ∈ tapRegs n) :
    (s.work n items).rd q = (s.runItems items.length n items).rd q := by
  rw [← State.rd_putView s (s.runItems items.length n items) n q h]
  refine State.rd_congr q ?_
  unfold State.work
  rfl

/-- A command of a station's taps changes their view and the edge in hand, and nothing else. -/
theorem State.tap_shape (s : State) (n : Nat) (o : TapOp) :
    ∃ rg st hw tp w m sn si, s.tap n o = { s with
        regs := rg, stns := st, hw := hw, taps := tp, watches := w, mesh := m, snaps := sn, snapId := si } ∧
      (∀ off, off ∉ (tapRegs n).map (·.off) → sget rg off = sget s.regs off) ∧
      ∀ k, k ≠ n → (s.tap n o).stn k = s.stn k := by
  unfold State.tap
  split
  · obtain ⟨rg, e, h⟩ := State.work_shape s n [(s.now, o)]
    rw [e]
    exact ⟨rg, _, _, _, _, _, _, _, rfl, h, fun k hk => State.stn_setStn_ne s n k _ hk⟩
  · rename_i w _
    obtain ⟨rg, e, h⟩ := State.putView_shape s n w.base
    obtain ⟨rg', e', h'⟩ := State.work_shape (s.putView n w.base) n (w.items ++ [(s.now, o)])
    rw [e']
    refine ⟨rg', _, _, _, _, _, _, _, (by rw [e]; rfl), fun off ho => ?_, fun k hk => ?_⟩
    · rw [h' off ho, e]; exact h off ho
    · refine (State.stn_setStn_ne (s.putView n w.base) n k _ hk).trans ?_
      rw [e]; exact State.stn_setStn_ne s n k _ hk

/-! ## Quiet observations -/

/-- Nothing differs but what station n keeps of its die cycle. -/
def ObsOnly (n : Nat) (s x : State) : Prop :=
  (∃ st, x = { s with stns := st }) ∧ (∀ m, m ≠ n → x.stn m = s.stn m) ∧
    ∃ a c m d e q l y i o z, x.stn n =
      { s.stn n with inAt := a, cmpIn := c, meshIn := m, ocHit0 := d, ocHit1 := e, seqr := q, late := l, cyc := y, incs := i, loads := o
                     meshQ := z }

theorem ObsOnly.refl (n : Nat) (s : State) : ObsOnly n s s :=
  ⟨⟨s.stns, rfl⟩, fun _ _ => rfl, _, _, _, _, _, _, _, _, _, _, _, rfl⟩

theorem ObsOnly.trans {n : Nat} {s x y : State} (h : ObsOnly n s x) (g : ObsOnly n x y) : ObsOnly n s y := by
  obtain ⟨⟨a, e⟩, f, w⟩ := h
  obtain ⟨⟨b, e'⟩, f', w'⟩ := g
  obtain ⟨a1, a2, a3, a4, a5, a6, a7, a8, a9, a10, a11, w⟩ := w
  obtain ⟨b1, b2, b3, b4, b5, b6, b7, b8, b9, b10, b11, w'⟩ := w'
  exact ⟨⟨b, by rw [e', e]⟩, fun m hm => by rw [f' m hm, f m hm], b1, b2, b3, b4, b5, b6, b7, b8, b9, b10, b11, by rw [w', w]⟩

/-- A change of what a station keeps of its die cycle. -/
theorem obsOnly_setStn (n : Nat) (s : State) (x : Stn)
    (h : ∃ a c m d e q l y i o z, x =
      { s.stn n with inAt := a, cmpIn := c, meshIn := m, ocHit0 := d, ocHit1 := e, seqr := q, late := l, cyc := y, incs := i, loads := o
                     meshQ := z }) : ObsOnly n s (s.setStn n x) :=
  ⟨⟨_, rfl⟩, fun m hm => State.stn_setStn_ne s n m x hm, by rw [State.stn_setStn_self]; exact h⟩

/-- The configuration is the same, so the station stays quiet. -/
theorem quiet_congr {s x : State} {n : Nat} (h : ObsOnly n s x) : quiet x n = quiet s n := by
  obtain ⟨⟨st, rfl⟩, -⟩ := h
  rfl

/-- Quiet, as what it says. -/
theorem quiet_parts {s : State} {n : Nat} (h : quiet s n = true) :
    s.counters n = [] ∧ s.comparators n = [] ∧ s.rb (Kx.stnSeqCfg n) 31 = false := by
  simp only [quiet, Bool.and_eq_true, List.isEmpty_iff, Bool.not_eq_true'] at h
  exact ⟨h.1.1, h.1.2, h.2⟩

/-- A sequencer that is disabled takes no transition. -/
theorem seqDue_off (s : State) (n : Nat) (h : s.rb (Kx.stnSeqCfg n) 31 = false) : s.seqDue n = none := by
  simp [State.seqDue, State.seqOn, h]

/-- Inputs that no sequencer looks at. -/
theorem latchInputs_off (s : State) (n : Nat) (c : BitVec 16) (m : BitVec 8) (h : s.rb (Kx.stnSeqCfg n) 31 = false) :
    ObsOnly n s (s.latchInputs n c m) := by
  unfold State.latchInputs
  have e : s.seqOn n = false := by simp [State.seqOn, h]
  simp only [e, Bool.not_false, if_true]
  exact obsOnly_setStn n s _ ⟨_, _, _, _, _, _, _, _, _, _, _, rfl⟩

/-- Under `quiet` an observation reaches no counter, no comparator and no sequencer. -/
theorem observe_quiet (s : State) (n e : Nat) (p1 : Bool) (o : Obs) (cyc : Nat) (h : quiet s n = true) :
    ObsOnly n s (s.observe n e p1 o cyc) := by
  have g : ObsOnly n s (s.modStn n fun st => { st with cyc := cyc }) := obsOnly_setStn n s _ ⟨_, _, _, _, _, _, _, _, _, _, _, rfl⟩
  obtain ⟨h1, h2, h3⟩ := quiet_parts ((quiet_congr g).trans h)
  unfold State.observe
  simp only [h1, List.foldl_nil]
  rw [h2]
  exact g.trans (latchInputs_off _ n _ _ h3)

/-- Where nothing else acts at an edge, its start leaves the station as it is but for what it keeps of its die cycle. -/
theorem startEdge_quiet (s : State) (n : Nat) (h : quiet s n = true) (ha : alone s n = true) : ObsOnly n s (s.startEdge n) := by
  simp only [alone, Bool.and_eq_true, List.isEmpty_iff, Option.isNone_iff_eq_none] at ha
  obtain ⟨⟨⟨⟨-, hp⟩, hc⟩, -⟩, -⟩ := ha
  unfold State.startEdge
  simp only
  split
  · exact ObsOnly.refl n s
  · have g : ObsOnly n s (s.modStn n fun st => { st with incs := [], loads := [] }) :=
      obsOnly_setStn n s _ ⟨_, _, _, _, _, _, _, _, _, _, _, rfl⟩
    have hc' : (s.modStn n fun st => { st with incs := [], loads := [] }).captureNext n = none := by
      rw [← hc]
      simp only [State.captureNext, State.captureDue, State.snapDue, State.cntIval, State.stnFt, State.rf, State.rb, State.rd_modStn,
        State.stn_modStn_self, State.modStn_clk]
      rfl
    generalize hx : (s.modStn n fun st => { st with incs := [], loads := [] }) = x at g hc' ⊢
    have hpx : (x.stn n).pend = [] := by rw [← hx]; simpa using hp
    have h1 : ∀ k upto, State.capturesBefore k x n upto = x := by
      intro k upto; cases k
      · rfl
      · simp [State.capturesBefore, hc']
    have h2 : ∀ upto, ObsOnly n x (x.settleEnded n upto) := by
      intro upto
      unfold State.settleEnded State.settlePend
      simp only [hpx, List.filterMap_nil, List.filter_nil, List.foldl_nil]
      refine ⟨⟨_, rfl⟩, fun m hm => State.stn_modStn_ne x n m _ hm, ?_⟩
      have e : { x.stn n with pend := [] } = x.stn n := by rw [← hpx]
      rw [State.stn_modStn_self, e]
      exact (ObsOnly.refl n x).2.2
    rw [h1]
    refine g.trans ((h2 (s.stnFt n)).trans ?_)
    have hq := quiet_congr (g.trans (h2 (s.stnFt n)))
    generalize (x.settleEnded n (s.stnFt n)) = y at hq ⊢
    have h3 := (quiet_parts (hq.trans h)).2.2
    unfold State.newCycle
    exact (obsOnly_setStn n y _ ⟨_, _, _, _, _, _, _, _, _, _, _, rfl⟩).trans (latchInputs_off _ n _ _ h3)

/-- What follows the observations of an edge does nothing where no LASTC and no CNT record is left and the sequencer is disabled. -/
theorem afterEdge_quiet (s : State) (n : Nat) (h : s.rb (Kx.stnSeqCfg n) 31 = false) (ha : (s.stn n).accs.all (fun a => !a.lastDue) = true)
    (hb : (s.stn n).banks.all (·.recs.isEmpty) = true) : ((s.admitLastc n).seqStep n).admitBanks n = s := by
  have e1 : (s.stn n).accs.filter (·.lastDue) = [] := by
    rw [List.filter_eq_nil_iff]
    intro a hm
    have := List.all_eq_true.mp ha a hm
    simpa using this
  have e2 : (s.stn n).banks.filter (fun b => !b.recs.isEmpty) = [] := by
    rw [List.filter_eq_nil_iff]
    intro b hm
    have := List.all_eq_true.mp hb b hm
    simpa using this
  have e3 : s.admitLastc n = s := by unfold State.admitLastc; rw [e1]; rfl
  have e4 : s.seqStep n = s := by unfold State.seqStep; rw [seqDue_off s n h]
  rw [e3, e4]
  unfold State.admitBanks
  rw [e2]
  rfl

/-- An edge at which nothing but one event acts. -/
theorem tap_alone (s : State) (n : Nat) (o : TapOp) (h : alone s n = true) :
    s.tap n o = s.work n [(s.now, o)] ∧ s.runItems 1 n [(s.now, o)] = (s.startEdge n).runEdge 1 n [] [o] [] := by
  simp only [alone, Bool.and_eq_true, Option.isNone_iff_eq_none] at h
  refine ⟨by unfold State.tap; rw [h.1.1.1.1], ?_⟩
  have e : s.atInstant s.now = s := by unfold State.atInstant State.now; simp
  simp [State.runItems, e]

/-- An edge none of whose ports is held is tried once. -/
theorem runEdge_once (s : State) (n k : Nat) (held : List (Nat × Bool)) (ops : List TapOp) (later : List (Nat × TapOp))
    (h : (s.tryEdge n held ops later).2 = none) : s.runEdge (k + 1) n held ops later = (s.tryEdge n held ops later).1 := by
  unfold State.runEdge
  split
  · rename_i r e; rw [e]
  · rename_i r x e; rw [e] at h; exact absurd h (by simp)

/-- A command of a tap whose station works and has nothing else to do at this edge: the station, the registers of the taps, and all else
but what tap commands change. -/
theorem onTap_alone (t n : Nat) (o : TapOp) (s : State) (h : (s.advance t).stnOn n = true) (ha : alone (s.advance t) n = true)
    (hs : (((s.advance t).startEdge n).tryEdge n [] [o] []).2 = none) :
    let y := (((s.advance t).startEdge n).tryEdge n [] [o] []).1
    ∃ x, onTap t n o s = .next (settle s x) ∧ x.stn n = y.stn n ∧ (∀ q ∈ tapRegs n, x.rd q = y.rd q) ∧ x.watches = y.watches ∧
      x.mesh = y.mesh ∧ x.snaps = y.snaps ∧ x.snapId = y.snapId := by
  obtain ⟨e1, e2⟩ := tap_alone (s.advance t) n o ha
  rw [runEdge_once _ _ _ _ _ _ hs] at e2
  refine ⟨(s.advance t).tap n o, onStn_next _ _ _ _ h, ?_⟩
  rw [e1]
  have hl : [((s.advance t).now, o)].length = 1 := rfl
  obtain ⟨rg, e, -⟩ := State.work_shape (s.advance t) n [((s.advance t).now, o)]
  refine ⟨?_, fun q hq => ?_, ?_⟩
  · rw [e, hl, e2]; exact State.stn_setStn_self _ _ _
  · rw [State.rd_work _ _ _ _ hq, hl, e2]
  · rw [e, hl, e2]; exact ⟨rfl, rfl, rfl, rfl⟩

end Sys2Proof.Machine
end

