-- ==== Sys2Proof/Laws/Frames.lean ====
section
/-!
SUPPORT. That a command completes, wrapper by wrapper, and from the fields that a meaning changes to the frame of its command.
-/

namespace Sys2Proof.Machine

open Sys2Proof.Safety

/-! ## Completion -/

/-- The wrappers, as what a command completes with. -/
theorem done_always {i : Instr} {t : Nat} {f : State → State} {s : State} {P : State → Prop} (e : exec i s = always t f s)
    (p : P (settle s (f (s.advance t)))) : Completes i s P := ⟨_, e, p⟩

theorem done_onUnit {i : Instr} {t : Nat} {f : State → State} {s : State} {P : State → Prop} (e : exec i s = onUnit t f s)
    (h : (s.advance t).isOn = true) (p : P (settle s (f (s.advance t)))) : Completes i s P :=
  ⟨_, e.trans (onUnit_next t f s h), p⟩

theorem done_onHub {i : Instr} {t : Nat} {f : State → State} {s : State} {P : State → Prop} (e : exec i s = onHub t f s)
    (h : (s.advance t).hubOn = true) (p : P (settle s (f (s.advance t)))) : Completes i s P :=
  ⟨_, e.trans (onHub_next t f s h), p⟩

theorem done_onStn {i : Instr} {t n : Nat} {f : State → State} {s : State} {P : State → Prop} (e : exec i s = onStn t n f s)
    (h : (s.advance t).stnOn n = true) (p : P (settle s (f (s.advance t)))) : Completes i s P :=
  ⟨_, e.trans (onStn_next t n f s h), p⟩

theorem done_onTap {i : Instr} {t n : Nat} {o : TapOp} {s : State} {P : State → Prop} (e : exec i s = onTap t n o s)
    (h : (s.advance t).stnOn n = true) (p : P (settle s ((s.advance t).tap n o))) : Completes i s P :=
  ⟨_, e.trans (onStn_next t n _ s h), p⟩

/-- A hub that serves is supplied, ready, in no warm reset and no takeover. -/
theorem hubOn_parts {s : State} (h : s.hubOn = true) :
    s.isOn = true ∧ s.pair.ready = true ∧ s.pair.warm = false ∧ s.pair.takeover = none := by
  simp only [State.hubOn, Bool.and_eq_true, Bool.not_eq_true', Option.isNone_iff_eq_none] at h
  exact ⟨h.1.1.1, h.1.1.2, h.1.2, h.2⟩

theorem done_onWrite {i : Instr} {t off : Nat} {port : Port} {f : State → State} {s : State} {P : State → Prop}
    (e : exec i s = onWrite t port off f s) (h : (s.advance t).hubOn = true) (p : P (settle s (f (s.advance t)))) :
    Completes i s P := by
  obtain ⟨h1, h2, h3, h4⟩ := hubOn_parts h
  refine ⟨_, e.trans ?_, p⟩
  simp only [onWrite, always, h1, h2, h3, h4, Bool.not_true, Bool.or_self, Bool.false_eq_true, if_false, Option.isSome_none]

theorem done_onRead {i : Instr} {t off : Nat} {port : Port} {f : State → State × Word} {s : State} {P : State → Prop}
    (e : exec i s = onRead t port off f s) (h : (s.advance t).hubOn = true)
    (p : P (settle s ((f (s.advance t)).1.emit (.read port (f (s.advance t)).2)))) : Completes i s P := by
  obtain ⟨h1, h2, h3, h4⟩ := hubOn_parts h
  refine ⟨_, e.trans ?_, p⟩
  simp only [onRead, always, h1, h2, h3, h4, Bool.not_true, Bool.or_self, Bool.false_eq_true, if_false, Option.isSome_none]

theorem done_onCmd {i : Instr} {t : Nat} {q : CmdRef} {f : State → State} {s : State} {P : State → Prop}
    (e : exec i s = onCmd t q f s) (h : (s.advance t).hubOn = true) (hc : ((s.advance t).ctx q.ctx).st ≠ csClosed)
    (p : P (settle s (f ((s.advance t).enterLog q)))) : Completes i s P := by
  refine ⟨_, e.trans ((onHub_next t _ s h).trans ?_), p⟩
  rw [if_neg hc]

theorem done_onPortB {i : Instr} {t : Nat} {f : State → State} {s : State} {P : State → Prop} (e : exec i s = onPortB t f s)
    (h : (s.advance t).hubOn = true) (p : P (settle s (f (s.advance t)))) : Completes i s P := by
  obtain ⟨h1, h2, h3, -⟩ := hubOn_parts h
  refine ⟨_, e.trans ?_, p⟩
  simp only [onPortB, always, h1, h2, h3, Bool.not_true, Bool.or_self, Bool.false_eq_true, if_false]

/-! ## Frames -/

/-- A meaning that changes registers and stations alone. -/
theorem only_stn (s x : State) (t : Nat) (h : ∃ rg st hw, x = { s.advance t with regs := rg, stns := st, hw := hw }) (hs : s.sramW = []) :
    Only [.clk, .regs, .stns, .hw] s (settle s x) := by
  obtain ⟨rg, st, hw, rfl⟩ := h
  intro p hp
  cases p <;> simp_all [Part.same]

/-- What a command of a station's taps changes. -/
theorem only_tap (s : State) (t n : Nat) (o : TapOp) (hs : s.sramW = []) :
    Only [.clk, .regs, .stns, .hw, .taps, .watches, .mesh, .snaps, .snapId] s (settle s ((s.advance t).tap n o)) := by
  obtain ⟨rg, st, hw, tp, w, m, sn, si, e, -⟩ := State.tap_shape (s.advance t) n o
  rw [e]
  intro p hp
  cases p <;> simp_all [Part.same]

end Sys2Proof.Machine
end

