-- ==== Sys2Proof/Laws/PerInstr.lean ====
section
/-!
SUPPORT. One lemma for each constructor of `Instr`. Family Sender: a well-formed descriptor command comes from one of the 4096 contexts
and carries a 64-bit SEQ (10_contexts R230, Table 10.6).
-/

namespace Sys2Proof.Laws.Sender

/-- The reference of a descriptor command: its context, SEQ and IRQ bit. -/
def ref : Instr → Option CmdRef
  | .eventLineSample _ _ _ _ _ _ => none
  | .commandIssue _ _ _ _ => none
  | .commandRetire _ _ _ _ _ _ _ _ => none
  | .markerBeat _ _ _ _ _ _ _ => none
  | .rptAgeTimeout _ _ _ => none
  | .markerTimeout _ _ _ => none
  | .markerQueueDrain _ _ _ => none
  | .stallHoldRelease _ _ _ _ => none
  | .stallHoldTimeout _ _ _ _ => none
  | .stallRearm _ _ _ => none
  | .flowEvent _ _ _ _ _ _ _ _ => none
  | .tensorTag _ _ _ _ _ _ _ _ _ => none
  | .endTag _ _ _ _ _ _ _ _ => none
  | .tensorReadComplete _ _ _ _ => none
  | .tensorReadDeadline _ _ _ => none
  | .accumIdleTimeout _ _ _ => none
  | .dieFreqChange _ _ => none
  | .curdFlushTimeout _ _ => none
  | .gapFlushTimeout _ _ _ _ _ => none
  | .curdSend _ _ => none
  | .poolRequest _ _ => none
  | .poolBufferFree _ _ => none
  | .curdReceived _ _ _ => none
  | .resendRequest _ _ => none
  | .journalTake _ _ => none
  | .journalWriteComplete _ _ => none
  | .curdDelivery _ _ => none
  | .ackReceived _ _ _ _ => none
  | .retireNotice _ _ _ _ => none
  | .resendTimeout _ _ _ _ => none
  | .peerConfirm _ _ => none
  | .mirrorUpdate _ => none
  | .journalCheckpoint _ => none
  | .rebuildComplete _ => none
  | .journalEnable _ _ _ => none
  | .sinkPlace _ _ => none
  | .placementReadback _ _ _ => none
  | .skimWindowEnd _ => none
  | .skimReport _ _ => none
  | .skimDecision _ => none
  | .fastArm _ => none
  | .leverApply _ _ _ _ => none
  | .leverChangeDelivery _ _ => none
  | .timeExchangeRequest _ _ => none
  | .timeExchangeReply _ _ _ => none
  | .timeReplyReceived _ _ => none
  | .servoGroupEnd _ _ => none
  | .holdoverTimeout _ _ => none
  | .tsyncPeriodic _ _ => none
  | .refclkLoss _ => none
  | .refclkReturn _ _ => none
  | .ftStepApply _ => none
  | .ftRead _ _ => none
  | .rtcSecRead _ _ => none
  | .rtcLoad _ _ _ => none
  | .rtcLoadApply _ => none
  | .vbatLow _ => none
  | .autotrimMeasure _ _ _ => none
  | .rtcSecondStrobe _ => none
  | .ppsEdge _ _ => none
  | .ppsWindowMiss _ => none
  | .timeSet _ q _ => some q
  | .timeOfDay _ _ => none
  | .ppsOutStart _ => none
  | .ppsOutEnd _ => none
  | .hostAnchor _ q _ _ _ _ => some q
  | .hostAnchorMsg _ _ _ _ _ => none
  | .counterLoRead _ _ _ _ => none
  | .counterHiRead _ _ _ _ => none
  | .counterHiWrite _ _ _ _ _ => none
  | .counterLoWrite _ _ _ _ _ _ => none
  | .periodicCapture _ _ => none
  | .aoCapture _ _ => none
  | .snapCapture _ _ _ => none
  | .captureWriteDone _ _ _ => none
  | .snapshot _ q _ => some q
  | .snapshotMsg _ _ => none
  | .snapRecordAdmit _ _ => none
  | .bwWindowClose _ _ _ => none
  | .sequencerTransition _ _ => none
  | .seqTimerExpiry _ _ => none
  | .meshEvent _ _ => none
  | .meshParityError _ _ => none
  | .trigger _ q _ => some q
  | .triggerMsg _ _ => none
  | .trigInEdge _ _ _ => none
  | .trigOutPulseEnd _ _ => none
  | .pinFunctionSwitch _ _ _ => none
  | .holdChange _ _ _ => none
  | .holdWindowExpiry _ => none
  | .holdUnlock _ => none
  | .progressSend _ _ => none
  | .progressReceive _ _ => none
  | .silentTimeout _ _ => none
  | .ledgerIngest _ => none
  | .eventRelease _ => none
  | .flowEvict _ => none
  | .ledgerCatchupDone _ => none
  | .ledgerEnable _ _ _ => none
  | .ledgerDisable _ _ _ => none
  | .watchArm _ q _ => some q
  | .watchRemove _ q _ => some q
  | .watchEffect _ _ => none
  | .watchRetire _ _ => none
  | .exclLock _ _ _ => none
  | .tensorWatchEnable _ _ _ => none
  | .churnEnable _ _ _ => none
  | .churnIngest _ => none
  | .churnWindowClose _ => none
  | .sketchPartial _ _ _ => none
  | .partialTimeout _ _ => none
  | .detectorWindowClose _ _ => none
  | .exploadWindowBegin _ => none
  | .exploadWindowClose _ => none
  | .query _ q _ => some q
  | .queryAnswer _ _ => none
  | .queryWaitTimeout _ _ => none
  | .nop _ q => some q
  | .abort _ q _ => some q
  | .subscribe _ q _ _ => some q
  | .unsubscribe _ q _ => some q
  | .ctxOpen _ q _ => some q
  | .ctxModify _ q _ => some q
  | .ctxClose _ q _ => some q
  | .dbCmd _ _ _ _ _ => none
  | .dbCpl _ _ _ _ _ => none
  | .dbRec _ _ _ _ _ _ => none
  | .descriptorFetch _ _ _ => none
  | .logWriteComplete _ _ _ _ => none
  | .completionSignalTimeout _ _ => none
  | .hostReadError _ _ _ => none
  | .contextRun _ _ _ _ => none
  | .contextStop _ _ _ _ => none
  | .commandLogEnable _ _ _ => none
  | .msixUnmask _ _ => none
  | .semRequest _ _ _ => none
  | .semRelease _ _ _ => none
  | .leaseExpiry _ => none
  | .rwpWrite _ _ _ _ _ _ => none
  | .autocommitWrite _ _ _ _ => none
  | .registerWrite _ _ _ _ _ _ _ => none
  | .planBegin _ q _ => some q
  | .planStage _ q _ _ => some q
  | .planCommit _ q _ => some q
  | .planRollback _ q _ => some q
  | .opBegin _ _ => none
  | .opCommit _ _ => none
  | .opRollback _ _ _ => none
  | .prepareReceived _ _ => none
  | .readyReceived _ _ _ => none
  | .commitGo _ => none
  | .goReceived _ _ => none
  | .stationSwap _ _ => none
  | .commitCheck _ => none
  | .rollbackBoundary _ => none
  | .regRead _ _ _ => none
  | .regWrite _ _ => none
  | .sramRead _ _ _ => none
  | .sramWrite _ _ _ => none
  | .doorbell _ _ _ _ => none
  | .setNotify _ _ _ => none
  | .noticeResend _ _ => none
  | .mctpControl _ _ _ => none
  | .mbxPost _ _ _ _ _ => none
  | .mbxAck _ _ _ _ => none
  | .mbxAckqRead _ _ _ => none
  | .ping _ _ => none
  | .fwInfo _ _ _ => none
  | .fwStage _ _ _ _ => none
  | .fwActivate _ _ => none
  | .diagRun _ _ => none
  | .oasisDump _ _ _ => none
  | .console _ _ _ _ _ => none
  | .keyRegister _ q _ _ => some q
  | .keyRevoke _ q _ => some q
  | .sealPubkey _ q _ _ => some q
  | .disclose _ q _ _ _ => some q
  | .tenantAttach _ q _ => some q
  | .tenantDetach _ q => some q
  | .tenantChangeSignal _ => none
  | .scrubStep _ => none
  | .sealOpComplete _ _ => none
  | .sealPeriod _ => none
  | .syncPortTrained _ _ _ _ => none
  | .nodeTimeExchange _ _ _ _ => none
  | .nodeProbe _ _ => none
  | .nodeStepOrder _ _ _ _ => none
  | .trigBlockReceived _ _ _ _ _ _ => none
  | .syncReplayRequest _ _ _ => none
  | .beaconSend _ => none
  | .beaconReceived _ _ _ => none
  | .beaconTimeout _ _ => none
  | .headClaim _ _ _ => none
  | .nodeProgress _ => none
  | .recFrameReceived _ _ _ => none
  | .nodePlace _ => none
  | .nodeAckReceived _ _ => none
  | .boundaryReport _ _ _ _ => none
  | .nodeSnapshot _ _ => none
  | .nodeCommit _ _ _ _ => none
  | .nodeGoDecision _ => none
  | .nodeReportDeadline _ _ => none
  | .nodeRollback _ => none
  | .nodeQueryTimeout _ _ => none
  | .coldReset _ _ _ _ => none
  | .rstN _ => none
  | .warmrst _ _ => none
  | .hubPairResume _ _ _ _ => none
  | .stationResetEntry _ _ => none
  | .stationResetExit _ _ => none
  | .stationReload _ _ => none
  | .portAReset _ => none
  | .portBReset _ => none
  | .jobRestartSignal _ => none
  | .jobRestartBoundary _ => none
  | .heartbeatTimeout _ => none
  | .hubSelfFault _ _ => none
  | .switch _ _ => none
  | .fenceConfirm _ => none
  | .fenceTimeout _ => none
  | .hubRejoin _ => none
  | .serviceCoreFault _ _ _ _ _ => none
  | .coreHalt _ _ _ => none
  | .channelError _ _ => none
  | .channelRetryResult _ _ _ => none
  | .channelWindowClose _ _ => none
  | .channelRestore _ _ => none
  | .channelRestoreDone _ _ _ => none
  | .channelRetire _ _ => none
  | .sramUncorr _ _ _ _ => none
  | .oasisClear _ _ _ => none
  | .powerLoss _ => none
  | .streamStart _ _ _ _ => none
  | .streamEnd _ _ _ _ => none
  | .caravanSend _ _ => none
  | .caravanAck _ _ _ _ _ _ _ => none
  | .retransmitTimeout _ _ _ => none
  | .streamStall _ _ => none
  | .egressFrameRx _ _ => none
  | .neighborSolicitation _ _ => none
  | .subportUp _ _ => none
  | .portRestart _ => none
  | .grayEnable _ _ _ => none
  | .grayDisable _ _ _ => none
  | .grayPlace _ => none
  | .grayRptrWrite _ _ _ => none
  | .kxaccAccess _ _ _ _ => none
  | .trigPpsEdge _ _ => none
  | .portAFatalError _ => none
  | .rollbackReceived _ _ => none
  | .snapshotCommandReceived _ _ _ => none
  | .syncLinkLoss _ _ => none
  | .egressLinkDown _ _ => none
  | .standbyHubLoss _ => none
  | .porstNAssert _ => none
  | .vbatPowerOn _ => none
  | .retentionSupplyLoss _ => none
  | .tdiStateChange _ _ => none
  | .noticeResponse _ _ => none
  | .sketchStreamBoundary _ _ _ => none
  | .nodePrepareReceived _ _ => none
  | .nodeReadyReceived _ _ => none
  | .nodeGoReceived _ _ => none
  | .nodeSwapReportReceived _ _ _ => none
  | .nodeSnapshotReceived _ _ _ => none
  | .nodeQueryReceived _ _ _ => none
  | .nodeQueryAnswerReceived _ _ _ _ => none
  | .nodeProgressReceived _ _ _ => none
  | .nodeStepReceived _ _ _ => none

/-- What the family states of a command. -/
def Statement (i : Instr) : Prop := i.wf = true → ∀ q, ref i = some q → q.ctx < 4096 ∧ q.seq < 2 ^ 64

theorem of_none {i : Instr} (h : ref i = none) : Statement i := by
  intro _ q e
  rw [h] at e
  cases e

theorem of_qOk {i : Instr} {q : CmdRef} (h : ref i = some q) (w : i.wf = true → qOk q = true) : Statement i := by
  intro v p e
  rw [h] at e
  cases e
  simpa [qOk] using w v

theorem eventLineSample (t : Nat) (die : Fin 40) (tap : Fin 32) (lines : BitVec 64) (p1 : Bool) (cyc : Nat) :
    Statement (.eventLineSample t die tap lines p1 cyc) := of_none rfl
theorem commandIssue (t : Nat) (die : Fin 40) (tap : Fin 32) (idx : BitVec 32) :
    Statement (.commandIssue t die tap idx) := of_none rfl
theorem commandRetire (t : Nat) (die : Fin 40) (tap : Fin 32) (idx : BitVec 32) (addr : BitVec 48) (stall : BitVec 16) (p1 : Bool) (cyc : Nat) :
    Statement (.commandRetire t die tap idx addr stall p1 cyc) := of_none rfl
theorem markerBeat (t : Nat) (die : Fin 40) (tap : Fin 32) (src : BitVec 16) (data : BitVec 128) (p1 : Bool) (cyc : Nat) :
    Statement (.markerBeat t die tap src data p1 cyc) := of_none rfl
theorem rptAgeTimeout (t : Nat) (die : Fin 40) (entry : Fin 64) :
    Statement (.rptAgeTimeout t die entry) := of_none rfl
theorem markerTimeout (t : Nat) (die : Fin 40) (tap : Fin 32) :
    Statement (.markerTimeout t die tap) := of_none rfl
theorem markerQueueDrain (t : Nat) (die : Fin 40) (slice : Fin 8) :
    Statement (.markerQueueDrain t die slice) := of_none rfl
theorem stallHoldRelease (t : Nat) (die : Fin 40) (tap : Fin 32) (flow : Bool) :
    Statement (.stallHoldRelease t die tap flow) := of_none rfl
theorem stallHoldTimeout (t : Nat) (die : Fin 40) (tap : Fin 32) (flow : Bool) :
    Statement (.stallHoldTimeout t die tap flow) := of_none rfl
theorem stallRearm (t : Nat) (die : Fin 40) (key : Fin 96) :
    Statement (.stallRearm t die key) := of_none rfl
theorem flowEvent (t : Nat) (die : Fin 40) (tap : Fin 32) (handle : BitVec 21) (code : BitVec 4) (arg : BitVec 32) (p1 : Bool) (cyc : Nat) :
    Statement (.flowEvent t die tap handle code arg p1 cyc) := of_none rfl
theorem tensorTag (t : Nat) (die : Fin 40) (tap : Fin 32) (tid : BitVec 24) (step : BitVec 32) (addr : BitVec 48) (len : BitVec 16) (p1 : Bool) (cyc : Nat) :
    Statement (.tensorTag t die tap tid step addr len p1 cyc) := of_none rfl
theorem endTag (t : Nat) (die : Fin 40) (tap : Fin 32) (tid : BitVec 24) (step : BitVec 32) (addr : BitVec 48) (p1 : Bool) (cyc : Nat) :
    Statement (.endTag t die tap tid step addr p1 cyc) := of_none rfl
theorem tensorReadComplete (t : Nat) (die : Fin 40) (burst : Nat) (data : List Byte) :
    Statement (.tensorReadComplete t die burst data) := of_none rfl
theorem tensorReadDeadline (t : Nat) (die : Fin 40) (burst : Nat) :
    Statement (.tensorReadDeadline t die burst) := of_none rfl
theorem accumIdleTimeout (t : Nat) (die : Fin 40) (wid : Fin 64) :
    Statement (.accumIdleTimeout t die wid) := of_none rfl
theorem dieFreqChange (t : Nat) (die : Fin 40) :
    Statement (.dieFreqChange t die) := of_none rfl
theorem curdFlushTimeout (t : Nat) (u : Fin 48) :
    Statement (.curdFlushTimeout t u) := of_none rfl
theorem gapFlushTimeout (t : Nat) (u : Fin 48) (src : BitVec 16) (lkind : BitVec 4) (cause : BitVec 4) :
    Statement (.gapFlushTimeout t u src lkind cause) := of_none rfl
theorem curdSend (t : Nat) (die : Fin 40) :
    Statement (.curdSend t die) := of_none rfl
theorem poolRequest (t : Nat) (reqs : List (Fin 48)) :
    Statement (.poolRequest t reqs) := of_none rfl
theorem poolBufferFree (t : Nat) (jidx : Nat) :
    Statement (.poolBufferFree t jidx) := of_none rfl
theorem curdReceived (t : Nat) (die : Fin 40) (crcOk : Bool) :
    Statement (.curdReceived t die crcOk) := of_none rfl
theorem resendRequest (t : Nat) (die : Fin 40) :
    Statement (.resendRequest t die) := of_none rfl
theorem journalTake (t : Nat) (u : Fin 48) :
    Statement (.journalTake t u) := of_none rfl
theorem journalWriteComplete (t : Nat) (jidx : Nat) :
    Statement (.journalWriteComplete t jidx) := of_none rfl
theorem curdDelivery (t : Nat) (jidx : Nat) :
    Statement (.curdDelivery t jidx) := of_none rfl
theorem ackReceived (t : Nat) (die : Fin 40) (rsv : Bool) (first : Nat) :
    Statement (.ackReceived t die rsv first) := of_none rfl
theorem retireNotice (t : Nat) (die : Fin 40) (rsv : Bool) (first : Nat) :
    Statement (.retireNotice t die rsv first) := of_none rfl
theorem resendTimeout (t : Nat) (die : Fin 40) (rsv : Bool) (first : Nat) :
    Statement (.resendTimeout t die rsv first) := of_none rfl
theorem peerConfirm (t : Nat) (src : Fin 8) :
    Statement (.peerConfirm t src) := of_none rfl
theorem mirrorUpdate (t : Nat) :
    Statement (.mirrorUpdate t) := of_none rfl
theorem journalCheckpoint (t : Nat) :
    Statement (.journalCheckpoint t) := of_none rfl
theorem rebuildComplete (t : Nat) :
    Statement (.rebuildComplete t) := of_none rfl
theorem journalEnable (t : Nat) (port : Port) (value : Word) :
    Statement (.journalEnable t port value) := of_none rfl
theorem sinkPlace (t : Nat) (sink : Sink) :
    Statement (.sinkPlace t sink) := of_none rfl
theorem placementReadback (t : Nat) (ctx : Fin 4096) (ring : Fin 8) :
    Statement (.placementReadback t ctx ring) := of_none rfl
theorem skimWindowEnd (t : Nat) :
    Statement (.skimWindowEnd t) := of_none rfl
theorem skimReport (t : Nat) (u : Fin 48) :
    Statement (.skimReport t u) := of_none rfl
theorem skimDecision (t : Nat) :
    Statement (.skimDecision t) := of_none rfl
theorem fastArm (t : Nat) :
    Statement (.fastArm t) := of_none rfl
theorem leverApply (t : Nat) (u : Fin 48) (lever : BitVec 8) (idx : BitVec 8) :
    Statement (.leverApply t u lever idx) := of_none rfl
theorem leverChangeDelivery (t : Nat) (u : Fin 48) :
    Statement (.leverChangeDelivery t u) := of_none rfl
theorem timeExchangeRequest (t : Nat) (die : Fin 40) :
    Statement (.timeExchangeRequest t die) := of_none rfl
theorem timeExchangeReply (t : Nat) (die : Fin 40) (turn : Nat) :
    Statement (.timeExchangeReply t die turn) := of_none rfl
theorem timeReplyReceived (t : Nat) (die : Fin 40) :
    Statement (.timeReplyReceived t die) := of_none rfl
theorem servoGroupEnd (t : Nat) (die : Fin 40) :
    Statement (.servoGroupEnd t die) := of_none rfl
theorem holdoverTimeout (t : Nat) (die : Fin 40) :
    Statement (.holdoverTimeout t die) := of_none rfl
theorem tsyncPeriodic (t : Nat) (die : Fin 40) :
    Statement (.tsyncPeriodic t die) := of_none rfl
theorem refclkLoss (t : Nat) :
    Statement (.refclkLoss t) := of_none rfl
theorem refclkReturn (t : Nat) (cycles : Nat) :
    Statement (.refclkReturn t cycles) := of_none rfl
theorem ftStepApply (t : Nat) :
    Statement (.ftStepApply t) := of_none rfl
theorem ftRead (t : Nat) (port : Port) :
    Statement (.ftRead t port) := of_none rfl
theorem rtcSecRead (t : Nat) (port : Port) :
    Statement (.rtcSecRead t port) := of_none rfl
theorem rtcLoad (t : Nat) (port : Port) (value : Word) :
    Statement (.rtcLoad t port value) := of_none rfl
theorem rtcLoadApply (t : Nat) :
    Statement (.rtcLoadApply t) := of_none rfl
theorem vbatLow (t : Nat) :
    Statement (.vbatLow t) := of_none rfl
theorem autotrimMeasure (t : Nat) (drift : Int) (strobe : Int) :
    Statement (.autotrimMeasure t drift strobe) := of_none rfl
theorem rtcSecondStrobe (t : Nat) :
    Statement (.rtcSecondStrobe t) := of_none rfl
theorem ppsEdge (t : Nat) (e : PpsPulse) :
    Statement (.ppsEdge t e) := of_none rfl
theorem ppsWindowMiss (t : Nat) :
    Statement (.ppsWindowMiss t) := of_none rfl
theorem timeSet (t : Nat) (q : CmdRef) (sec : BitVec 48) :
    Statement (.timeSet t q sec) := of_qOk rfl fun h => by simp_all [Instr.wf]
theorem timeOfDay (t : Nat) (sec : BitVec 48) :
    Statement (.timeOfDay t sec) := of_none rfl
theorem ppsOutStart (t : Nat) :
    Statement (.ppsOutStart t) := of_none rfl
theorem ppsOutEnd (t : Nat) :
    Statement (.ppsOutEnd t) := of_none rfl
theorem hostAnchor (t : Nat) (q : CmdRef) (ft : BitVec 64) (sec : BitVec 48) (ns : BitVec 30) (bound : BitVec 32) :
    Statement (.hostAnchor t q ft sec ns bound) := of_qOk rfl fun h => by simp_all [Instr.wf]
theorem hostAnchorMsg (t : Nat) (ft : BitVec 64) (sec : BitVec 48) (ns : BitVec 30) (bound : BitVec 32) :
    Statement (.hostAnchorMsg t ft sec ns bound) := of_none rfl
theorem counterLoRead (t : Nat) (port : Port) (die : Fin 40) (ctr : Fin 320) :
    Statement (.counterLoRead t port die ctr) := of_none rfl
theorem counterHiRead (t : Nat) (port : Port) (die : Fin 40) (ctr : Fin 320) :
    Statement (.counterHiRead t port die ctr) := of_none rfl
theorem counterHiWrite (t : Nat) (port : Port) (die : Fin 40) (ctr : Fin 256) (value : Word) :
    Statement (.counterHiWrite t port die ctr value) := of_none rfl
theorem counterLoWrite (t : Nat) (port : Port) (die : Fin 40) (ctr : Fin 256) (value : Word) (hi : Option Word) :
    Statement (.counterLoWrite t port die ctr value hi) := of_none rfl
theorem periodicCapture (t : Nat) (die : Fin 40) :
    Statement (.periodicCapture t die) := of_none rfl
theorem aoCapture (t : Nat) (die : Fin 40) :
    Statement (.aoCapture t die) := of_none rfl
theorem snapCapture (t : Nat) (die : Fin 40) (id : BitVec 32) :
    Statement (.snapCapture t die id) := of_none rfl
theorem captureWriteDone (t : Nat) (die : Fin 40) (at_ : Nat) :
    Statement (.captureWriteDone t die at_) := of_none rfl
theorem snapshot (t : Nat) (q : CmdRef) (tq : BitVec 64) :
    Statement (.snapshot t q tq) := of_qOk rfl fun h => by simp_all [Instr.wf]
theorem snapshotMsg (t : Nat) (tq : BitVec 64) :
    Statement (.snapshotMsg t tq) := of_none rfl
theorem snapRecordAdmit (t : Nat) (id : BitVec 32) :
    Statement (.snapRecordAdmit t id) := of_none rfl
theorem bwWindowClose (t : Nat) (die : Fin 40) (sl : Fin 4) :
    Statement (.bwWindowClose t die sl) := of_none rfl
theorem sequencerTransition (t : Nat) (die : Fin 40) :
    Statement (.sequencerTransition t die) := of_none rfl
theorem seqTimerExpiry (t : Nat) (die : Fin 40) :
    Statement (.seqTimerExpiry t die) := of_none rfl
theorem meshEvent (t : Nat) (slot : Nat) :
    Statement (.meshEvent t slot) := of_none rfl
theorem meshParityError (t : Nat) (leg : Nat) :
    Statement (.meshParityError t leg) := of_none rfl
theorem trigger (t : Nat) (q : CmdRef) (lines : BitVec 8) :
    Statement (.trigger t q lines) := of_qOk rfl fun h => by simp_all [Instr.wf]
theorem triggerMsg (t : Nat) (lines : BitVec 8) :
    Statement (.triggerMsg t lines) := of_none rfl
theorem trigInEdge (t : Nat) (pin : Fin 8) (level : Bool) :
    Statement (.trigInEdge t pin level) := of_none rfl
theorem trigOutPulseEnd (t : Nat) (pin : Fin 8) :
    Statement (.trigOutPulseEnd t pin) := of_none rfl
theorem pinFunctionSwitch (t : Nat) (pin : Fin 8) (level : Bool) :
    Statement (.pinFunctionSwitch t pin level) := of_none rfl
theorem holdChange (t : Nat) (chanB : Bool) (level : Bool) :
    Statement (.holdChange t chanB level) := of_none rfl
theorem holdWindowExpiry (t : Nat) :
    Statement (.holdWindowExpiry t) := of_none rfl
theorem holdUnlock (t : Nat) :
    Statement (.holdUnlock t) := of_none rfl
theorem progressSend (t : Nat) (die : Fin 40) :
    Statement (.progressSend t die) := of_none rfl
theorem progressReceive (t : Nat) (die : Fin 40) :
    Statement (.progressReceive t die) := of_none rfl
theorem silentTimeout (t : Nat) (die : Fin 40) :
    Statement (.silentTimeout t die) := of_none rfl
theorem ledgerIngest (t : Nat) :
    Statement (.ledgerIngest t) := of_none rfl
theorem eventRelease (t : Nat) :
    Statement (.eventRelease t) := of_none rfl
theorem flowEvict (t : Nat) :
    Statement (.flowEvict t) := of_none rfl
theorem ledgerCatchupDone (t : Nat) :
    Statement (.ledgerCatchupDone t) := of_none rfl
theorem ledgerEnable (t : Nat) (port : Port) (value : Word) :
    Statement (.ledgerEnable t port value) := of_none rfl
theorem ledgerDisable (t : Nat) (port : Port) (value : Word) :
    Statement (.ledgerDisable t port value) := of_none rfl
theorem watchArm (t : Nat) (q : CmdRef) (a : WatchArgs) :
    Statement (.watchArm t q a) := of_qOk rfl fun h => by simp_all [Instr.wf]
theorem watchRemove (t : Nat) (q : CmdRef) (wid : Fin 64) :
    Statement (.watchRemove t q wid) := of_qOk rfl fun h => by simp_all [Instr.wf]
theorem watchEffect (t : Nat) (wid : Fin 64) :
    Statement (.watchEffect t wid) := of_none rfl
theorem watchRetire (t : Nat) (wid : Fin 64) :
    Statement (.watchRetire t wid) := of_none rfl
theorem exclLock (t : Nat) (port : Port) (value : Word) :
    Statement (.exclLock t port value) := of_none rfl
theorem tensorWatchEnable (t : Nat) (port : Port) (value : Word) :
    Statement (.tensorWatchEnable t port value) := of_none rfl
theorem churnEnable (t : Nat) (port : Port) (value : Word) :
    Statement (.churnEnable t port value) := of_none rfl
theorem churnIngest (t : Nat) :
    Statement (.churnIngest t) := of_none rfl
theorem churnWindowClose (t : Nat) :
    Statement (.churnWindowClose t) := of_none rfl
theorem sketchPartial (t : Nat) (die : Fin 40) (sl : Fin 4) :
    Statement (.sketchPartial t die sl) := of_none rfl
theorem partialTimeout (t : Nat) (dfn : Fin 64) :
    Statement (.partialTimeout t dfn) := of_none rfl
theorem detectorWindowClose (t : Nat) (det : Fin 32) :
    Statement (.detectorWindowClose t det) := of_none rfl
theorem exploadWindowBegin (t : Nat) :
    Statement (.exploadWindowBegin t) := of_none rfl
theorem exploadWindowClose (t : Nat) :
    Statement (.exploadWindowClose t) := of_none rfl
theorem query (t : Nat) (q : CmdRef) (a : QueryArgs) :
    Statement (.query t q a) := of_qOk rfl fun h => by simp_all [Instr.wf]
theorem queryAnswer (t : Nat) (id : Nat) :
    Statement (.queryAnswer t id) := of_none rfl
theorem queryWaitTimeout (t : Nat) (id : Nat) :
    Statement (.queryWaitTimeout t id) := of_none rfl
theorem nop (t : Nat) (q : CmdRef) :
    Statement (.nop t q) := of_qOk rfl fun h => by simp_all [Instr.wf]
theorem abort (t : Nat) (q : CmdRef) (target : BitVec 64) :
    Statement (.abort t q target) := of_qOk rfl fun h => by simp_all [Instr.wf]
theorem subscribe (t : Nat) (q : CmdRef) (ring : Fin 8) (a : SubArgs) :
    Statement (.subscribe t q ring a) := of_qOk rfl fun h => by simp_all [Instr.wf]
theorem unsubscribe (t : Nat) (q : CmdRef) (ring : Fin 8) :
    Statement (.unsubscribe t q ring) := of_qOk rfl fun h => by simp_all [Instr.wf]
theorem ctxOpen (t : Nat) (q : CmdRef) (a : CtxArgs) :
    Statement (.ctxOpen t q a) := of_qOk rfl fun h => by simp_all [Instr.wf]
theorem ctxModify (t : Nat) (q : CmdRef) (a : CtxArgs) :
    Statement (.ctxModify t q a) := of_qOk rfl fun h => by simp_all [Instr.wf]
theorem ctxClose (t : Nat) (q : CmdRef) (ctx : Fin 4096) :
    Statement (.ctxClose t q ctx) := of_qOk rfl fun h => by simp_all [Instr.wf]
theorem dbCmd (t : Nat) (port : Port) (tee : Bool) (ctx : Fin 4096) (value : Word) :
    Statement (.dbCmd t port tee ctx value) := of_none rfl
theorem dbCpl (t : Nat) (port : Port) (tee : Bool) (ctx : Fin 4096) (value : Word) :
    Statement (.dbCpl t port tee ctx value) := of_none rfl
theorem dbRec (t : Nat) (port : Port) (tee : Bool) (ctx : Fin 4096) (ring : Fin 8) (value : Word) :
    Statement (.dbRec t port tee ctx ring value) := of_none rfl
theorem descriptorFetch (t : Nat) (ctx : Fin 4096) (words : List (BitVec 64)) :
    Statement (.descriptorFetch t ctx words) := of_none rfl
theorem logWriteComplete (t : Nat) (ctx : Fin 4096) (seq : Nat) (mem : Option (List (BitVec 64))) :
    Statement (.logWriteComplete t ctx seq mem) := of_none rfl
theorem completionSignalTimeout (t : Nat) (ctx : Fin 4096) :
    Statement (.completionSignalTimeout t ctx) := of_none rfl
theorem hostReadError (t : Nat) (ctx : Fin 4096) (fetch : Bool) :
    Statement (.hostReadError t ctx fetch) := of_none rfl
theorem contextRun (t : Nat) (port : Port) (tee : Bool) (ctx : Fin 4096) :
    Statement (.contextRun t port tee ctx) := of_none rfl
theorem contextStop (t : Nat) (port : Port) (tee : Bool) (ctx : Fin 4096) :
    Statement (.contextStop t port tee ctx) := of_none rfl
theorem commandLogEnable (t : Nat) (port : Port) (value : Word) :
    Statement (.commandLogEnable t port value) := of_none rfl
theorem msixUnmask (t : Nat) (vec : Fin 4112) :
    Statement (.msixUnmask t vec) := of_none rfl
theorem semRequest (t : Nat) (port : Port) (value : Word) :
    Statement (.semRequest t port value) := of_none rfl
theorem semRelease (t : Nat) (port : Port) (value : Word) :
    Statement (.semRelease t port value) := of_none rfl
theorem leaseExpiry (t : Nat) :
    Statement (.leaseExpiry t) := of_none rfl
theorem rwpWrite (t : Nat) (port : Port) (off : BitVec 26) (width : Nat) (be : BitVec 8) (value : BitVec 64) :
    Statement (.rwpWrite t port off width be value) := of_none rfl
theorem autocommitWrite (t : Nat) (port : Port) (off : BitVec 26) (value : Word) :
    Statement (.autocommitWrite t port off value) := of_none rfl
theorem registerWrite (t : Nat) (port : Port) (tee : Bool) (off : BitVec 26) (width : Nat) (be : BitVec 8) (value : BitVec 64) :
    Statement (.registerWrite t port tee off width be value) := of_none rfl
theorem planBegin (t : Nat) (q : CmdRef) (ms : BitVec 10) :
    Statement (.planBegin t q ms) := of_qOk rfl fun h => by simp_all [Instr.wf]
theorem planStage (t : Nat) (q : CmdRef) (inline_ : List (Word × Word)) (list : Option (List (Word × Word))) :
    Statement (.planStage t q inline_ list) := of_qOk rfl fun h => by simp_all [Instr.wf]
theorem planCommit (t : Nat) (q : CmdRef) (at_ : BitVec 64) :
    Statement (.planCommit t q at_) := of_qOk rfl fun h => by simp_all [Instr.wf]
theorem planRollback (t : Nat) (q : CmdRef) (force : Bool) :
    Statement (.planRollback t q force) := of_qOk rfl fun h => by simp_all [Instr.wf]
theorem opBegin (t : Nat) (port : Port) :
    Statement (.opBegin t port) := of_none rfl
theorem opCommit (t : Nat) (port : Port) :
    Statement (.opCommit t port) := of_none rfl
theorem opRollback (t : Nat) (port : Port) (force : Bool) :
    Statement (.opRollback t port force) := of_none rfl
theorem prepareReceived (t : Nat) (die : Fin 40) :
    Statement (.prepareReceived t die) := of_none rfl
theorem readyReceived (t : Nat) (die : Fin 40) (crc : BitVec 32) :
    Statement (.readyReceived t die crc) := of_none rfl
theorem commitGo (t : Nat) :
    Statement (.commitGo t) := of_none rfl
theorem goReceived (t : Nat) (die : Fin 40) :
    Statement (.goReceived t die) := of_none rfl
theorem stationSwap (t : Nat) (die : Fin 40) :
    Statement (.stationSwap t die) := of_none rfl
theorem commitCheck (t : Nat) :
    Statement (.commitCheck t) := of_none rfl
theorem rollbackBoundary (t : Nat) :
    Statement (.rollbackBoundary t) := of_none rfl
theorem regRead (t : Nat) (off : BitVec 26) (count : Nat) :
    Statement (.regRead t off count) := of_none rfl
theorem regWrite (t : Nat) (writes : List (BitVec 26 × Word)) :
    Statement (.regWrite t writes) := of_none rfl
theorem sramRead (t : Nat) (addr : Nat) (len : Nat) :
    Statement (.sramRead t addr len) := of_none rfl
theorem sramWrite (t : Nat) (addr : Nat) (data : List Byte) :
    Statement (.sramWrite t addr data) := of_none rfl
theorem doorbell (t : Nat) (ctx : Fin 4096) (sel : BitVec 8) (value : Word) :
    Statement (.doorbell t ctx sel value) := of_none rfl
theorem setNotify (t : Nat) (dest : BitVec 8) (enable : BitVec 2) :
    Statement (.setNotify t dest enable) := of_none rfl
theorem noticeResend (t : Nat) (src : Nat) :
    Statement (.noticeResend t src) := of_none rfl
theorem mctpControl (t : Nat) (cmd : BitVec 8) (data : List Byte) :
    Statement (.mctpControl t cmd data) := of_none rfl
theorem mbxPost (t : Nat) (port : Port) (mbx : Fin 16) (value : Word) (dmwr : Bool) :
    Statement (.mbxPost t port mbx value dmwr) := of_none rfl
theorem mbxAck (t : Nat) (port : Port) (mbx : Fin 16) (value : Word) :
    Statement (.mbxAck t port mbx value) := of_none rfl
theorem mbxAckqRead (t : Nat) (port : Port) (mbx : Fin 16) :
    Statement (.mbxAckqRead t port mbx) := of_none rfl
theorem ping (t : Nat) (mbx : Fin 16) :
    Statement (.ping t mbx) := of_none rfl
theorem fwInfo (t : Nat) (mbx : Fin 16) (ok : Bool) :
    Statement (.fwInfo t mbx ok) := of_none rfl
theorem fwStage (t : Nat) (mbx : Fin 16) (mem : Option (List Byte)) (last : Bool) :
    Statement (.fwStage t mbx mem last) := of_none rfl
theorem fwActivate (t : Nat) (mbx : Fin 16) :
    Statement (.fwActivate t mbx) := of_none rfl
theorem diagRun (t : Nat) (mbx : Fin 16) :
    Statement (.diagRun t mbx) := of_none rfl
theorem oasisDump (t : Nat) (mbx : Fin 16) (ok : Bool) :
    Statement (.oasisDump t mbx ok) := of_none rfl
theorem console (t : Nat) (mbx : Fin 16) (arg : BitVec 16) (rest : List Word) (text : List Byte) :
    Statement (.console t mbx arg rest text) := of_none rfl
theorem keyRegister (t : Nat) (q : CmdRef) (addr : BitVec 64) (point : Option (BitVec 384 × BitVec 384)) :
    Statement (.keyRegister t q addr point) := of_qOk rfl fun h => by simp_all [Instr.wf]
theorem keyRevoke (t : Nat) (q : CmdRef) (keyId : BitVec 32) :
    Statement (.keyRevoke t q keyId) := of_qOk rfl fun h => by simp_all [Instr.wf]
theorem sealPubkey (t : Nat) (q : CmdRef) (buf : BitVec 64) (ok : Bool) :
    Statement (.sealPubkey t q buf ok) := of_qOk rfl fun h => by simp_all [Instr.wf]
theorem disclose (t : Nat) (q : CmdRef) (buf : BitVec 64) (len : BitVec 32) (ok : Bool) :
    Statement (.disclose t q buf len ok) := of_qOk rfl fun h => by simp_all [Instr.wf]
theorem tenantAttach (t : Nat) (q : CmdRef) (tenant : BitVec 64) :
    Statement (.tenantAttach t q tenant) := of_qOk rfl fun h => by simp_all [Instr.wf]
theorem tenantDetach (t : Nat) (q : CmdRef) :
    Statement (.tenantDetach t q) := of_qOk rfl fun h => by simp_all [Instr.wf]
theorem tenantChangeSignal (t : Nat) :
    Statement (.tenantChangeSignal t) := of_none rfl
theorem scrubStep (t : Nat) :
    Statement (.scrubStep t) := of_none rfl
theorem sealOpComplete (t : Nat) (ok : Bool) :
    Statement (.sealOpComplete t ok) := of_none rfl
theorem sealPeriod (t : Nat) :
    Statement (.sealPeriod t) := of_none rfl
theorem syncPortTrained (t : Nat) (port : Fin 3) (peer : BitVec 6) (delay : BitVec 8) :
    Statement (.syncPortTrained t port peer delay) := of_none rfl
theorem nodeTimeExchange (t : Nat) (port : Fin 3) (parent : BitVec 6) (probes : List NodeProbe) :
    Statement (.nodeTimeExchange t port parent probes) := of_none rfl
theorem nodeProbe (t : Nat) (port : Fin 3) :
    Statement (.nodeProbe t port) := of_none rfl
theorem nodeStepOrder (t : Nat) (dev : BitVec 6) (offh : Int) (join : Bool) :
    Statement (.nodeStepOrder t dev offh join) := of_none rfl
theorem trigBlockReceived (t : Nat) (port : Fin 3) (origin : BitVec 6) (line : Fin 8) (serial : BitVec 8) (ctrl : Bool) :
    Statement (.trigBlockReceived t port origin line serial ctrl) := of_none rfl
theorem syncReplayRequest (t : Nat) (port : Fin 3) (seq : Nat) :
    Statement (.syncReplayRequest t port seq) := of_none rfl
theorem beaconSend (t : Nat) :
    Statement (.beaconSend t) := of_none rfl
theorem beaconReceived (t : Nat) (port : Fin 3) (b : Beacon) :
    Statement (.beaconReceived t port b) := of_none rfl
theorem beaconTimeout (t : Nat) (dev : BitVec 6) :
    Statement (.beaconTimeout t dev) := of_none rfl
theorem headClaim (t : Nat) (port : Port) (value : Word) :
    Statement (.headClaim t port value) := of_none rfl
theorem nodeProgress (t : Nat) :
    Statement (.nodeProgress t) := of_none rfl
theorem recFrameReceived (t : Nat) (dev : BitVec 6) (x : NodeItem) :
    Statement (.recFrameReceived t dev x) := of_none rfl
theorem nodePlace (t : Nat) :
    Statement (.nodePlace t) := of_none rfl
theorem nodeAckReceived (t : Nat) (jidx : Nat) :
    Statement (.nodeAckReceived t jidx) := of_none rfl
theorem boundaryReport (t : Nat) (dev : BitVec 6) (kind : BitVec 2) (epoch : BitVec 32) :
    Statement (.boundaryReport t dev kind epoch) := of_none rfl
theorem nodeSnapshot (t : Nat) (port : Port) :
    Statement (.nodeSnapshot t port) := of_none rfl
theorem nodeCommit (t : Nat) (port : Port) (parts : BitVec 64) (busy : BitVec 64) :
    Statement (.nodeCommit t port parts busy) := of_none rfl
theorem nodeGoDecision (t : Nat) :
    Statement (.nodeGoDecision t) := of_none rfl
theorem nodeReportDeadline (t : Nat) (ok : Bool) :
    Statement (.nodeReportDeadline t ok) := of_none rfl
theorem nodeRollback (t : Nat) :
    Statement (.nodeRollback t) := of_none rfl
theorem nodeQueryTimeout (t : Nat) (id : Nat) :
    Statement (.nodeQueryTimeout t id) := of_none rfl
theorem coldReset (t : Nat) (verA : Bool) (verB : Bool) (prevOk : Bool) :
    Statement (.coldReset t verA verB prevOk) := of_none rfl
theorem rstN (t : Nat) :
    Statement (.rstN t) := of_none rfl
theorem warmrst (t : Nat) (port : Port) :
    Statement (.warmrst t port) := of_none rfl
theorem hubPairResume (t : Nat) (verA : Bool) (verB : Bool) (prevOk : Bool) :
    Statement (.hubPairResume t verA verB prevOk) := of_none rfl
theorem stationResetEntry (t : Nat) (die : Fin 40) :
    Statement (.stationResetEntry t die) := of_none rfl
theorem stationResetExit (t : Nat) (die : Fin 40) :
    Statement (.stationResetExit t die) := of_none rfl
theorem stationReload (t : Nat) (die : Fin 40) :
    Statement (.stationReload t die) := of_none rfl
theorem portAReset (t : Nat) :
    Statement (.portAReset t) := of_none rfl
theorem portBReset (t : Nat) :
    Statement (.portBReset t) := of_none rfl
theorem jobRestartSignal (t : Nat) :
    Statement (.jobRestartSignal t) := of_none rfl
theorem jobRestartBoundary (t : Nat) :
    Statement (.jobRestartBoundary t) := of_none rfl
theorem heartbeatTimeout (t : Nat) :
    Statement (.heartbeatTimeout t) := of_none rfl
theorem hubSelfFault (t : Nat) (cause : BitVec 8) :
    Statement (.hubSelfFault t cause) := of_none rfl
theorem switch (t : Nat) (port : Port) :
    Statement (.switch t port) := of_none rfl
theorem fenceConfirm (t : Nat) :
    Statement (.fenceConfirm t) := of_none rfl
theorem fenceTimeout (t : Nat) :
    Statement (.fenceTimeout t) := of_none rfl
theorem hubRejoin (t : Nat) :
    Statement (.hubRejoin t) := of_none rfl
theorem serviceCoreFault (t : Nat) (core : Fin 8) (cause : BitVec 2) (mcause : BitVec 64) (mepc : BitVec 64) :
    Statement (.serviceCoreFault t core cause mcause mepc) := of_none rfl
theorem coreHalt (t : Nat) (port : Port) (value : Word) :
    Statement (.coreHalt t port value) := of_none rfl
theorem channelError (t : Nat) (chan : BitVec 16) :
    Statement (.channelError t chan) := of_none rfl
theorem channelRetryResult (t : Nat) (chan : BitVec 16) (ok : Bool) :
    Statement (.channelRetryResult t chan ok) := of_none rfl
theorem channelWindowClose (t : Nat) (chan : BitVec 16) :
    Statement (.channelWindowClose t chan) := of_none rfl
theorem channelRestore (t : Nat) (port : Port) :
    Statement (.channelRestore t port) := of_none rfl
theorem channelRestoreDone (t : Nat) (chan : BitVec 16) (ok : Bool) :
    Statement (.channelRestoreDone t chan ok) := of_none rfl
theorem channelRetire (t : Nat) (port : Port) :
    Statement (.channelRetire t port) := of_none rfl
theorem sramUncorr (t : Nat) (sram : BitVec 8) (idx : Nat) (addr : BitVec 24) :
    Statement (.sramUncorr t sram idx addr) := of_none rfl
theorem oasisClear (t : Nat) (port : Port) (value : Word) :
    Statement (.oasisClear t port value) := of_none rfl
theorem powerLoss (t : Nat) :
    Statement (.powerLoss t) := of_none rfl
theorem streamStart (t : Nat) (port : Port) (str : Fin 16) (value : Word) :
    Statement (.streamStart t port str value) := of_none rfl
theorem streamEnd (t : Nat) (port : Port) (str : Fin 16) (value : Word) :
    Statement (.streamEnd t port str value) := of_none rfl
theorem caravanSend (t : Nat) (str : Fin 16) :
    Statement (.caravanSend t str) := of_none rfl
theorem caravanAck (t : Nat) (str : Fin 16) (session : BitVec 32) (cum : BitVec 64) (cumJ : BitVec 64) (window : BitVec 64) (bitmap : BitVec 256) :
    Statement (.caravanAck t str session cum cumJ window bitmap) := of_none rfl
theorem retransmitTimeout (t : Nat) (str : Fin 16) (csn : Nat) :
    Statement (.retransmitTimeout t str csn) := of_none rfl
theorem streamStall (t : Nat) (str : Fin 16) :
    Statement (.streamStall t str) := of_none rfl
theorem egressFrameRx (t : Nat) (f : RxFrame) :
    Statement (.egressFrameRx t f) := of_none rfl
theorem neighborSolicitation (t : Nat) (target : BitVec 128) :
    Statement (.neighborSolicitation t target) := of_none rfl
theorem subportUp (t : Nat) (sub : Fin 4) :
    Statement (.subportUp t sub) := of_none rfl
theorem portRestart (t : Nat) :
    Statement (.portRestart t) := of_none rfl
theorem grayEnable (t : Nat) (port : Port) (value : Word) :
    Statement (.grayEnable t port value) := of_none rfl
theorem grayDisable (t : Nat) (port : Port) (value : Word) :
    Statement (.grayDisable t port value) := of_none rfl
theorem grayPlace (t : Nat) :
    Statement (.grayPlace t) := of_none rfl
theorem grayRptrWrite (t : Nat) (port : Port) (value : Word) :
    Statement (.grayRptrWrite t port value) := of_none rfl
theorem kxaccAccess (t : Nat) (op : BitVec 2) (off : BitVec 26) (data : Word) :
    Statement (.kxaccAccess t op off data) := of_none rfl
theorem trigPpsEdge (t : Nat) (raw : Nat) :
    Statement (.trigPpsEdge t raw) := of_none rfl
theorem portAFatalError (t : Nat) :
    Statement (.portAFatalError t) := of_none rfl
theorem rollbackReceived (t : Nat) (die : Fin 40) :
    Statement (.rollbackReceived t die) := of_none rfl
theorem snapshotCommandReceived (t : Nat) (die : Fin 40) (id : BitVec 32) :
    Statement (.snapshotCommandReceived t die id) := of_none rfl
theorem syncLinkLoss (t : Nat) (port : Fin 3) :
    Statement (.syncLinkLoss t port) := of_none rfl
theorem egressLinkDown (t : Nat) (sub : Fin 4) :
    Statement (.egressLinkDown t sub) := of_none rfl
theorem standbyHubLoss (t : Nat) :
    Statement (.standbyHubLoss t) := of_none rfl
theorem porstNAssert (t : Nat) :
    Statement (.porstNAssert t) := of_none rfl
theorem vbatPowerOn (t : Nat) :
    Statement (.vbatPowerOn t) := of_none rfl
theorem retentionSupplyLoss (t : Nat) :
    Statement (.retentionSupplyLoss t) := of_none rfl
theorem tdiStateChange (t : Nat) (st : TdiSt) :
    Statement (.tdiStateChange t st) := of_none rfl
theorem noticeResponse (t : Nat) (src : Nat) :
    Statement (.noticeResponse t src) := of_none rfl
theorem sketchStreamBoundary (t : Nat) (die : Fin 40) (sl : Fin 4) :
    Statement (.sketchStreamBoundary t die sl) := of_none rfl
theorem nodePrepareReceived (t : Nat) (at_ : BitVec 64) :
    Statement (.nodePrepareReceived t at_) := of_none rfl
theorem nodeReadyReceived (t : Nat) (dev : BitVec 6) :
    Statement (.nodeReadyReceived t dev) := of_none rfl
theorem nodeGoReceived (t : Nat) (go : Bool) :
    Statement (.nodeGoReceived t go) := of_none rfl
theorem nodeSwapReportReceived (t : Nat) (dev : BitVec 6) (kind : BitVec 2) :
    Statement (.nodeSwapReportReceived t dev kind) := of_none rfl
theorem nodeSnapshotReceived (t : Nat) (at_ : BitVec 64) (id : BitVec 32) :
    Statement (.nodeSnapshotReceived t at_ id) := of_none rfl
theorem nodeQueryReceived (t : Nat) (dev : BitVec 6) (a : QueryArgs) :
    Statement (.nodeQueryReceived t dev a) := of_none rfl
theorem nodeQueryAnswerReceived (t : Nat) (id : Nat) (dev : BitVec 6) (ans : Answer) :
    Statement (.nodeQueryAnswerReceived t id dev ans) := of_none rfl
theorem nodeProgressReceived (t : Nat) (dev : BitVec 6) (wm : BitVec 64) :
    Statement (.nodeProgressReceived t dev wm) := of_none rfl
theorem nodeStepReceived (t : Nat) (at_ : BitVec 64) (ticks : BitVec 64) :
    Statement (.nodeStepReceived t at_ ticks) := of_none rfl

end Sys2Proof.Laws.Sender
end

