-- ==== Sys2Proof/Laws/Shape.lean ====
section
/-!
SUPPORT. The one shape that every command but COLD_RESET has: an effect on the state at its instant, then the end of every command.
-/

namespace Sys2Proof.Machine

/-- A command of the common shape at s. -/
def Shaped (x : Host.Outcome State Fault Refusal) (s : State) : Prop := ∃ t f, x = always t f s

theorem shaped_always (t : Nat) (f : State → State) (s : State) : Shaped (always t f s) s := ⟨t, f, rfl⟩
theorem shaped_onUnit (t : Nat) (f : State → State) (s : State) : Shaped (onUnit t f s) s := shaped_always t _ s
theorem shaped_onHub (t : Nat) (f : State → State) (s : State) : Shaped (onHub t f s) s := shaped_always t _ s
theorem shaped_onStn (t n : Nat) (f : State → State) (s : State) : Shaped (onStn t n f s) s := shaped_always t _ s
theorem shaped_onTap (t n : Nat) (o : TapOp) (s : State) : Shaped (onTap t n o s) s := shaped_onStn t n _ s
theorem shaped_onCmd (t : Nat) (q : CmdRef) (f : State → State) (s : State) : Shaped (onCmd t q f s) s := shaped_onHub t _ s
theorem shaped_onPortB (t : Nat) (f : State → State) (s : State) : Shaped (onPortB t f s) s := shaped_always t _ s
theorem shaped_onWrite (t : Nat) (p : Port) (off : Nat) (f : State → State) (s : State) : Shaped (onWrite t p off f s) s :=
  shaped_always t _ s
theorem shaped_onDoor (t : Nat) (p : Port) (tee : Bool) (c off : Nat) (f : State → State) (s : State) :
    Shaped (onDoor t p tee c off f s) s := shaped_onWrite t p off _ s
theorem shaped_onRead (t : Nat) (p : Port) (off : Nat) (f : State → State × Word) (s : State) : Shaped (onRead t p off f s) s :=
  shaped_always t _ s

/-- Either branch has the shape. -/
theorem shaped_ite {c : Prop} [Decidable c] {x y : Host.Outcome State Fault Refusal} {s : State} (h : Shaped x s) (g : Shaped y s) :
    Shaped (if c then x else y) s := by
  split
  · exact h
  · exact g

/-- Every command but COLD_RESET has the shape. -/
theorem exec_shaped (i : Instr) (s : State) (h : ∀ t a b p, i ≠ .coldReset t a b p) : Shaped (exec i s) s := by
  cases i <;> simp only [exec]
  case eventLineSample => unfold execEventLineSample; exact shaped_onTap _ _ _ _
  case commandIssue => unfold execCommandIssue; exact shaped_onTap _ _ _ _
  case commandRetire => unfold execCommandRetire; exact shaped_onTap _ _ _ _
  case markerBeat => unfold execMarkerBeat; exact shaped_onTap _ _ _ _
  case rptAgeTimeout => unfold execRptAgeTimeout; exact shaped_onTap _ _ _ _
  case markerTimeout => unfold execMarkerTimeout; exact shaped_onTap _ _ _ _
  case markerQueueDrain => unfold execMarkerQueueDrain; exact shaped_onTap _ _ _ _
  case stallHoldRelease => unfold execStallHoldRelease; exact shaped_onTap _ _ _ _
  case stallHoldTimeout => unfold execStallHoldTimeout; exact shaped_onTap _ _ _ _
  case stallRearm => unfold execStallRearm; exact shaped_onTap _ _ _ _
  case flowEvent => unfold execFlowEvent; exact shaped_onTap _ _ _ _
  case tensorTag => unfold execTensorTag; exact shaped_onTap _ _ _ _
  case endTag => unfold execEndTag; exact shaped_onTap _ _ _ _
  case tensorReadComplete => unfold execTensorReadComplete; exact shaped_onStn _ _ _ _
  case tensorReadDeadline => unfold execTensorReadDeadline; exact shaped_onStn _ _ _ _
  case accumIdleTimeout => unfold execAccumIdleTimeout; exact shaped_onTap _ _ _ _
  case dieFreqChange => unfold execDieFreqChange; exact shaped_onTap _ _ _ _
  case curdFlushTimeout => unfold execCurdFlushTimeout; exact shaped_ite (shaped_onTap _ _ _ _) (shaped_onHub _ _ _)
  case gapFlushTimeout => unfold execGapFlushTimeout; exact shaped_ite (shaped_onTap _ _ _ _) (shaped_onHub _ _ _)
  case curdSend => unfold execCurdSend; exact shaped_onStn _ _ _ _
  case poolRequest => unfold execPoolRequest; exact shaped_onHub _ _ _
  case poolBufferFree => unfold execPoolBufferFree; exact shaped_onHub _ _ _
  case curdReceived => unfold execCurdReceived; exact shaped_onHub _ _ _
  case resendRequest => unfold execResendRequest; exact shaped_onStn _ _ _ _
  case journalTake => unfold execJournalTake; exact shaped_onHub _ _ _
  case journalWriteComplete => unfold execJournalWriteComplete; exact shaped_onUnit _ _ _
  case curdDelivery => unfold execCurdDelivery; exact shaped_onHub _ _ _
  case ackReceived => unfold execAckReceived; exact shaped_onStn _ _ _ _
  case retireNotice => unfold execRetireNotice; exact shaped_onStn _ _ _ _
  case resendTimeout => unfold execResendTimeout; exact shaped_onStn _ _ _ _
  case peerConfirm => unfold execPeerConfirm; exact shaped_onHub _ _ _
  case mirrorUpdate => unfold execMirrorUpdate; exact shaped_onHub _ _ _
  case journalCheckpoint => unfold execJournalCheckpoint; exact shaped_onHub _ _ _
  case rebuildComplete => unfold execRebuildComplete; exact shaped_onHub _ _ _
  case journalEnable => unfold execJournalEnable; exact shaped_onWrite _ _ _ _ _
  case sinkPlace => unfold execSinkPlace; exact shaped_onHub _ _ _
  case placementReadback => unfold execPlacementReadback; exact shaped_onHub _ _ _
  case skimWindowEnd => unfold execSkimWindowEnd; exact shaped_onUnit _ _ _
  case skimReport => unfold execSkimReport; exact shaped_onHub _ _ _
  case skimDecision => unfold execSkimDecision; exact shaped_onHub _ _ _
  case fastArm => unfold execFastArm; exact shaped_onHub _ _ _
  case leverApply => unfold execLeverApply; exact shaped_ite (shaped_onStn _ _ _ _) (shaped_onHub _ _ _)
  case leverChangeDelivery => unfold execLeverChangeDelivery; exact shaped_onHub _ _ _
  case timeExchangeRequest => unfold execTimeExchangeRequest; exact shaped_onStn _ _ _ _
  case timeExchangeReply => unfold execTimeExchangeReply; exact shaped_onHub _ _ _
  case timeReplyReceived => unfold execTimeReplyReceived; exact shaped_onStn _ _ _ _
  case servoGroupEnd => unfold execServoGroupEnd; exact shaped_onStn _ _ _ _
  case holdoverTimeout => unfold execHoldoverTimeout; exact shaped_onStn _ _ _ _
  case tsyncPeriodic => unfold execTsyncPeriodic; exact shaped_onStn _ _ _ _
  case refclkLoss => unfold execRefclkLoss; exact shaped_onHub _ _ _
  case refclkReturn => unfold execRefclkReturn; exact shaped_onHub _ _ _
  case ftStepApply => unfold execFtStepApply; exact shaped_onUnit _ _ _
  case ftRead => unfold execFtRead; exact shaped_onRead _ _ _ _ _
  case rtcSecRead => unfold execRtcSecRead; exact shaped_onRead _ _ _ _ _
  case rtcLoad => unfold execRtcLoad; exact shaped_onWrite _ _ _ _ _
  case rtcLoadApply => unfold execRtcLoadApply; exact shaped_onHub _ _ _
  case vbatLow => unfold execVbatLow; exact shaped_always _ _ _
  case autotrimMeasure => unfold execAutotrimMeasure; exact shaped_onHub _ _ _
  case rtcSecondStrobe => unfold execRtcSecondStrobe; exact shaped_always _ _ _
  case ppsEdge => unfold execPpsEdge; exact shaped_onHub _ _ _
  case ppsWindowMiss => unfold execPpsWindowMiss; exact shaped_onHub _ _ _
  case timeSet => unfold execTimeSet; exact shaped_onCmd _ _ _ _
  case timeOfDay => unfold execTimeOfDay; exact shaped_onHub _ _ _
  case ppsOutStart => unfold execPpsOutStart; exact shaped_onHub _ _ _
  case ppsOutEnd => unfold execPpsOutEnd; exact shaped_onHub _ _ _
  case hostAnchor => unfold execHostAnchor; exact shaped_onCmd _ _ _ _
  case hostAnchorMsg => unfold execHostAnchorMsg; exact shaped_onHub _ _ _
  case counterLoRead => unfold execCounterLoRead; exact shaped_onRead _ _ _ _ _
  case counterHiRead => unfold execCounterHiRead; exact shaped_onRead _ _ _ _ _
  case counterHiWrite => unfold execCounterHiWrite; exact shaped_onWrite _ _ _ _ _
  case counterLoWrite => unfold execCounterLoWrite; exact shaped_onWrite _ _ _ _ _
  case periodicCapture => unfold execPeriodicCapture; exact shaped_onTap _ _ _ _
  case aoCapture => unfold execAoCapture; exact shaped_onTap _ _ _ _
  case snapCapture => unfold execSnapCapture; exact shaped_onStn _ _ _ _
  case captureWriteDone => unfold execCaptureWriteDone; exact shaped_onStn _ _ _ _
  case snapshot => unfold execSnapshot; exact shaped_onCmd _ _ _ _
  case snapshotMsg => unfold execSnapshotMsg; exact shaped_onHub _ _ _
  case snapRecordAdmit => unfold execSnapRecordAdmit; exact shaped_onHub _ _ _
  case bwWindowClose => unfold execBwWindowClose; exact shaped_onStn _ _ _ _
  case sequencerTransition => unfold execSequencerTransition; exact shaped_onTap _ _ _ _
  case seqTimerExpiry => unfold execSeqTimerExpiry; exact shaped_onTap _ _ _ _
  case meshEvent => unfold execMeshEvent; exact shaped_onUnit _ _ _
  case meshParityError => unfold execMeshParityError; exact shaped_onHub _ _ _
  case trigger => unfold execTrigger; exact shaped_onCmd _ _ _ _
  case triggerMsg => unfold execTriggerMsg; exact shaped_onHub _ _ _
  case trigInEdge => unfold execTrigInEdge; exact shaped_onUnit _ _ _
  case trigOutPulseEnd => unfold execTrigOutPulseEnd; exact shaped_onHub _ _ _
  case pinFunctionSwitch => unfold execPinFunctionSwitch; exact shaped_onHub _ _ _
  case holdChange => unfold execHoldChange; exact shaped_onUnit _ _ _
  case holdWindowExpiry => unfold execHoldWindowExpiry; exact shaped_onHub _ _ _
  case holdUnlock => unfold execHoldUnlock; exact shaped_onHub _ _ _
  case progressSend => unfold execProgressSend; exact shaped_onStn _ _ _ _
  case progressReceive => unfold execProgressReceive; exact shaped_onHub _ _ _
  case silentTimeout => unfold execSilentTimeout; exact shaped_onHub _ _ _
  case ledgerIngest => unfold execLedgerIngest; exact shaped_onHub _ _ _
  case eventRelease => unfold execEventRelease; exact shaped_onHub _ _ _
  case flowEvict => unfold execFlowEvict; exact shaped_onHub _ _ _
  case ledgerCatchupDone => unfold execLedgerCatchupDone; exact shaped_onHub _ _ _
  case ledgerEnable => unfold execLedgerEnable; exact shaped_onWrite _ _ _ _ _
  case ledgerDisable => unfold execLedgerDisable; exact shaped_onWrite _ _ _ _ _
  case watchArm => unfold execWatchArm; exact shaped_onCmd _ _ _ _
  case watchRemove => unfold execWatchRemove; exact shaped_onCmd _ _ _ _
  case watchEffect => unfold execWatchEffect; exact shaped_onHub _ _ _
  case watchRetire => unfold execWatchRetire; exact shaped_onHub _ _ _
  case exclLock => unfold execExclLock; exact shaped_onWrite _ _ _ _ _
  case tensorWatchEnable => unfold execTensorWatchEnable; exact shaped_onWrite _ _ _ _ _
  case churnEnable => unfold execChurnEnable; exact shaped_onWrite _ _ _ _ _
  case churnIngest => unfold execChurnIngest; exact shaped_onHub _ _ _
  case churnWindowClose => unfold execChurnWindowClose; exact shaped_onHub _ _ _
  case sketchPartial => unfold execSketchPartial; exact shaped_onHub _ _ _
  case partialTimeout => unfold execPartialTimeout; exact shaped_onHub _ _ _
  case detectorWindowClose => unfold execDetectorWindowClose; exact shaped_onHub _ _ _
  case exploadWindowBegin => unfold execExploadWindowBegin; exact shaped_onHub _ _ _
  case exploadWindowClose => unfold execExploadWindowClose; exact shaped_onHub _ _ _
  case query => unfold execQuery; exact shaped_onCmd _ _ _ _
  case queryAnswer => unfold execQueryAnswer; exact shaped_onHub _ _ _
  case queryWaitTimeout => unfold execQueryWaitTimeout; exact shaped_onHub _ _ _
  case nop => unfold execNop; exact shaped_onCmd _ _ _ _
  case abort => unfold execAbort; exact shaped_onCmd _ _ _ _
  case subscribe => unfold execSubscribe; exact shaped_onCmd _ _ _ _
  case unsubscribe => unfold execUnsubscribe; exact shaped_onCmd _ _ _ _
  case ctxOpen => unfold execCtxOpen; exact shaped_onCmd _ _ _ _
  case ctxModify => unfold execCtxModify; exact shaped_onCmd _ _ _ _
  case ctxClose => unfold execCtxClose; exact shaped_onCmd _ _ _ _
  case dbCmd => unfold execDbCmd; exact shaped_onDoor _ _ _ _ _ _ _
  case dbCpl => unfold execDbCpl; exact shaped_onDoor _ _ _ _ _ _ _
  case dbRec => unfold execDbRec; exact shaped_onDoor _ _ _ _ _ _ _
  case descriptorFetch => unfold execDescriptorFetch; exact shaped_onHub _ _ _
  case logWriteComplete => unfold execLogWriteComplete; exact shaped_onHub _ _ _
  case completionSignalTimeout => unfold execCompletionSignalTimeout; exact shaped_onHub _ _ _
  case hostReadError => unfold execHostReadError; exact shaped_onHub _ _ _
  case contextRun => unfold execContextRun; exact shaped_onDoor _ _ _ _ _ _ _
  case contextStop => unfold execContextStop; exact shaped_onDoor _ _ _ _ _ _ _
  case commandLogEnable => unfold execCommandLogEnable; exact shaped_onWrite _ _ _ _ _
  case msixUnmask => unfold execMsixUnmask; exact shaped_onHub _ _ _
  case semRequest => unfold execSemRequest; exact shaped_onWrite _ _ _ _ _
  case semRelease => unfold execSemRelease; exact shaped_onWrite _ _ _ _ _
  case leaseExpiry => unfold execLeaseExpiry; exact shaped_onHub _ _ _
  case rwpWrite => unfold execRwpWrite; exact shaped_onWrite _ _ _ _ _
  case autocommitWrite => unfold execAutocommitWrite; exact shaped_onWrite _ _ _ _ _
  case registerWrite => unfold execRegisterWrite; exact shaped_onWrite _ _ _ _ _
  case planBegin => unfold execPlanBegin; exact shaped_onCmd _ _ _ _
  case planStage => unfold execPlanStage; exact shaped_onCmd _ _ _ _
  case planCommit => unfold execPlanCommit; exact shaped_onCmd _ _ _ _
  case planRollback => unfold execPlanRollback; exact shaped_onCmd _ _ _ _
  case opBegin => unfold execOpBegin; exact shaped_onWrite _ _ _ _ _
  case opCommit => unfold execOpCommit; exact shaped_onWrite _ _ _ _ _
  case opRollback => unfold execOpRollback; exact shaped_onWrite _ _ _ _ _
  case prepareReceived => unfold execPrepareReceived; exact shaped_onHub _ _ _
  case readyReceived => unfold execReadyReceived; exact shaped_onHub _ _ _
  case commitGo => unfold execCommitGo; exact shaped_onHub _ _ _
  case goReceived => unfold execGoReceived; exact shaped_onHub _ _ _
  case stationSwap => unfold execStationSwap; exact shaped_onStn _ _ _ _
  case commitCheck => unfold execCommitCheck; exact shaped_onHub _ _ _
  case rollbackBoundary => unfold execRollbackBoundary; exact shaped_onHub _ _ _
  case regRead => unfold execRegRead; exact shaped_always _ _ _
  case regWrite => unfold execRegWrite; exact shaped_always _ _ _
  case sramRead => unfold execSramRead; exact shaped_onPortB _ _ _
  case sramWrite => unfold execSramWrite; exact shaped_onPortB _ _ _
  case doorbell => unfold execDoorbell; exact shaped_onPortB _ _ _
  case setNotify => unfold execSetNotify; exact shaped_onPortB _ _ _
  case noticeResend => unfold execNoticeResend; exact shaped_onPortB _ _ _
  case mctpControl => unfold execMctpControl; exact shaped_onPortB _ _ _
  case mbxPost => unfold execMbxPost; exact shaped_onWrite _ _ _ _ _
  case mbxAck => unfold execMbxAck; exact shaped_onWrite _ _ _ _ _
  case mbxAckqRead => unfold execMbxAckqRead; exact shaped_onRead _ _ _ _ _
  case ping => unfold execPing; exact shaped_onHub _ _ _
  case fwInfo => unfold execFwInfo; exact shaped_onHub _ _ _
  case fwStage => unfold execFwStage; exact shaped_onHub _ _ _
  case fwActivate => unfold execFwActivate; exact shaped_onHub _ _ _
  case diagRun => unfold execDiagRun; exact shaped_onHub _ _ _
  case oasisDump => unfold execOasisDump; exact shaped_onHub _ _ _
  case console => unfold execConsole; exact shaped_onHub _ _ _
  case keyRegister => unfold execKeyRegister; exact shaped_onCmd _ _ _ _
  case keyRevoke => unfold execKeyRevoke; exact shaped_onCmd _ _ _ _
  case sealPubkey => unfold execSealPubkey; exact shaped_onCmd _ _ _ _
  case disclose => unfold execDisclose; exact shaped_onCmd _ _ _ _
  case tenantAttach => unfold execTenantAttach; exact shaped_onCmd _ _ _ _
  case tenantDetach => unfold execTenantDetach; exact shaped_onCmd _ _ _ _
  case tenantChangeSignal => unfold execTenantChangeSignal; exact shaped_onHub _ _ _
  case scrubStep => unfold execScrubStep; exact shaped_onHub _ _ _
  case sealOpComplete => unfold execSealOpComplete; exact shaped_onHub _ _ _
  case sealPeriod => unfold execSealPeriod; exact shaped_onHub _ _ _
  case syncPortTrained => unfold execSyncPortTrained; exact shaped_onHub _ _ _
  case nodeTimeExchange => unfold execNodeTimeExchange; exact shaped_onHub _ _ _
  case nodeProbe => unfold execNodeProbe; exact shaped_onHub _ _ _
  case nodeStepOrder => unfold execNodeStepOrder; exact shaped_onHub _ _ _
  case trigBlockReceived => unfold execTrigBlockReceived; exact shaped_onHub _ _ _
  case syncReplayRequest => unfold execSyncReplayRequest; exact shaped_onHub _ _ _
  case beaconSend => unfold execBeaconSend; exact shaped_onHub _ _ _
  case beaconReceived => unfold execBeaconReceived; exact shaped_onHub _ _ _
  case beaconTimeout => unfold execBeaconTimeout; exact shaped_onHub _ _ _
  case headClaim => unfold execHeadClaim; exact shaped_onWrite _ _ _ _ _
  case nodeProgress => unfold execNodeProgress; exact shaped_onHub _ _ _
  case recFrameReceived => unfold execRecFrameReceived; exact shaped_onHub _ _ _
  case nodePlace => unfold execNodePlace; exact shaped_onHub _ _ _
  case nodeAckReceived => unfold execNodeAckReceived; exact shaped_onHub _ _ _
  case boundaryReport => unfold execBoundaryReport; exact shaped_onHub _ _ _
  case nodeSnapshot => unfold execNodeSnapshot; exact shaped_onWrite _ _ _ _ _
  case nodeCommit => unfold execNodeCommit; exact shaped_onWrite _ _ _ _ _
  case nodeGoDecision => unfold execNodeGoDecision; exact shaped_onHub _ _ _
  case nodeReportDeadline => unfold execNodeReportDeadline; exact shaped_onHub _ _ _
  case nodeRollback => unfold execNodeRollback; exact shaped_onHub _ _ _
  case nodeQueryTimeout => unfold execNodeQueryTimeout; exact shaped_onHub _ _ _
  case coldReset t a b p => exact absurd rfl (h t a b p)
  case rstN => unfold execRstN; exact shaped_onUnit _ _ _
  case warmrst => unfold execWarmrst; exact shaped_onWrite _ _ _ _ _
  case hubPairResume => unfold execHubPairResume; exact shaped_onUnit _ _ _
  case stationResetEntry => unfold execStationResetEntry; exact shaped_onStn _ _ _ _
  case stationResetExit => unfold execStationResetExit; exact shaped_onUnit _ _ _
  case stationReload => unfold execStationReload; exact shaped_onHub _ _ _
  case portAReset => unfold execPortAReset; exact shaped_onUnit _ _ _
  case portBReset => unfold execPortBReset; exact shaped_onUnit _ _ _
  case jobRestartSignal => unfold execJobRestartSignal; exact shaped_onUnit _ _ _
  case jobRestartBoundary => unfold execJobRestartBoundary; exact shaped_onHub _ _ _
  case heartbeatTimeout => unfold execHeartbeatTimeout; exact shaped_onHub _ _ _
  case hubSelfFault => unfold execHubSelfFault; exact shaped_onHub _ _ _
  case switch => unfold execSwitch; exact shaped_onWrite _ _ _ _ _
  case fenceConfirm => unfold execFenceConfirm; exact shaped_onUnit _ _ _
  case fenceTimeout => unfold execFenceTimeout; exact shaped_onUnit _ _ _
  case hubRejoin => unfold execHubRejoin; exact shaped_onHub _ _ _
  case serviceCoreFault => unfold execServiceCoreFault; exact shaped_onHub _ _ _
  case coreHalt => unfold execCoreHalt; exact shaped_ite (shaped_onUnit _ _ _) (shaped_onWrite _ _ _ _ _)
  case channelError => unfold execChannelError; exact shaped_onHub _ _ _
  case channelRetryResult => unfold execChannelRetryResult; exact shaped_onHub _ _ _
  case channelWindowClose => unfold execChannelWindowClose; exact shaped_onHub _ _ _
  case channelRestore => unfold execChannelRestore; exact shaped_onWrite _ _ _ _ _
  case channelRestoreDone => unfold execChannelRestoreDone; exact shaped_onHub _ _ _
  case channelRetire => unfold execChannelRetire; exact shaped_onWrite _ _ _ _ _
  case sramUncorr => unfold execSramUncorr; exact shaped_ite (shaped_onStn _ _ _ _) (shaped_onHub _ _ _)
  case oasisClear => unfold execOasisClear; exact shaped_onWrite _ _ _ _ _
  case powerLoss => unfold execPowerLoss; exact shaped_always _ _ _
  case streamStart => unfold execStreamStart; exact shaped_onWrite _ _ _ _ _
  case streamEnd => unfold execStreamEnd; exact shaped_onWrite _ _ _ _ _
  case caravanSend => unfold execCaravanSend; exact shaped_onHub _ _ _
  case caravanAck => unfold execCaravanAck; exact shaped_onHub _ _ _
  case retransmitTimeout => unfold execRetransmitTimeout; exact shaped_onHub _ _ _
  case streamStall => unfold execStreamStall; exact shaped_onHub _ _ _
  case egressFrameRx => unfold execEgressFrameRx; exact shaped_onHub _ _ _
  case neighborSolicitation => unfold execNeighborSolicitation; exact shaped_onHub _ _ _
  case subportUp => unfold execSubportUp; exact shaped_onHub _ _ _
  case portRestart => unfold execPortRestart; exact shaped_onHub _ _ _
  case grayEnable => unfold execGrayEnable; exact shaped_onWrite _ _ _ _ _
  case grayDisable => unfold execGrayDisable; exact shaped_onWrite _ _ _ _ _
  case grayPlace => unfold execGrayPlace; exact shaped_onHub _ _ _
  case grayRptrWrite => unfold execGrayRptrWrite; exact shaped_onWrite _ _ _ _ _
  case kxaccAccess => unfold execKxaccAccess; exact shaped_onUnit _ _ _
  case trigPpsEdge => unfold execTrigPpsEdge; exact shaped_onHub _ _ _
  case portAFatalError => unfold execPortAFatalError; exact shaped_onUnit _ _ _
  case rollbackReceived => unfold execRollbackReceived; exact shaped_onHub _ _ _
  case snapshotCommandReceived => unfold execSnapshotCommandReceived; exact shaped_onStn _ _ _ _
  case syncLinkLoss => unfold execSyncLinkLoss; exact shaped_onHub _ _ _
  case egressLinkDown => unfold execEgressLinkDown; exact shaped_onHub _ _ _
  case standbyHubLoss => unfold execStandbyHubLoss; exact shaped_onHub _ _ _
  case porstNAssert => unfold execPorstNAssert; exact shaped_onUnit _ _ _
  case vbatPowerOn => unfold execVbatPowerOn; exact shaped_always _ _ _
  case retentionSupplyLoss => unfold execRetentionSupplyLoss; exact shaped_always _ _ _
  case tdiStateChange => unfold execTdiStateChange; exact shaped_onUnit _ _ _
  case noticeResponse => unfold execNoticeResponse; exact shaped_onPortB _ _ _
  case sketchStreamBoundary => unfold execSketchStreamBoundary; exact shaped_onStn _ _ _ _
  case nodePrepareReceived => unfold execNodePrepareReceived; exact shaped_onHub _ _ _
  case nodeReadyReceived => unfold execNodeReadyReceived; exact shaped_onHub _ _ _
  case nodeGoReceived => unfold execNodeGoReceived; exact shaped_onHub _ _ _
  case nodeSwapReportReceived => unfold execNodeSwapReportReceived; exact shaped_onHub _ _ _
  case nodeSnapshotReceived => unfold execNodeSnapshotReceived; exact shaped_onHub _ _ _
  case nodeQueryReceived => unfold execNodeQueryReceived; exact shaped_onHub _ _ _
  case nodeQueryAnswerReceived => unfold execNodeQueryAnswerReceived; exact shaped_onHub _ _ _
  case nodeProgressReceived => unfold execNodeProgressReceived; exact shaped_onHub _ _ _
  case nodeStepReceived => unfold execNodeStepReceived; exact shaped_onHub _ _ _

end Sys2Proof.Machine
end

