-- ==== Sys2Proof/Tests/Slice0.lean ====
section
/-!
SUPPORT. Small checks of the model: ill-formed terms that the check refuses, the readings of a word by the table's bits, and for every
statement with hypotheses states and operands that meet them.
-/

open Sys2Proof Sys2Proof.Machine Sys2Proof.Safety

set_option maxRecDepth 20000

namespace Sys2Proof.Tests

/-! ## Terms that the check refuses, one for each check, and terms it accepts -/

theorem test_wf_context : (Instr.nop 0 { ctx := 4096 }).wf = false ∧ (Instr.nop 0 { ctx := 4095 }).wf = true := by decide
theorem test_wf_seq : (Instr.nop 0 { seq := 2 ^ 64 }).wf = false ∧ (Instr.nop 0 { seq := 2 ^ 64 - 1 }).wf = true := by decide
theorem test_wf_descriptor : (Instr.descriptorFetch 0 20 [1, 2, 3]).wf = false ∧
    (Instr.descriptorFetch 0 20 (List.replicate 16 0)).wf = true := by decide
theorem test_wf_logged_seq : (Instr.logWriteComplete 0 20 (2 ^ 64) none).wf = false ∧
    (Instr.logWriteComplete 0 20 (2 ^ 64 - 1) none).wf = true := by decide
theorem test_wf_read_data (l : List Byte) (h : l.length = 65536) : (Instr.tensorReadComplete 0 3 0 l).wf = false := by
  simp [Instr.wf, h]
theorem test_wf_pool : (Instr.poolRequest 0 [3, 3]).wf = false ∧ (Instr.poolRequest 0 [3, 4]).wf = true := by decide
theorem test_wf_sink : (Instr.sinkPlace 0 (.ring 4096 0)).wf = false ∧ (Instr.sinkPlace 0 (.ring 0 8)).wf = false ∧
    (Instr.sinkPlace 0 (.stream 16)).wf = false ∧ (Instr.sinkPlace 0 (.ring 4095 7)).wf = true := by decide
theorem test_wf_leg : (Instr.meshParityError 0 42).wf = false ∧ (Instr.meshParityError 0 41).wf = true := by decide
theorem test_wf_query : (Instr.query 0 {} { qs := List.replicate 9 0 }).wf = false ∧
    (Instr.query 0 {} { qs := List.replicate 8 0 }).wf = true := by decide
theorem test_wf_lanes : (Instr.rwpWrite 0 .a 0 4 0x10 0).wf = false ∧ (Instr.registerWrite 0 .a false 0 0 0 0).wf = false ∧
    (Instr.rwpWrite 0 .a 0 8 0xF0 0).wf = true := by decide
theorem test_wf_inline : (Instr.planStage 0 {} (List.replicate 5 (0, 0)) none).wf = false ∧
    (Instr.planStage 0 {} (List.replicate 4 (0, 0)) none).wf = true := by decide
theorem test_wf_list (l : List (Word × Word)) (h : l.length = 65536) : (Instr.planStage 0 {} [] (some l)).wf = false := by
  simp [Instr.wf, listOk, h]
theorem test_wf_beacon : (Instr.beaconReceived 0 0 { dev := 64 }).wf = false ∧ (Instr.beaconReceived 0 0 { dev := 63 }).wf = true := by
  decide
theorem test_wf_unit : (Instr.recFrameReceived 0 0 (.curd 0 { unit := 48 })).wf = false ∧
    (Instr.recFrameReceived 0 0 (.curd 0 { unit := 47 })).wf = true ∧ (Instr.recFrameReceived 0 0 (.lapped 1 0)).wf = false := by decide
theorem test_wf_kxacc : (Instr.kxaccAccess 0 0 2 0).wf = false ∧ (Instr.kxaccAccess 0 0 4 0).wf = true := by decide

/-- No row of the operations table has bits. -/
theorem test_no_word : decodeTableWord 0 0 = none := rfl

/-! ## States to start from -/

/-- A unit in operation: supplied, cold start done, the standby present, and no record yet. -/
def ready : State :=
  { State.reset with pair := { power := .on, ready := true, stbyOk := true } }

/-- The same with a journal that runs. -/
def logging : State := ready.wr Kx.hubJrnCfg 0x80001001

/-- The same with station 3 out of reset, LOCKED and offering records. -/
def offers (st : Stn) : State := logging.setStn 3 { st with inReset := false, offering := true, reload := true }

/-- The same with context 20 running. -/
def running (x : CtxS) : State := logging.modCtx 20 fun _ => { x with st := csRunning }

/-- Port A's register path holds the lease for a long time. -/
def leased (s : State) : State := { s with lease := { kind := okPortA, ends := 10 ^ 12 } }

/-- A device of index 2 whose EAST port hears device 5. -/
def nodeWith (n : Node) : State :=
  let s := ((((logging.wr Kx.synId 0xC0000002).wr (Kx.synPcfg 0) 0x80000000).wr Kx.synAgg 0x80401402).wr Kx.synSubcfg 0x80000000).wr
    (Kx.hubTrigCfg 4) 0x10000000
  { s with
    ctxs := [(20, { st := csRunning })], lease := { kind := okPortA, ends := 10 ^ 12, len := 100 }
    node := { n with
      ports := [(0, { st := spUp, peer := some 5 })], nfeat := 0xF
      devs := if n.devs.isEmpty then [(5, { b := { dev := 5, head := n.head }, at_ := 10, routes := [(0, (1, 10))] })] else n.devs } }

/-- Context 20 with a completion ring at 0x1000, in hub SRAM or in host memory, 17 completions posted and consumed. -/
def ringed (loc : Bool) : State := (running { ringloc := loc, cplPi := 17, cplCi := 17 }).wr (Kx.ctxCplBaseLo 20) 0x1000


/-! ## StepRunsFront -/

theorem wit_StepRunsFront : ∃ rest, ({ ready with pending := [.jobRestartSignal 5] } : State).pending = .jobRestartSignal 5 :: rest :=
  ⟨[], rfl⟩

/-! ## QueueKept -/

theorem wit_QueueKept : ∃ r, step { ready with pending := [.jobRestartSignal 5] } = .next r := ⟨_, rfl⟩

/-! ## SoundKept -/

theorem wit_SoundKept : ∃ r, Sound State.reset ∧ step State.reset = .next r :=
  ⟨State.reset, ⟨by decide, by intro c h; exact absurd h (List.not_mem_nil), by decide⟩, rfl⟩

/-! ## TimeRunsOn -/

theorem wit_TimeRunsOn : ∃ r, exec (.fenceTimeout 20) ready = .next r ∧ (∀ t a b p, Instr.fenceTimeout 20 ≠ .coldReset t a b p) :=
  ⟨_, rfl, fun _ _ _ _ h => by cases h⟩

/-! ## TapObservation -/

theorem wit_TapObservation : let u := (offers { issue := [(80, 0x10, 7)] }).advance 9
    u.stnOn 3 = true ∧ quiet u 3 = true ∧ alone u 3 = true ∧ u.rb (Kx.stnPcsCfg 3) 31 = false ∧
    u.rb (Kx.stnSkcfg 3 (u.anSlice 3 5)) 31 = false ∧ u.isPortTap 3 5 = false ∧
    (u.stn 3).issue.find? (fun x => x.1 == 16 * 5 + (0x10 : BitVec 32).toNat % 16) = some (80, 0x10, 7) ∧
    (u.stn 3).issue.find? (fun x => x.1 == 16 * 4 + (0x10 : BitVec 32).toNat % 16) = none := by decide

/-! ## MarkerPath -/

def queued : QEnt := { slice := 1, seq := 0, beats := [7], left := 0 }
def markState : State := offers { queue := [queued], disarm := [(0, 0), (95, 7)], cur := some { recs := [{}] } }
def beatState : State := (offers {}).wr (Kx.stnMkSrc 3 0) 0x8C000000
def runState : State := offers { lastTry := 8000000, refs := [(7, { run := some {} })], mkIn := [{ tap := 5, seq := some 4 }] }
theorem wit_MarkerPath : (let u := beatState.advance 20
    u.stnOn 3 = true ∧ quiet u 3 = true ∧ alone u 3 = true ∧ clear u 3 = true ∧ u.held 3 5 false = none ∧ (u.stn 3).mkIn = [] ∧
    u.mkEntry 3 5 0 true = some 0 ∧ u.rb (Kx.stnMkSrc 3 0) 30 = false ∧ u.rb (Kx.stnMkSrc 3 0) 29 = false ∧
    u.rb (Kx.stnMkSrc 3 0) 28 = false ∧ mkXb 7 = 0 ∧ u.queueFits 3 (u.sliceOf 3 5) 1 = true) ∧
    (let u := markState.advance 20
    u.stnOn 3 = true ∧ quiet u 3 = true ∧ alone u 3 = true ∧ (u.stn 3).queue = [queued] ∧ (u.stn 3).cur = some { recs := [{}] } ∧
    (0, 0) ∈ (u.stn 3).disarm ∧ u.queueFits 3 0 4 = true) := by decide
theorem wit_MarkerPath_times : let u := runState.advance 10000000
    u.stnOn 3 = true ∧ quiet u 3 = true ∧ alone u 3 = true ∧ clear u 3 = true ∧ u.mkRef 3 7 = some { run := some {} } ∧
    0 + clamp1 100000 (u.rf (Kx.stnMkCfg 3) 19 0) * usT ≤ u.stnFt 3 ∧ (u.stn 3).mkIn = [{ tap := 5, seq := some 4 }] ∧
    0 + 48 ≤ u.stnFt 3 := by decide

/-! ## FlowHolds -/

def flowState : State := (offers {}).wr (Kx.stnFlEn 3) 0x20
def holdState (flow : Bool) : State := offers { holds := [{ tap := 5, flow := flow, since := 4 }] }
theorem wit_FlowHolds : (let u := flowState.advance 20
    u.stnOn 3 = true ∧ quiet u 3 = true ∧ alone u 3 = true ∧ clear u 3 = true ∧ u.held 3 5 true = none ∧
    (u.rd (Kx.stnFlEn 3)).getLsbD 5 = true ∧ privPass (u.rf (Kx.stnFlCfg 3) 1 0) true = true ∧
    (u.rd (Kx.stnFlStall 3)).getLsbD 5 = false ∧ u.flowsAt 3 (u.sliceOf 3 5) (u.stnFt 3) = 0) ∧
    ∀ flow : Bool, let u := (holdState flow).advance 80004
      u.stnOn 3 = true ∧ quiet u 3 = true ∧ alone u 3 = true ∧ u.held 3 5 flow = some { tap := 5, flow := flow, since := 4 } ∧
      u.flowsAt 3 (u.sliceOf 3 5) (u.stnFt 3) < 2 ∧ u.queueFits 3 (u.sliceOf 3 5) (1 + mkXb 0) = true ∧ 4 + 10 * usT ≤ u.stnFt 3 := by
  decide

/-! ## TensorTags -/

def statWatch : Watch := { args := { tid := 9, fmt := 4, dieMask := 8, master := 32, explo := 0 } }
def tensorState (st : Stn) : State :=
  { ((offers { st with armed := [2] }).wr (Kx.stnTwCfg 3) 0x8000000A).wr Kx.hubTwCfg 0x80000000 with watches := [(2, statWatch)] }
def openOne : Accum := { id := 4, wid := 2, step := 0, contrib := [(5, false)] }
def readOne (issue : Nat) : Burst := { id := 7, accs := [(4, false)], len := 2, issueAt := issue }
theorem wit_TensorTags : (let u := (tensorState {}).advance 20
    u.stnOn 3 = true ∧ quiet u 3 = true ∧ alone u 3 = true ∧ u.watch 2 = some statWatch ∧ statWatch.args.capture = false ∧
    statWatch.args.values = false ∧ (u.stn 3).armed = [2] ∧ (u.stn 3).accs = [] ∧ (u.stn 3).bursts = [] ∧ (u.stn 3).defer = false ∧
    statWatch.args.dieMask.getLsbD 3 = true ∧ statWatch.args.master.getLsbD 5 = true ∧ watchTid statWatch.args 9 = some false ∧
    stepMatch statWatch.args 0 = true ∧ statWatch.args.count = 0 ∧ u.rb (Kx.stnTwCfg 3) 31 = true ∧ u.rb Kx.hubTwCfg 31 = true ∧
    u.excluded 0x100 32 = false) ∧
    (let u := (tensorState { accs := [openOne] }).advance 80000
    u.stnOn 3 = true ∧ quiet u 3 = true ∧ alone u 3 = true ∧ clear u 3 = true ∧ u.watch 2 = some statWatch ∧ (u.stn 3).armed = [2] ∧
    (u.stn 3).accs = [openOne] ∧ (u.stn 3).bursts = [] ∧ openOne.cause = none ∧ openOne.recs = [] ∧ openOne.lastc = none ∧
    openOne.last + clampN 10 1000000 (u.rf (Kx.stnTwCfg 3) 19 0) * usT ≤ u.stnFt 3) ∧
    (let u := (tensorState { accs := [openOne], bursts := [readOne 0] }).advance 80000
    u.stnOn 3 = true ∧ quiet u 3 = true ∧ alone u 3 = true ∧ u.watch 2 = some statWatch ∧ (u.stn 3).accs = [openOne] ∧
    (u.stn 3).bursts = [readOne 0] ∧ (readOne 0).segs = [] ∧ 0 ≤ 0 + usT ∧ 0 ≤ u.stnFt 3) ∧
    (let u := (tensorState { accs := [openOne], bursts := [readOne 90000] }).advance 80000
    u.stnOn 3 = true ∧ quiet u 3 = true ∧ alone u 3 = true ∧ u.watch 2 = some statWatch ∧ (u.stn 3).accs = [openOne] ∧
    (u.stn 3).bursts = [readOne 90000] ∧ 0 + usT < 90000 ∧ 0 + usT ≤ u.stnFt 3) := by decide

/-! ## StationLink -/

def linkState : State :=
  let s := offers { cur := some { unit := 3 }, gaps := [{ count := 6 }], closed := [{ sentAt := 5 }] }
  { (s.modSrc 2 fun x => { x with cur := some { unit := 42 } }).modSrc 3 fun x => { x with gaps := [{}] } with
    jrn := { s.jrn with grants := [(3, 1)], reqs := [(3, 1)] } }
def sentState : State :=
  let s := offers { closed := [{ st := .sent }] }
  { s with jrn := { s.jrn with recv := [(6, 1)], retired := [(3, false, 0)] } }
theorem wit_StationLink : (let u := linkState.advance 400000
    u.stnOn 3 = true ∧ u.hubOn = true ∧ quiet u 3 = true ∧ alone u 3 = true ∧ (u.stn 3).cur = some { unit := 3 } ∧ (u.stn 3).rsv = none ∧
    (u.stn 3).rsvOk = true ∧ 0 + u.flush 3 ≤ u.stnFt 3 ∧ (u.stn 3).gaps = [{ count := 6 }] ∧ (u.stn 3).closed = [{ sentAt := 5 }] ∧
    u.linkBusy 3 = false ∧ Curd.written {} = true ∧ 0 < sgetD u.jrn.grants 3 0 ∧ u.isolated 3 = false ∧
    (u.stn 3).reqs < sgetD u.jrn.reqs 3 0 ∧ (u.src 2).cur = some { unit := 42 } ∧ 0 + u.flushMax ≤ u.now ∧ (u.src 3).gaps = [{}] ∧
    (u.src 3).cur = none ∧ (u.src 3).full.length < 2) ∧
    (let u := sentState.advance 400000
    u.stnOn 3 = true ∧ (u.stn 3).closed = [{ st := .sent }] ∧ isCurd false 0 { st := .sent } = true ∧ 0 + 20 * usT ≤ u.now ∧
    u.accepted 3 false 0 = true ∧ (u.stn 3).gaps = [] ∧ (u.stn 3).rsvWait = [] ∧ (3, false, 0) ∈ u.jrn.retired) := by decide

/-! ## CounterAccess -/

def countState (st : Stn) : State := leased (offers { st with cnt := [(7, 2 ^ 32 + 5)], latchB := some (7, 3), stageA := [(7, 9)] })
theorem wit_CounterAccess : (let u := (countState {}).advance 20
    u.hubOn = true ∧ u.reach 3 = true ∧ (u.stn 3).latch .b = some (7, 3) ∧ (u.stn 3).latch .a = none ∧ u.holdsLease .a = true ∧
    (u.stn 3).inAt ≠ u.stnFt 3 ∧ (u.captureNext 3).isNone = true ∧ (u.stn 3).pend = []) ∧
    (let u := (countState { inAt := 20, incs := [(7, 5)] }).advance 20
    u.hubOn = true ∧ u.reach 3 = true ∧ u.holdsLease .a = true ∧ (u.stn 3).inAt = u.stnFt 3 ∧
    (u.stn 3).loads.find? (fun x => x.1 == 7) = none ∧ sgetD (u.stn 3).incs 7 0 ≤ (u.stn 3).counter 7 ∧ (u.stn 3).counter 7 < 2 ^ 48) := by
  decide

/-! ## Captures -/

def periodicState : State := (offers { inAt := 3, lastTry := 8000000, lastCap := 8000000 }).wr (Kx.stnCntCfg 3) 0x80000004
def aoState : State := offers { inAt := 3 }
def snapState : State := { offers { inAt := 3, snaps := [(5, 400)] } with snaps := [{ id := 5, t := 400 }] }
theorem wit_Captures_due : (let u := periodicState.advance 9000000
    u.stnOn 3 = true ∧ (u.window 3).isNone = true ∧ (u.stn 3).inAt ≠ u.stnFt 3 ∧ (u.stn 3).offering = true ∧ (u.stn 3).banks.length < 5 ∧
    (u.stn 3).lastTry ≤ 8992000 ∧ (u.stn 3).lastCap ≤ 8992000 ∧ (u.captureDue 3).1 = some 8992000 ∧ (u.captureDue 3).2.1 = none ∧ (u.captureDue 3).2.2 = none) ∧
    (let u := aoState.advance 9000000
    u.stnOn 3 = true ∧ (u.window 3).isNone = true ∧ (u.stn 3).inAt ≠ u.stnFt 3 ∧ (u.stn 3).offering = true ∧ (u.stn 3).banks.length < 5 ∧
    (u.stn 3).lastTry ≤ 8000000 ∧ (u.stn 3).lastCap ≤ 8000000 ∧ (u.captureDue 3).1 = none ∧ (u.captureDue 3).2.1 = some 8000000 ∧ (u.captureDue 3).2.2 = none) ∧
    (let u := snapState.advance 800
    u.stnOn 3 = true ∧ (u.window 3).isNone = true ∧ (u.stn 3).inAt ≠ u.stnFt 3 ∧ (u.stn 3).offering = true ∧ (u.stn 3).banks.length < 5 ∧
    (u.stn 3).lastTry ≤ 400 ∧ (u.stn 3).lastCap ≤ 400 ∧ (u.captureDue 3).1 = none ∧ (u.captureDue 3).2.1 = none ∧ (u.captureDue 3).2.2 = some (5, 400) ∧ (u.stn 3).snaps = [(5, 400)]) := by
  decide
def captureState : State :=
  let s := (offers {}).wr (Kx.stnBwcfg 3 3) 0x80000001
  { s with snaps := [{ id := 5, t := 400, asker := some (20, 6, false) }], ctxs := [(20, { st := csRunning })] }
def bankState : State := { offers { banks := [{ at_ := 7 }] } with snaps := [{ id := 5, t := 9 * 10 ^ 6 }] }
def operator (s : State) : State := { s with ctxs := [(20, { st := csRunning })] }
theorem wit_Captures : (let u := captureState.advance 9000000
    u.stnOn 3 = true ∧ u.hubOn = true ∧ (u.snaps.find? (fun y => y.id == 5)).map (·.t) = some 400 ∧ 400 < u.stnFt 3 ∧ clear u 3 = true ∧
    u.rb (Kx.stnBwcfg 3 3) 31 = true ∧ sgetD (u.stn 3).bwAt 3 0 < gridAt (u.bwWin 3 3) (u.stnFt 3) ∧ (u.stn 3).pend = [] ∧
    u.slicePorts 3 3 ≠ [] ∧ 400 + 20 * usT ≤ u.now ∧ 400 < u.now ∧ waits u = true ∧ canPost u 20 = true) ∧
    (let u := (operator bankState).advance 20
    u.stnOn 3 = true ∧ u.hubOn = true ∧ (u.stn 3).banks = [{ at_ := 7 }] ∧
    (u.snaps.find? (fun y => y.id == 5)).map (·.t) = some 9000000 ∧ ¬ 9000000 < u.stnFt 3 ∧
    u.now + 4 * usT ≤ 40000 ∧ (u.snaps.all fun y => decide (40000 + 4 * usT ≤ y.t ∨ y.t + 4 * usT ≤ 40000)) = true ∧
    (u.ctx 20).st ≠ csClosed ∧ u.isOper 20 = true ∧ canPost u 20 = true ∧ 30000 < u.now + 4 * usT) := by decide

/-! ## Servo -/

def servoState (v : Servo) : State := offers { servo := v }
def grouped (stepped : Bool) : Servo :=
  { st := svAcquire, t1 := some 5, t23 := some (9, 11), group := [(4, 1, 2)], near := 63, stepped := stepped, slot := 3 }
theorem wit_Servo : (∀ b : Bool, let u := (servoState (grouped b)).advance 9000000
    u.stnOn 3 = true ∧ (u.stn 3).servo.t1 = some 5 ∧ (u.stn 3).servo.t23 = some (9, 11) ∧ 5 / groupTicks = (u.stn 3).servo.grp ∧
    (u.stn 3).servo.slot ≠ u.stnFt 3 / slotTicks + 1 ∧ u.stnFt 3 / groupTicks ≠ (u.stn 3).servo.grp ∧
    (u.stn 3).servo.group = [(4, 1, 2)] ∧ (u.stn 3).servo.st = svAcquire ∧ (u.stn 3).servo.stepped = b ∧ 63 ≤ (u.stn 3).servo.near ∧
    clear u 3 = true ∧ (u.stn 3).tsyncAt + msT ≤ u.stnFt 3 ∧ u.hubOn = true ∧ u.reach 3 = true ∧ u.clk.lostAt = none) ∧
    (let u := (servoState { st := svHoldover }).advance 9000000
     u.stnOn 3 = true ∧ (u.stn 3).servo.since + msT ≤ u.stnFt 3) ∧
    (let u := (servoState { st := svLocked }).advance 9000000
     u.stnOn 3 = true ∧ (u.stn 3).servo.group = [] ∧ u.stnFt 3 / groupTicks ≠ (u.stn 3).servo.grp) ∧
    (let u := ({ servoState {} with clk := { lostAt := some 3, now := 7, steps := [(4, 8)] } } : State).advance 20
     u.isOn = true ∧ u.hubOn = true ∧ u.clk.lostAt.isSome = true ∧ u.clk.steps = [(4, 8)] ∧ 4 ≤ u.now) := by decide

/-! ## JournalPath -/

def hubState (full : Bool) : State :=
  let s := ((offers { link := [({ unit := 3 }, 0)] }).wr Kx.skmHbmbw 0x20).modSrc 2 fun x => { x with wait := [{}] }
  { s with jrn := { s.jrn with tok := bucketTop, accTo := 1, delivTo := if full then 0 else 7, jobs := [{ jidx := 5 }]
                               grants := if full then [(9, 510)] else [],
                               pool := [if full then { req := 3 } else { req := 3, jidx := some 0, accAt := some 0 }] } }
theorem wit_JournalPath : (∀ b : Bool, let u := (hubState b).advance 400000
    u.hubOn = true ∧ (u.stn 3).link = [({ unit := 3 }, 0)] ∧ sget u.jrn.crcHold 3 = none ∧ u.isDup 3 { unit := 3 } = false ∧
    sget u.jrn.expect 3 = none ∧ u.jrn.held = [] ∧ u.jrn.wait = [] ∧ u.canRequest 3 = true ∧ sgetD u.jrn.grants 3 0 < 2 ∧
    u.jrn.jobs.find? (fun x => x.jidx == 5) = some { jidx := 5 } ∧ u.jrnCopies = true ∧ (u.src 2).wait = [{}] ∧
    (u.src 2).gaps = [] ∧ u.pair.stbyOk = true) ∧
    (let u := (hubState true).advance 400000
    u.poolFree = 0 ∧ u.jrn.pool = [{ req := 3 }] ∧ u.jrnOn = true ∧ curdCharge ≤ u.tokNow ∧ u.budgetRate ≠ 0 ∧ u.jrn.holes = [] ∧
    u.jrn.widx < u.nslot ∧ u.sealOn 3 = false ∧ u.inTurn { req := 3 } = true ∧ 0 = u.jrn.delivTo ∧ 0 < u.jrn.accTo) ∧
    (let u := (hubState false).advance 400000
    0 < u.poolFree ∧ u.jrn.pool = [{ req := 3, jidx := some 0, accAt := some 0 }] ∧
    u.entryDone { req := 3, jidx := some 0, accAt := some 0 } = true) := by decide
theorem wit_JournalPath_enable : let u := (leased ready).advance 20
    u.hubOn = true ∧ u.jrnOn = false ∧ u.holdsLease .a = true ∧ regionsOk (u.jrnRegions (0x80001001 &&& 0xC0FFF07F)) = false ∧
    regionsOk ((u.wr (Kx.hubJrnBaseHi 1) 1).jrnRegions (0x80001001 &&& 0xC0FFF07F)) = true := by decide

/-! ## SinksAndSkim -/

def sinkState : State :=
  let s := ((offers { offerDone := some { cnt := 4 }, levs := [{ lever := 2, new := 3 }] }).wr (Kx.ctxRecCfg 20 2) 0x80000000).wr Kx.skmHbmbw 0x2000
  { s with ctxs := [(20, { st := csRunning })], subs := [{ sink := .ring 20 2, args := { units := 8, types := 0xFFFFFFFF }, next := 3 }]
           srcs := [(2, { offerDone := some { hub := 4 }, levs := [{ lever := 7, new := 3 }] })]
           jrn := { s.jrn with delivTo := 4, mem := [(3, { unit := 3, recs := [{ ty := .cnt }] })], fastAt := some 0, tokAt := 89000, pool := [{ req := 3 }], wait := [3] }
           skim := { pend := [(3, { lever := 1, new := 2 })], reports := [(3, {})], nextPace := some true } }
def memberState : State :=
  let s := (sinkState.wr Kx.synId 0x80000009).wr Kx.synSubcfg 0x80000000
  { s with node := { nfeat := 8, head := some 1 }, subs := [{ sink := .node, args := { units := 8, types := 0xFFFFFFFF }, next := 3 }] }
theorem wit_SinksAndSkim : (let u := sinkState.advance 89000
    u.hubOn = true ∧ u.stnOn 3 = true ∧ u.ringOpen 20 2 = true ∧ u.mayPlace 20 = true ∧ (u.ring 20 2).due = [] ∧
    (u.subOf (.ring 20 2)).map (fun x => (x.next, x.lap)) = some (3, none) ∧ 3 < u.jrn.delivTo ∧
    (u.jrn.mem.find? (fun e => e.1 == 3)).map (·.1) = some 3 ∧
    ((u.subOf (.ring 20 2)).map fun x => (u.selectCurd (u.viewer 20) x.args { unit := 3, recs := [{ ty := .cnt }] }).isSome) = some true ∧
    u.nodeRing = none ∧ (u.ring 20 2).readAt.any (fun a => u.now < a + usT) = false ∧ u.reach 3 = true ∧ u.budgetRate ≠ 0 ∧
    u.jrnOn = true ∧ u.skim.endW ≠ u.now / skimWin ∧ u.skim.window < u.now / skimWin ∧ u.now / skimWin * skimWin + usT ≤ u.now ∧
    u.skim.reports ≠ [] ∧ u.jrn.fastAt.any (fun a => a + usT ≤ u.now) = true ∧ u.skim.pacing = false ∧ u.curdWaits = true ∧
    u.tokNow < curdCharge ∧ u.canHear 3 = true ∧ (u.stn 3).offerDone = some { cnt := 4 } ∧ (u.src 2).offerDone = some { hub := 4 } ∧
    (u.stn 3).levs = [{ lever := 2, new := 3 }] ∧ (u.src 2).levs = [{ lever := 7, new := 3 }] ∧
    u.skim.pend = [(3, { lever := 1, new := 2 })] ∧ u.skim.nextPace = some true) ∧
    (let u := ({ sinkState with skim := {} } : State).advance 79000
    u.isOn = true ∧ u.skim.endW = u.now / skimWin ∧ u.skim.nextPace = none) ∧
    (let u := memberState.advance 89000
    u.nodeSends = true ∧ u.node.isHead = false ∧ u.node.plandiff = false ∧
    (u.subOf .node).map (fun x => (x.next, x.lap)) = some (3, none) ∧
    ((u.subOf .node).map fun x => (u.selectCurd {} x.args { unit := 3, recs := [{ ty := .cnt }] }).isSome) = some true) := by decide

/-! ## Calendar -/

def ppsState (pps : Pps) : State :=
  let s := ((leased logging).wr Kx.rtcCtl 0x16).wr Kx.timPpsCfg 0x64800001
  { s with clk := { s.clk with pps := pps, ppsOut := some 3 }, pins := [(2, { func := 3 })], ctxs := [(20, { st := csRunning })] }
theorem wit_Calendar : (let u := (ppsState { last := some 9, good := 1, lock := true }).advance 1600000009
    u.hubOn = true ∧ u.holdsLease .a = true ∧ u.rb Kx.rtcCtl 1 = true ∧ u.softBit Kx.rtcCtl 1 = false ∧
    u.rb Kx.timPpsCfg 1 = false ∧ u.rb Kx.timPpsCfg 0 = true ∧ u.clk.pps.last = some 9 ∧ u.ppsPin.isSome = true ∧
    u.clk.pps2.last = none ∧ canPost u 20 = true ∧ u.isOper 20 = true ∧ u.rb Kx.timPpsCfg 23 = true ∧ u.clk.ppsOut = some 3 ∧
    3 + clampN 1 200 (u.rf Kx.timPpsCfg 31 24) * msT ≤ u.now) ∧
    (let u := ({ leased ready with regs := [(Kx.rtcCtl.off, 0x4)], lease := { kind := okPortA, ends := 10 ^ 14 }
                                   clk := { pps := { last := some 9, lock := true } } } : State).advance (300 * secT)
    u.rb Kx.rtcCtl 2 = true ∧ u.clk.pps.lock = true ∧ u.clk.measAt + trimTicks ≤ u.now ∧ u.softBit Kx.rtcCtl 16 = false) ∧
    (let u := (ppsState { last := some 9, miss := 1 }).advance 99999999999
    u.clk.pps.last = some 9 ∧ 9 + (u.clk.pps.wins + 1) * secT + 1600000 < u.now ∧ u.clk.pps.miss < 2) ∧
    (let u := ({ ppsState { last := some 9 } with pins := [] } : State).advance (9 + 200 * msT)
    u.ppsPin = none ∧ u.clk.pps.last = some 9 ∧ 9 + 100 * msT ≤ u.now ∧ u.now ≤ 9 + 900 * msT ∧ canPost u 20 = true ∧ u.isOper 20 = true) ∧
    (let u := ({ ppsState { last := some 9 } with pins := [] } : State).advance (9 + 950 * msT)
    u.ppsPin = none ∧ u.clk.pps.last = some 9 ∧ 9 + 900 * msT < u.now ∧ canPost u 20 = true ∧ u.isOper 20 = true) ∧
    (let u := ({ (ppsState {}).setF Kx.timPpsCfg 22 22 1 with clk := { now := secT } } : State).advance 3
    u.rb Kx.timPpsCfg 23 = true ∧ u.clk.ppsOut = none ∧ u.ppsOutPhase.any (· ≤ 4) = true ∧ u.clk.pps.last = none) := by decide

/-! ## MeshAndPins -/

def seqState (st : Stn) : State := ((offers st).wr (Kx.stnSeqCfg 3) 0x80000000).wr (Kx.stnSeqCa 3 0) 1
def meshState : State :=
  { (((offers {}).wr (Kx.hubTrigCfg 2) 0x80000000).wr Kx.pinHoldCfg 0x80000000) with
    mesh := [{ lines := 4, slot := 16 }], ctxs := [(20, { st := csRunning })], pins := [(1, { func := 1, pulse := some 9 })] }
def holdAt (h : HoldIn) : State := { meshState with hold := h }
theorem wit_MeshAndPins : (let u := (seqState { late := 1 }).advance 20
    u.stnOn 3 = true ∧ (u.window 3).isNone = true ∧ (u.startEdge 3).seqDue 3 = some 0) ∧
    (let u := (seqState { seqr := { tmr := some 9 } }).advance 20
    u.stnOn 3 = true ∧ (u.window 3).isNone = true ∧ (u.startEdge 3).seqDue 3 = none ∧ u.seqOn 3 = true ∧ (u.stn 3).inAt ≠ u.stnFt 3 ∧
    (u.stn 3).seqr.tmr = some 9 ∧ 9 ≤ u.stnFt 3) ∧
    (let u := meshState.advance 400
    u.hubOn = true ∧ u.stnOn 3 = true ∧ u.mesh = [{ lines := 4, slot := 16 }] ∧ 16 + 208 ≤ u.now ∧ u.rb (Kx.hubTrigCfg 2) 31 = true ∧
    waits u = true ∧ canPost u 20 = true ∧ u.isOper 20 = true ∧ (sgetD u.pins 1 {}).func = 1 ∧ (sgetD u.pins 1 {}).level = false ∧
    (sgetD u.pins 1 {}).parked u.now = false ∧ (sgetD u.pins 1 {}).pol = false ∧ (sgetD u.pins 1 {}).pulse = some 9 ∧
    u.rb Kx.pinHoldCfg 31 = true ∧ u.hold.locked = false ∧ u.hold.win = none ∧ u.rb Kx.pinHoldCfg 29 = false) ∧
    (let u := ({ meshState with pins := [(1, { park := some 4 })] } : State).advance 400
    (sgetD u.pins 1 {}).park = some 4 ∧ 4 + 240 ≤ u.now) ∧
    (let u := (holdAt { a := true, win := some (300, false) }).advance 320
    u.hold.a = true ∧ u.hold.b = false ∧ u.hold.held = false ∧ u.now ≤ 300 + u.holdWin) ∧
    (let u := (holdAt { a := true, win := some (300, false) }).advance 900000
    300 + u.holdWin + pinCyc ≤ u.now) ∧
    (let u := (holdAt { locked := true, held := true, quietAt := some 300 }).advance 900000
    300 + u.holdWin ≤ u.now) := by decide

/-! ## LedgerWork -/

def openEv : FlowEv := { ft := 5, die := 3, handle := 9, code := 0, arg := 7 }
def ledgerState : State :=
  let s := (((leased (offers { servo := { st := svLocked }, prog := [(4, [])] })).wr Kx.ledCfg 0x80000001).wr (Kx.stnPart 3 0) 0).wr (Kx.secPartdef 0) 1
  { s with led := { buf := [openEv], queue := [(7, {})], catchup := true }, progs := [(3, {})], wm := 10 ^ 9
           subs := [{ sink := .ledger, next := 6 }]
           jrn := { s.jrn with accTo := 6 } }
def ingestState : State :=
  { ledgerState with jrn := { ledgerState.jrn with accTo := 7, mem := [(6, { unit := 3, recs := [{ ty := .flow, ft := 9, body := [0] }] })] } }
theorem wit_LedgerWork : (let u := ledgerState.advance 90000000
    u.stnOn 3 = true ∧ 2 ≤ (u.stn 3).servo.st.toNat ∧ (u.stn 3).progAt.any (fun k => u.stnFt 3 < k + u.flush 3) = false ∧
    u.hubOn = true ∧ (u.stn 3).prog = [(4, [])] ∧ u.reach 3 = true ∧
    (sget u.progs 3).map (·.at_) = some 0 ∧ 0 + u.silent ≤ u.now ∧ u.led.catchup = true ∧ u.jrn.accTo ≤ 6 ∧ u.ledOn = true ∧
    u.restartDue = none ∧ u.led.buf = [openEv] ∧ 5 < u.wm ∧ u.noEarlier 6 openEv.key = true ∧ u.refusal openEv = none ∧
    (u.led.gone0 && u.led.gone1) = false ∧ 7 + u.evictDelay < u.wm ∧ u.holdsLease .a = true) ∧
    (let u := ingestState.advance 20
    (u.subOf .ledger).map (fun x => (x.next, x.lap)) = some (6, none) ∧ 6 < u.jrn.accTo ∧ u.led.skipTo ≤ 6 ∧
    sget u.jrn.lateAt 6 = none ∧ u.led.buf.length < bufMax ∧ u.led.forcedTo = none) ∧
    (let u := (leased logging).advance 20
    u.ledOn = false ∧ u.holdsLease .a = true ∧ u.ledCheck (0x80000001 &&& 0xC0FF1F1F) = false) ∧
    (let u := ((((leased logging).wr (Kx.ledBaseHi 0) 4).wr (Kx.ledBaseHi 1) 8)).advance 20
    u.ledOn = false ∧ u.ledCheck (0x80010001 &&& 0xC0FF1F1F) = true) := by decide

/-! ## ChurnWork -/

def lostRec : Record := { mkRec .gap 0 0 [0, 0, 0, 0] with ft := 10 ^ 12 }
def churnState (c : Churn) : State :=
  let s := (((((leased (offers { parts := [{ sl := 1, dfn := 2, start := 9, boundary := true }], sk := [(1, { win := some (0, 7) })] })).wr Kx.chnCfg 0x80000000).wr
    (Kx.chnSkdef 2) 0xC0000200).wr (Kx.stnSkcfg 3 1) 0x80000002).wr (Kx.chnDetcfg 4) 0x80000000).wr Kx.chnExpcfg 0x80000000
  { s with churn := c, wm := 10 ^ 12, subs := [{ sink := .churn, next := 6, cursor := 6 }],
           jrn := { s.jrn with accTo := 7, mem := [(6, { unit := 3, recs := [lostRec] })] } }
def churnInst : Inst := { dfn := 2, metric := mRlat, start := 0, missing := 8, kind := 4 }
def marked : List (Nat × Nat) := [(10 ^ 12, 6)]
theorem wit_ChurnWork : (let u := (churnState { insts := [churnInst], detAt := [(4, 5)], exps := [{ k := 0, start := 0, stop := 9 }], marks := marked }).advance 9000000000
    u.stnOn 3 = true ∧ (sgetD (u.stn 3).sk 1 {}).win = some (0, 7) ∧ (sgetD (u.stn 3).sk 1 {}).cand = none ∧
    (u.streamEnd { win := some (0, 7) }).any (· ≤ u.stnFt 3) = true ∧ u.hubOn = true ∧ u.jrnOn = true ∧ u.ckptDue = true ∧
    u.holdsLease .a = true ∧ u.chnOn = true ∧ (u.subOf .churn).map (·.next) = some 6 ∧ 6 < u.jrn.accTo ∧ u.churn.closedTo = 0 ∧
    u.hubOpen = none ∧ u.instReady churnInst = true ∧ (u.stn 3).parts = [{ sl := 1, dfn := 2, start := 9, boundary := true }] ∧
    u.defOn 2 9 = true ∧ u.defMetric 2 9 = mRlat ∧ u.churn.lostAt = none ∧
    churnInst.is 2 (if u.defScope 2 9 = skDie then 3 else 0) (u.defWin 2 9).1 = true ∧ u.instStop churnInst + 20 * usT ≤ u.now ∧
    13 ∈ u.streamsOf churnInst ∧ 13 ∉ churnInst.parts ∧ u.expOn = true ∧ u.mayClose 9 = true ∧ u.detOn 4 = true ∧
    u.mayClose (5 + u.dwin 4) = true) ∧
    (let u := (churnState { hbwLens := [(0, 10)], hbwAt := 10, marks := marked }).advance 20
    u.hubOpen = some (10, 20) ∧ u.mayClose 20 = true ∧ u.churn.exps = [] ∧ u.churn.insts = []) ∧
    (let u := (leased logging).advance 20
    u.hubOn = true ∧ u.chnOn = false ∧ u.chnCheck (0x80000000 &&& 0x800F001F) = false) ∧
    (let u := ((leased logging).wr Kx.chnBaseHi 5).advance 20
    u.chnOn = false ∧ u.chnCheck (0x80000000 &&& 0x800F001F) = true) := by decide

/-! ## WatchArming -/

def armState : State := running {}
def statArgs : WatchArgs := { tid := 5, sfmt := 0xF, dieMask := 8 }
theorem wit_WatchArming : let u := armState.advance 20
    u.hubOn = true ∧ canPost u 20 = true ∧ u.armCheck 20 statArgs = none := by decide

/-! ## WatchWork -/

def watched (x : Watch) : State :=
  { leased (offers { servo := { st := svLocked }, armed := if x.inForce then [7] else [] }) with
    ctxs := [(20, { st := csRunning })], watches := [(7, { x with ctx := 20 })] }
theorem wit_WatchWork : (let u := (watched { args := { dieMask := 8 } }).advance 40000
    u.hubOn = true ∧ (u.watch 7).map (·.done) = some none ∧ u.watchDone { args := { dieMask := 8 }, ctx := 20 } = false ∧
    u.watchReady 3 7 { args := { dieMask := 8 }, ctx := 20 } = true ∧ canPost u 20 = true ∧ u.watchBusy 7 = false ∧
    u.holdsLease .a = true ∧ u.rb Kx.hubTwExclCtl 31 = false) ∧
    (let u := ((watched { inForce := true, done := some 17 }).wr Kx.hubTwExclCtl 0x80000000).advance 40000
    u.rb Kx.hubTwExclCtl 31 = true ∧ u.watchBusy 7 = false) := by decide
theorem wit_WatchWork_removed : let u := (watched { args := { dieMask := 8 }, remAt := some 5 }).advance 40000
    u.hubOn = true ∧ (u.watch 7).map (·.remAt) = some (some 5) ∧ u.watchDone { args := { dieMask := 8 }, ctx := 20, remAt := some 5 } = false ∧
    5 ≤ u.now ∧ u.present 3 = true := by decide

/-! ## QueriesAndLease -/

def liveQuery : QueryArgs := { metric := 0x0101, kind := 4, alen := 200 }
def queryState (l : Lease) : State :=
  { (running {}).wr Kx.ledCfg 0x80000001 with lease := l, churn := { qs := [{ id := 2, ctx := 20, seq := 4, args := liveQuery }] } }
theorem wit_QueriesAndLease : (let u := (queryState { kind := 1, ends := 5 }).advance 20
    u.hubOn = true ∧ (u.ctx 20).st ≠ csClosed ∧ u.bufBad 20 0 200 = false ∧ u.queryCheck (u.viewer 20) liveQuery = none ∧
    (u.churn.qs.filter fun z => z.ctx == 20 && z.from_.isNone).length < 4 ∧ canPost u 20 = true ∧ u.ledOn = true ∧
    liveQuery.kind.toNat ≠ skNode ∧ u.churn.qs = [{ id := 2, ctx := 20, seq := 4, args := liveQuery }] ∧ liveQuery.wend = 0 ∧
    liveQuery.metric.toNat = mLive ∧ 96 ≤ liveQuery.alen.toNat ∧ 0 + liveQuery.wait.toNat * usT ≤ u.now ∧ u.leaseOver = true) ∧
    (let u := (queryState { kind := 1, ends := 500, tag := 3 }).advance 20
    u.leaseOver = false ∧ u.lease.kind = okOfPort .a ∧ u.lease.tag.toNat = fld 0x30005 31 16 ∧ u.pinned = false) := by decide

/-! ## ContextCommands -/

def ctxState : State :=
  let s := (running {}).wr (Kx.ctxRecCfg 20 2) 0x80000000
  { s with subs := [{ sink := .ring 20 2, cursor := 3 }], churn := { qs := [{ ctx := 20, seq := 4 }] }, sec := { tstate := 1 } }
theorem wit_ContextCommands : let u := ctxState.advance 20
    u.hubOn = true ∧ canPost u 20 = true ∧ u.rb (Kx.ctxRecCfg 20 2) 31 = true ∧ u.nodeRing ≠ some (20, 2) ∧
    (u.subOf (.ring 20 2)).map (·.cursor) = some 3 ∧ u.isOper 20 = true ∧ u.openCheck { ctx := 40, perm := 1 } = none ∧
    (u.ctx 20).st ≠ csClosed ∧ u.churn.qs = [{ ctx := 20, seq := 4 }] := by decide

/-! ## ContextRings -/

def nopWords : List (BitVec 64) := [4, 0, 0, 0, 0, 0, 0, 0]
def ringState (x : CtxS) : State :=
  let s := (((leased (running x)).wr (Kx.ctxRecCfg 20 2) 0x80000000).wr (Kx.ctxRecCfg 20 0) 0x80000000).wr (Kx.ctxCplCfg 20) 0x10000
  { s with msix := { pending := [20] }, ctxs := [(20, x)] }
def logState (x : CtxS) : State := (ringState x).wr Kx.ctxLogCfg 0x80000000
theorem wit_ContextRings :
    (let u := (ringState { st := csRunning, cplPi := 9, unsig := 1, recs := [(2, { pi := 9 })] }).advance 9000
    u.hubOn = true ∧ u.pageOpen false 20 = true ∧ (9 + 2 ^ 32 - 0) % 2 ^ 32 ≤ ringSize (u.rf (Kx.ctxCmdCfg 20) 4 0) ∧
    aheadOf 9 9 = false ∧ aheadOf 9 0 = true ∧ u.rb (Kx.ctxRecCfg 20 2) 31 = true ∧ (u.ring 20 2).pi = 9 ∧ (u.ring 20 2).ci = 0 ∧
    (u.ctx 20).st = csRunning ∧ u.rf (Kx.ctxCplCfg 20) 31 16 = 1 ∧ 20 ∈ u.msix.pending ∧ u.holdsLease .a = true ∧ u.logOn = false ∧
    u.logCheck (0x80001000 &&& 0x800FF000) = false) ∧
    (let u := (ringState { st := csStopped }).advance 20
    u.pageOpen false 20 = true ∧ u.logOn = false ∧ ringSize (u.rf (Kx.ctxCmdCfg 20) 4 0) < (0x80001000 + 2 ^ 32 - 0) % 2 ^ 32) ∧
    (let u := (logState { st := csStopped }).advance 20
    u.pageOpen false 20 = true ∧ u.logOn = true ∧ u.rb (Kx.ctxRecCfg 20 0) 31 = true) ∧
    (let u := (logState { st := csRunning, pi := 2, nextSeq := 4 }).advance 20
    u.mayFetch 20 = true ∧ dExt nopWords = false ∧ (nopWords.getD 0 0).toNat = 4 ∧ 0 < (2 + 2 ^ 32 - 0) % 2 ^ 32) ∧
    (let u := (logState { st := csRunning, log := [{ seq := 4, words := nopWords }] }).advance 20
    canPost u 20 = true ∧ dOp nopWords = opNop) := by decide
theorem wit_ContextRings_refused : (let u := (ringState { st := csRunning, cplPi := 9 }).advance 9000
    u.pageOpen false 20 = true ∧ ringSize (u.rf (Kx.ctxCmdCfg 20) 4 0) < (0x80001000 + 2 ^ 32 - 0) % 2 ^ 32) ∧
    (let u := (((ringState { st := csRunning }).wr (Kx.ctxLogHi 0) 4).wr (Kx.ctxLogHi 1) 8).advance 9000
    u.holdsLease .a = true ∧ u.logOn = false ∧ u.logCheck (0x80001000 &&& 0x800FF000) = true) ∧
    (let u := (logState { st := csRunning, log := [{ seq := 4, words := nopWords, check := 3 }] }).advance 20
    canPost u 20 = true ∧ (u.ctx 20).log = [{ seq := 4, words := nopWords, check := 3 }]) := by decide

/-! ## CompletionBytes -/

theorem wit_CompletionBytes : (let u := (ringed true).advance 20
    u.hubOn = true ∧ (ringed true).sramW = [] ∧ canPost u 20 = true ∧ (u.ctx 20).log = [] ∧ (u.ctx 20).ringloc = true ∧
    u.rd64 (Kx.ctxCplBaseLo 20) (Kx.ctxCplBaseHi 20) + 32 * ((u.ctx 20).cplPi % u.cplSize 20) + 32 ≤ sramSize) ∧
    (let u := (ringed false).advance 20
    canPost u 20 = true ∧ (u.ctx 20).ringloc = false) := by decide

/-! ## CompletionMemory -/

theorem wit_CompletionMemory : (ringed true).sramW = [] ∧ (∃ r, exec (.nop 20 { ctx := 20 }) (ringed true) = .next r) ∧
    (((ringed true).advance 20).ctx 20).ringloc = true ∧ 0 < ((ringed true).advance 20).rd64 (Kx.ctxCplBaseLo 20) (Kx.ctxCplBaseHi 20) ∧
    ((ringed false).advance 20).ctx 20 = { (ringed false).ctx 20 with ringloc := false } :=
  ⟨by decide, ⟨_, rfl⟩, by decide, by decide, by decide⟩

/-! ## RegisterAccess -/

def accessState (l : Lease) (p : Plan) : State := { logging with lease := l, plan := p }
theorem wit_RegisterAccess : (let u := (accessState { kind := okPortA, ends := 900, len := 5 } { phase := .opened }).advance 20
    u.hubOn = true ∧ u.leaseOver = false ∧ u.holdsLease .a = true ∧ u.present 3 = true ∧ u.autoServes .a = false) ∧
    (let u := ((accessState {} {}).wr Kx.glbGrayCfg 0x40000000).advance 20
    u.autoServes .a = true ∧ u.pinned = false ∧ u.leaseOver = false) := by decide
theorem wit_RegisterAccess_refused : (let u := (accessState { kind := okPortA, ends := 900, len := 5 } {}).advance 20
    u.leaseOver = false ∧ u.holdsLease .a = true ∧ u.plan.phase = .idle ∧ u.present 3 = true ∧ u.autoServes .a = false) ∧
    (let u := (accessState { kind := okPortB, ends := 900, len := 5 } { phase := .opened }).advance 20
    u.leaseOver = false ∧ u.holdsLease .a = false ∧ u.autoServes .a = false) ∧
    regCountOk 0 = false ∧ isDbg 0x1008 = false := by decide

/-! ## ReadsWithoutEffect -/

def readable : State := leased (offers { cnt := [(7, 2 ^ 32 + 5)], latchB := some (7, 3), latchA := some (7, 4) })
theorem wit_ReadsWithoutEffect : let u := readable.advance 20
    u.hubOn = true ∧ readable.sramW = [] ∧ u.leaseOver = false ∧ u.reach 3 = true ∧ isPk 0x8101C = true ∧ isPk 0x2038838 = true ∧
    u.reach ((0x2038838 - 0x2000000) / 0x10000) = true := by decide

/-! ## FreezeReserved -/

theorem wit_FreezeReserved : (ready.advance 20).hubOn = true ∧ ready.sramW = [] := by decide

/-! ## LeaseLength -/

def tenantPlan : State := { running {} with ctxs := [(20, { st := csRunning, perm := 1 })] }
theorem wit_LeaseLength : (let u := (leased ready).advance 20
    u.hubOn = true ∧ u.leaseOver = false ∧ u.lease.kind = okOfPort .a ∧ u.lease.tag = BitVec.ofNat 16 (fld 5 31 16) ∧
    u.lease.tag ≠ BitVec.ofNat 16 (fld 0x50005 31 16) ∧ u.tieWon .a = false ∧ u.lease.frozenAt = none ∧ u.pinned = false) ∧
    (let u := tenantPlan.advance 20
    u.hubOn = true ∧ u.lease.kind = 0 ∧ (u.ctx 20).leaseLost = false ∧ (u.ctx 20).st ≠ csClosed ∧ u.isOper 20 = false) := by decide
theorem wit_LeaseLength_over : let u := (leased ready).advance (10 ^ 12 + 4)
    u.hubOn = true ∧ u.lease.kind ≠ 0 ∧ u.lease.frozenAt = none ∧ u.pinned = false ∧ u.lease.ends ≤ u.now := by decide

/-! ## PlanCommands -/

def planState (l : Lease) (p : Plan) : State :=
  { offers { servo := { st := svLocked } } with lease := l, plan := p, ctxs := [(20, { st := csRunning })] }
theorem wit_PlanCommands : (let u := (planState {} {}).advance 20
    u.hubOn = true ∧ u.leaseOver = false ∧ canPost u 20 = true ∧ (u.ctx 20).leaseLost = false) ∧
    (let u := (planState { kind := okCtx, id := 20, ends := 900, len := 5 } { phase := .opened }).advance 20
    u.leaseOver = false ∧ u.ctxHolds 20 = true ∧ u.firstBad 20 0 [(0x2030024, 5)] = none ∧ u.commitAt 90000 = .inl 90000) ∧
    (let u := (planState { kind := okPortA, ends := 900, len := 5 } { phase := .opened }).advance 20
    u.leaseOver = false ∧ u.portLost .a = false ∧ u.commitAt (u.rd64 Kx.opTLo Kx.opTHi) = .inl 32020) := by decide
theorem wit_PlanCommands_refused : (let u := (planState { kind := okCtx, id := 20, ends := 900, len := 5 } { phase := .opened }).advance 20
    u.leaseOver = false ∧ canPost u 20 = true ∧ u.ctxHolds 20 = true ∧ 0 < (90 : BitVec 64).toNat ∧
    (90 : BitVec 64).toNat < u.now + 4 * usT) ∧
    (let u := (planState { kind := okPortA, ends := 900, len := 5 } {}).advance 20
    u.leaseOver = false ∧ u.portLost .a = false ∧ u.plan.phase = .idle) := by decide

/-! ## PlanSwap -/

def commitState (p : Plan) : State :=
  { offers { prep := some 9000, go := some 9000, servo := { st := svLocked } } with
    lease := { kind := okPortA, ends := 10 ^ 12, len := 5 }, plan := { p with t := 9000, parts := [3], epoch := 7 } }
def swapReady (hub : Bool) : State :=
  commitState { phase := .armed, hubSwapped := hub, staged := [((Kx.stnCntCfg 3).off, 5, 0)], swapped := if hub then [3] else [] }
def recovering : State :=
  commitState { phase := .recover, rbAt := 25000, rbWait := [3], rbFrom := 6, prior := some ([], 6), rbMissed := 8, hubSwapped := true }
theorem wit_PlanSwap : (let u := (commitState { phase := .preparing }).advance 1000
    u.hubOn = true ∧ u.reach 3 = true ∧ (u.stn 3).prep = some u.plan.t ∧ 3 ∉ u.plan.answered ∧ u.plan.t ≤ u.now + usT ∧
    u.plan.owner = none ∧ u.lease.kind ≠ okFw ∧ u.plan.auto = false ∧ u.plan.node = false ∧ u.lease.forfeit = none) ∧
    (let u := (commitState { phase := .armed }).advance 1000
    u.reach 3 = true ∧ (u.stn 3).prep = some u.plan.t ∧ u.stnFt 3 ≤ u.plan.t) ∧
    (let u := (swapReady false).advance 9000
    u.stnOn 3 = true ∧ (u.stn 3).go = some u.plan.t ∧ u.plan.t ≤ u.stnFt 3 ∧ u.stnFt 3 ≤ u.plan.t ∧ u.plan.hubSwapped = false) ∧
    (let u := (swapReady true).advance 17000
    u.plan.phase = .armed ∧ u.plan.nodeSwap = none ∧ u.plan.t + usT ≤ u.now ∧ u.plan.hubSwapped = true) ∧
    (let u := recovering.advance 25000
    3 ∈ u.plan.rbWait ∧ u.stnOn 3 = true ∧ u.reach 3 = true ∧ u.now ≤ u.plan.rbAt ∧ u.plan.rbAt ≤ u.now ∧ u.plan.nodeSwap = none ∧
    u.plan.rbFrom = 6) := by decide
theorem wit_PlanSwap_staged : (swapReady false).plan.staged = [((Kx.stnCntCfg 3).off, 5, 0)] ∧ recovering.plan.prior = some ([], 6) :=
  ⟨rfl, rfl⟩

/-! ## PortBMessages -/

def portBState : State :=
  { running { ringloc := true } with portB := { notices := [(7, 1, true, 0)], enable := 3 }, sram := [(8, 1)] }
theorem wit_PortBMessages : let u := portBState.advance 900000000
    u.hubOn = true ∧ portBState.sramW = [] ∧ sramArgsOk 8 4 = true ∧ sramArgsOk 8 3 = false ∧ (u.ctx 20).ringloc = true ∧
    (u.ctx 21).ringloc = false ∧ u.pageOpen false 20 = true ∧ (9 + 2 ^ 32 - 0) % 2 ^ 32 ≤ ringSize (u.rf (Kx.ctxCmdCfg 20) 4 0) ∧
    u.noticeOn 7 = true ∧ 0 + 100 * msT ≤ u.now ∧ u.portB.held = [] := by decide

/-! ## Mailboxes -/

def mbxState (code : Nat) (ptr : Bool) : State :=
  let s := leased (logging.wr (Kx.mbxCfg 2) (if ptr then 0x20000000 else 0))
  { s with mbxs := [(2, { h2f := { msgs := [(5, [BitVec.ofNat 32 (code * 65536), 64, 0])], seq := 6 }, f2h := { msgs := [(9, [1])] } })]
           fw := { staged := some {} }, oasisA := { slots := [(4, {}, false)] } }
theorem wit_Mailboxes : (let u := (mbxState 1 false).advance 20
    u.hubOn = true ∧ u.mbxPort 2 = .a ∧ u.badPost 2 3 (u.mbx 2).h2f = false ∧ u.badPost 2 9 (u.mbx 2).h2f = true ∧
    msgCode [0x10000, 64, 0] = mcPing ∧ u.fw.staged.isSome = true ∧ u.holdsLease .a = true ∧ u.badPost 2 2 (u.mbx 2).f2h = false ∧
    u.mbxPtr 2 = false) ∧
    (let u := (mbxState 0x30 true).advance 20
    u.mbxPtr 2 = true ∧ msgCode [0x300000, 64, 0] = mcOasisDump ∧ msgArg [0x300000, 64, 0] = 0 ∧ (u.mbx 2).h2f.msgs = [(5, [0x300000, 64, 0])]) :=
  by decide
theorem wit_Mailboxes_messages : ∀ code ∈ [mcDiagRun, mcFwInfo, mcFwStage, mcFwActivate], let u := (mbxState code true).advance 20
    u.hubOn = true ∧ u.mbxPtr 2 = true ∧ u.mbxPort 2 = .a ∧ u.fw.staged.isSome = true ∧
    (u.mbx 2).h2f.msgs = [(5, [BitVec.ofNat 32 (code * 65536), 64, 0])] ∧ msgCode [BitVec.ofNat 32 (code * 65536), 64, 0] = code := by
  decide

/-! ## SealAndTenants -/

def tenantState (c : Sec) (perm : BitVec 2) : State :=
  let s := (running {}).wr Kx.sealCfg 0x80000000
  { s with ctxs := [(20, { st := csRunning, perm := perm })], sec := c, jrn := { s.jrn with gained := [(3, (2, 9))] } }
theorem wit_SealAndTenants : (let u := (tenantState { regs := [{ id := 4, ctx := 20 }], ops := [{ kind := .register, ctx := 20, seq := 6 }] } 1).advance 900000000
    u.isOn = true ∧ u.hubOn = true ∧ canPost u 20 = true ∧ u.isOper 20 = false ∧ u.keysOf none < 64 ∧ u.keysOf (some 20) < 16 ∧
    (u.keyReg 20 4).isSome = true ∧ u.keyUsed 4 = false ∧ u.sec.opEnds ≤ u.now ∧ u.rb Kx.sealCfg 31 = true ∧
    u.sec.sealAt + u.sealPeriod ≤ u.now ∧ u.scrubbing = false ∧ waits u = true) ∧
    (let u := (tenantState { tstate := 1 } 0).advance 20
    u.isOper 20 = true ∧ u.scrubbing = false ∧ u.sec.tstate = tsAttached) ∧
    (let u := (tenantState { tstate := 2, scrub := 2 } 0).advance 20
    u.hubOn = true ∧ u.scrubWaits = false) ∧
    (let u := (tenantState {} 0).advance 20
    u.isOper 20 = true ∧ u.scrubbing = false ∧ u.sec.tstate = tsNone) := by decide
theorem wit_SealAndTenants_steps : ∀ k ∈ [1, 2, 8, 9, 12], let u := (tenantState { tstate := 2, scrub := k } 0).advance 20
    u.hubOn = true ∧ u.sec.scrub = k := by decide
theorem wit_SealAndTenants_ops : ∀ k ∈ [SealKind.keygen, .register, .sign, .seal],
    let u := (tenantState { ops := [{ kind := k, ctx := 20, seq := 6 }] } 1).advance 900000000
    u.hubOn = true ∧ u.sec.ops = [{ kind := k, ctx := 20, seq := 6 }] ∧ u.sec.opEnds ≤ u.now ∧ canPost u 20 = true ∧ waits u = true := by
  decide
theorem wit_SealAndTenants_selected : let u := ((tenantState {} 1).wr Kx.sealUnitsLo 8).advance 900000000
    u.sealOn 3 = true ∧ 0 < (sgetD u.jrn.gained 3 (0, 0)).1 := by decide

/-! ## SealDisclosure -/

theorem regPairs_length (s : State) (b : Nat) (rows : List Kx.Row) (p : Kx.Row → Bool) :
    (s.regPairs b rows p).length = ((rows.filter p).map (·.count)).sum := by
  simp [State.regPairs]
theorem wit_SealDisclosure : let u := (running {}).advance 20
    u.hubOn = true ∧ canPost u 20 = true := by decide
theorem wit_SealDisclosure_fits : 8 * ((running {}).advance 20).document.length ≤ (0xffffffff : BitVec 32).toNat := by
  simp only [State.document, List.length_append, regPairs_length, List.length_flatMap, List.length_map, List.length_range,
    List.length_cons, List.length_nil, words384]
  decide +kernel

/-! ## KeyRevocation -/

def keyed (perm : BitVec 2) (w : SMap Watch) : State :=
  { running {} with
    ctxs := [(20, { st := csRunning, perm := perm }), (21, { st := csRunning, perm := 1 })], watches := w
    sec := { regs := [{ id := 4, ctx := 20 }, { id := 5, ctx := 21 }] } }
theorem wit_KeyRevocation : (let u := (keyed 1 []).advance 20
    u.hubOn = true ∧ canPost u 20 = true ∧ u.isOper 20 = false ∧ (u.keyReg 20 4).isSome = true ∧ u.keyUsed 4 = false ∧
    (u.keyReg 20 5).isSome = false) ∧
    (let u := (keyed 1 [(3, { args := { capture := true, keyId := 4 } })]).advance 20
    (u.keyReg 20 4).isSome = true ∧ u.keyUsed 4 = true) ∧
    (let u := (keyed 0 []).advance 20
    u.isOper 20 = true ∧ (u.ctx 21).st ≠ csClosed) := by decide

/-! ## TenantChange -/

def attached : State := { running {} with sec := { tstate := 1 } }
theorem wit_TenantChange : (let u := attached.advance 20
    u.hubOn = true ∧ attached.sramW = [] ∧ u.sec.tstate = tsAttached ∧ u.scrubbing = false ∧ u.isOper 20 = true ∧
    (u.ctx 20).st ≠ csClosed) ∧ (∃ d, exec (.tenantDetach 20 { ctx := 20 }) attached = .next d) ∧
    (let u := (running {}).advance 20
    u.hubOn = true ∧ u.sec.tstate ≠ tsAttached) := ⟨by decide, ⟨_, rfl⟩, by decide⟩

/-! ## NodeLinks -/

theorem wit_NodeLinks : (let u := (nodeWith { head := some 5 }).advance 20
    u.hubOn = true ∧ u.rb (Kx.synPcfg 0) 31 = true ∧ (u.port 0).st = spUp ∧ u.chanExists 0x6000 = true ∧
    (u.chan 0x6000).st = chActive ∧ u.devId.isSome = true ∧ u.rb Kx.synId 31 = true ∧ u.route 5 = some (0, 1) ∧ (u.port 0).peer = some 5 ∧
    u.node.isHead = false ∧ u.node.estranged = false ∧ u.node.slot ≠ some (u.now / usT) ∧
    bestProbe ([{ t1 := 3, t4 := 9 }] : List NodeProbe) = some { t1 := 3, t4 := 9 } ∧
    (u.node.seen.any fun y => y.1 == 9 && y.2.1 == 2) = false ∧
    u.rb (Kx.hubTrigCfg 4) 28 = true ∧ u.rb (Kx.hubTrigCfg 3) 28 = false ∧ u.inNode = true) ∧
    (let u := (nodeWith { head := some 2, isHead := true }).advance 20
    u.hubOn = true ∧ u.self = 2 ∧ u.node.isHead = true ∧ u.node.reachable u.now 5 = true ∧ 8000 < (9000 : Int) ∧
    (-9000000 : Int) < -8000000) := by decide

/-! ## NodeHead -/

def heard (x : NodeDev) : NodeDev := { x with at_ := 10, routes := [(0, (1, 10))] }
def headOf (x : NodeDev) : State := nodeWith { head := some 2, isHead := true, devs := [(5, heard x)] }
def memberOf : State := { nodeWith { head := some 5 } with subs := [{ sink := .node, next := 9 }] }
theorem wit_NodeHead : (let u := (headOf { queue := [.curd 4 {}], prog := 7 }).advance 20
    u.hubOn = true ∧ u.rb Kx.synId 31 = true ∧ (u.port 0).st = spUp ∧ u.self = 2 ∧ u.node.dup = false ∧ u.holdsLease .a = true ∧
    u.node.isHead = true ∧ u.nodeRoom = true ∧ u.node.nfeat.getLsbD 3 = true ∧
    sget u.node.devs 5 = some (heard { queue := [.curd 4 {}], prog := 7 }) ∧ (heard { queue := [.curd 4 {}], prog := 7 }).got ≤ 7 ∧
    NodeItem.isLapped (.lapped 3 9) = true) ∧
    (let u := memberOf.advance 20
    u.inNode = true ∧ u.node.isHead = false ∧ u.subOf .node = some { sink := .node, next := 9 } ∧ 4 < 9) ∧
    (let u := (headOf {}).advance (400 * usT)
    u.hubOn = true ∧ 10 + 300 * usT < u.now) := by decide
def placing : State :=
  let s := ((headOf { queue := [.curd 4 {}], prog := 70 }).wr Kx.synAgg 0x80400402).wr (Kx.ctxRecCfg 4 2) 0x84000000
  { s with wm := 90, ctxs := [(4, { st := csRunning })] }
theorem wit_NodeHead_place : let u := placing.advance 20
    u.node.isHead = true ∧ u.nodeRing = some (4, 2) ∧ u.ringOpen 4 2 = true ∧ (u.ring 4 2).due = [] ∧ u.nextPlace = some 5 ∧
    sget u.node.devs 5 = some (heard { queue := [.curd 4 {}], prog := 70 }) := by decide

/-! ## NodeCommands -/

def txnOf (s : State) (p : Plan) : State := { s with plan := p }
def atNt (s : State) (v : Word) : State := s.wr Kx.synNtLo v
def headWith (o : Option NodeOp) : State := nodeWith { head := some 2, isHead := true, op := o }
def asking (y : Query) (s : State) : State := { s with churn := { s.churn with qs := [y] } }
theorem wit_NodeCommands : (let u := (atNt (txnOf (headWith none) { phase := .opened }) 500000).advance 20
    u.hubOn = true ∧ u.node.isHead = true ∧ u.node.nfeat.getLsbD 0 = true ∧ u.node.nfeat.getLsbD 1 = true ∧
    u.rd64 Kx.synNtLo Kx.synNtHi = 500000 ∧ u.now + 50 * usT ≤ 500000 ∧ 500000 ≤ u.now + secT ∧ u.pathTxn = true ∧ u.snaps = [] ∧
    u.node.op = none) ∧
    (let u := (atNt (headWith none) 50).advance 20
    u.node.isHead = true ∧ u.rd64 Kx.synNtLo Kx.synNtHi < u.now + 50 * usT ∧ u.node.op = none) ∧
    (let u := (txnOf (nodeWith { head := some 5 }) { phase := .opened }).advance 20
    u.inNode = true ∧ u.node.isHead = false ∧ u.clk.devTq ≠ 3 ∧ u.snaps = [] ∧ u.pathTxn = true ∧ u.nodeQueries = true ∧
    u.churn.qs.length < 64) ∧
    (let u := (txnOf (nodeWith { head := some 5 }) { phase := .preparing, node := true }).advance 20
    u.plan.node = true ∧ u.plan.phase = .preparing ∧ u.plan.auto = false ∧
    u.pathTxn = false ∧ u.lease.kind ≠ 0 ∧ u.plan.owner = none ∧ u.lease.kind ≠ okFw ∧ u.lease.forfeit = none) ∧
    (let u := (txnOf (nodeWith { head := some 5 }) { phase := .armed, node := true, nodeSwap := some true, t := 30 }).advance 90000
    u.inNode = true ∧ u.node.isHead = false ∧ u.plan.node = true ∧ u.plan.nodeSwap = some true ∧ u.plan.owner = none ∧
    u.lease.kind ≠ okFw ∧ u.plan.auto = false ∧ u.plan.t + 10 * usT ≤ u.now) ∧
    (let o : NodeOp := { t := 30, parts := [5], gone := true, due := 80030 }
    opMissing o 2 false o.swapped = [5] ∧ opMissing { o with swapped := [5] } 2 false [5] = [] ∧ o.due ≤ 90000) := by decide
theorem wit_NodeCommands_head : (let u := (headWith (some { t := 30, parts := [5] })).advance 20
    u.node.isHead = true ∧ u.node.op = some { t := 30, parts := [5] } ∧ u.plan.node = false ∧ 30 ≤ u.now + 10 * usT) ∧
    (let u := (headWith (some { t := 30, parts := [5], gone := true, due := 80030 })).advance 90000
    u.node.isHead = true ∧ u.node.op = some { t := 30, parts := [5], gone := true, due := 80030 } ∧ u.plan.node = false) ∧
    (let u := (txnOf (headWith (some { t := 30, gone := true, due := 80030, missed := some 3 }))
      { phase := .armed, node := true, nodeSwap := some true, prior := some ([], 6) }).advance 900000
    u.node.isHead = true ∧ u.plan.node = true ∧ u.plan.nodeSwap = some true ∧ u.plan.owner = none ∧ u.lease.kind ≠ okFw ∧
    u.plan.auto = false ∧ 80030 + 10 * usT ≤ u.now) ∧
    (let u := (asking { id := 3, waiting := [5], since := 4 } (headWith none)).advance 9000000
    u.hubOn = true ∧ u.churn.qs = [{ id := 3, waiting := [5], since := 4 }] ∧ 4 + msT ≤ u.now) := by decide

/-! ## ChannelLife -/

def chanState (c : Chan) : State :=
  let s := (leased logging).wr Kx.glbChsel 0x3003
  { s with chans := [(0x3003, c)] }
theorem wit_ChannelLife : (let u := (chanState { retry := 2 }).advance 20
    u.hubOn = true ∧ u.chanExists 0x3003 = true ∧ (u.chan 0x3003).st = chActive ∧ winOf u.now ≤ (u.chan 0x3003).win ∧ meshLeg 3 = 0x3003 ∧
    u.holdsLease .a = true ∧ u.chSel = 0x3003) ∧
    (let u := ({ chanState { evwin := 12, hot := 2 } with lease := { kind := okPortA, ends := 2 * secT } } : State).advance secT
    u.hubOn = true ∧ (u.chan 0x3003).win < winOf u.now) ∧
    (let u := (chanState { st := chRetired }).advance 20
    (u.chan u.chSel).st = chRetired) ∧
    (let u := (chanState { st := chRestoring }).advance 20
    (u.chan 0x3003).st = chRestoring) := by decide

/-! ## RetiredStays -/

theorem wit_RetiredStays : (let u := ((leased logging).wr Kx.glbChsel 0x3003).advance 20
    u.hubOn = true ∧ u.holdsLease .a = true ∧ u.chanExists u.chSel = true) ∧
    (let s : State := { leased logging with chans := [(0x1003, { st := chRetired })] }
    (s.chan 0x1003).st = chRetired ∧ ∃ r, exec (.fenceTimeout 20) s = .next r) := ⟨by decide, by decide, _, rfl⟩

/-! ## HubPair -/

def paired (f : Pair → Pair) : State := let s := leased logging; { s with pair := f s.pair, sram := [(4, 5)], pins := [(1, {})] }
theorem wit_HubPair : (let u := (paired id).advance 20
    u.isOn = true ∧ u.hubOn = true ∧ u.pair.warm = false ∧ u.pair.ready = true ∧ u.pair.stbyOk = true ∧
    (u.chan 0x7000).st ≠ chRetired ∧ u.holdsLease .a = true ∧ (u.core (u.coreIdx 3)).fault = false ∧ fld (u.rd Kx.dbgCtl) 23 16 = 0) ∧
    (let u := (paired fun p => { p with stbyOk := false }).advance 20
    u.hubOn = true ∧ u.pair.stbyOk = false ∧ u.pair.stbyFenced = false) ∧
    bootChoice .a true true false = some (.a, true, false) ∧ bootChoice .a false true false = some (.b, false, false) ∧
    bootChoice .a false false true = some (.a, true, true) ∧ bootChoice .a false false false = none ∧
    (let u := (paired fun p => { p with warm := true }).advance 20
    u.isOn = true ∧ u.pair.warm = true ∧ u.pair.active = .a ∧ u.pair.stbyFenced = false) ∧
    (∀ c ∈ [tcSilent, tcPlanned], let u := (paired fun p => { p with takeover := some (5, c) }).advance 200000
    u.isOn = true ∧ u.pair.takeover = some (5, c) ∧ 5 + 20 * usT ≤ u.now) := by decide

/-! ## Resets -/

def resetState : State :=
  let s := leased (offers { servo := { st := svLocked }, closed := [{ curd := { recs := [{ filled := true }] }, st := .sent }] })
  { s with ctxs := [(20, { st := csRunning })], pair := { s.pair with restart := some 90000 }, oasisA := { s.oasisA with slots := [(5, ({}, false))] } }
theorem wit_Resets : (let u := resetState.advance 100000
    u.isOn = true ∧ u.hubOn = true ∧ u.stnOn 3 = true ∧ u.present 3 = true ∧ u.lease.kind = okPortA ∧ u.pinned = false ∧
    u.ctxs.map (·.1) = [20] ∧ (u.ctx 20).ringloc = false ∧ u.pair.restart = some 90000 ∧ u.plan.t + usT ≤ 90000 ∧
    u.plan.rbAt + usT ≤ 90000 ∧ 90000 ≤ u.now) ∧
    (let u := ready.advance 20
    u.isOn = true ∧ u.stnHeld 3 = false ∧ (u.stn 3).inReset = true ∧ u.present 3 = true ∧ u.pair.restart = none) ∧
    (let u := (logging.setStn 3 {}).advance 20
    u.hubOn = true ∧ State.present State.reset 3 = true) ∧
    (let u := (logging.setStn 3 { inReset := false }).advance 20
    u.reach 3 = true ∧ (u.stn 3).reload = false) ∧
    bootChoice .a true true false = some (.a, true, false) ∧ bootChoice .a false false false = none := by decide

/-! ## RestartDefers -/

def restarting (p : Plan) : State :=
  let s := logging.wr Kx.ledCfg 0x80000000
  { s with pair := { s.pair with restart := some 90000 }, plan := { p with epoch := 7 } }
theorem wit_RestartDefers : (let u := (restarting { phase := .armed }).advance 90000
    u.hubOn = true ∧ u.pair.restart = some 90000 ∧ u.pinned = true ∧ (restarting {}).sramW = []) ∧
    (let u := (restarting { t := 88000 }).advance 90000
    u.pinned = false ∧ u.plan.t ≤ u.now ∧ u.now < max 90000 (88000 + usT)) ∧
    (let u := (restarting { t := 88000 }).advance 96000
    u.pinned = false ∧ max 90000 (88000 + usT) ≤ u.now ∧ u.ledOn = true) := by decide

/-! ## Egress -/

def sending (x : Strm) (y : Sub) : State :=
  let s := (((logging.wr Kx.egrCfg 0x8000FF00).wr (Kx.egrSunitLo 2) 0xFFFFFFFF).wr (Kx.egrStype 2) 0xFFFFFFFF)
  { s with
    lease := { kind := okPortA, ends := 10 ^ 12, len := 100 }, egr := { up := 1, width := 0, session := 4, strms := [(2, x)] }
    subs := [{ y with sink := .stream 2 }], jrn := { s.jrn with delivTo := 9, mem := [(7, { recs := [{}] })] } }
theorem wit_Egress : (let u := (sending { st := esSend, window := 20, next := 3, session := 4 } { next := 7 }).advance 20
    u.hubOn = true ∧ u.holdsLease .a = true ∧ u.strmDown 2 = false ∧ (u.subOf (.stream 2)).map (·.next) = some 7 ∧
    (u.strmCurd 2 7).isSome = true ∧ u.rb Kx.egrCfg 31 = true ∧ u.egr.up ≠ 0 ∧ u.egrMode = 0 ∧ u.subUp 0 = true) ∧
    (let u := (sending { st := esSend, sent := [(2, .data 6, 5, 0)] } {}).advance (5 + 2000 * msT)
    5 + u.rto ≤ u.now ∧ 5 + u.dead ≤ u.now) ∧
    (let u := ({ sending {} {} with egr := { up := 0, width := 0 } }).advance 20
    u.subOk 0 = true ∧ u.subUp 0 = false ∧ (u.strm 2).st = esOff) ∧
    (let u := ({ sending {} {} with egr := { up := 1, width := 1 } }).advance 20
    u.laneWidth ≠ u.egr.width ∧ u.resendsPending = false) := by decide
def frame : RxFrame := { ns := true, fits := true, dmac := 0, dip := 0 }
theorem wit_Egress_kept : (sending {} {}).keeps { (sending {} {} |> fun u => { frame with dmac := u.egrMac, dip := u.egrAddr }) with pause := false } = true ∧
    (sending {} {}).keeps { frame with fits := false } = false := by decide
theorem wit_Egress_send : (let u := (sending { st := esSend, window := 20, next := 3, session := 4 } { next := 7 }).advance 20
    u.strm 2 = { st := esSend, window := 20, next := 3, session := 4 } ∧ (u.strm 2).paceAt ≤ u.now ∧ u.cvTurn 2 = true ∧
    u.subOf (.stream 2) = some { sink := .stream 2, next := 7 } ∧ u.jrn.delivTo = 9 ∧ (1 : BitVec 64).toNat + 1 ≤ 3) ∧
    (let u := (sending { st := esEnding, window := 20, next := 3, session := 4 } { next := 7 }).advance 20
    (u.strm 2).st = esEnding ∧ (u.strm 2).resend = [] ∧ (u.strm 2).sent = [] ∧ (u.strm 2).next ≤ (u.strm 2).window ∧ u.cvTurn 2 = true ∧
    (u.strm 2).session ≠ 5 ∧ ((u.subOf (.stream 2)).bind (·.lap)) = none) ∧
    (let u := (sending { st := esSend, window := 20, next := 3, session := 4, resend := [2], sent := [(2, .data 7, 5, 1)] } { next := 8 }).advance 20
    (u.strm 2).resend = [2] ∧ (u.strm 2).sent = [(2, .data 7, 5, 1)] ∧ (u.strm 2).wait = false ∧ u.strmDown 2 = false ∧
    u.cvTurn 2 = true) := by decide
theorem wit_Egress_late : (let u := (sending { st := esSend, sent := [(2, .data 6, 5, 0)], ackAt := 2000 * msT } {}).advance (5 + 2000 * msT)
    u.strmDown 2 = false ∧ (u.strm 2).sent = [(2, .data 6, 5, 0)] ∧ (u.strm 2).holds = [] ∧ (u.strm 2).resend = [] ∧
    (u.strm 2).retry = [] ∧ 5 + u.rto ≤ u.now ∧ u.now < max (u.strm 2).ackAt (u.strm 2).probeAt + u.rto) ∧
    (let u := (sending { st := esSend, sent := [(2, .data 6, 5, 0)] } {}).advance (5 + 2000 * msT)
    (u.strm 2).st = esSend ∧ (u.strm 2).endAt = none ∧ (u.strm 2).sent ≠ [] ∧ (u.strm 2).ackAt + u.dead ≤ u.now) := by decide

/-! ## Gray -/

def streaming (y : Sub) (on : Bool) : State :=
  let s := leased (logging.wr Kx.glbGrayCfg (if on then 0x80000004 else 4))
  { s with
    gray := { running := on, wptr := 6, rptr := 2 }, subs := if on then [{ y with sink := .gray }] else []
    jrn := { s.jrn with delivTo := 9, mem := [(7, { recs := [{}] })] } }
theorem wit_Gray : (let u := (streaming { next := 7 } true).advance 20
    u.hubOn = true ∧ u.holdsLease .a = true ∧ u.rb Kx.glbGrayCfg 31 = true ∧ (u.subOf .gray).map (·.next) = some 7 ∧
    u.grayFull = false ∧ u.jrn.delivTo = 9 ∧ u.gray.running = true ∧
    (((u.jrn.mem.find? fun e => e.1 == 7).bind fun e => u.selectCurd {} grayArgs e.2)).isSome = true) ∧
    (let u := (streaming {} false).advance 20
    u.holdsLease .a = true ∧ u.rb Kx.glbGrayCfg 31 = false ∧ u.jrnOn = true) := by decide
theorem wit_Gray_lapped : let u := (streaming { next := 7, lap := some (3, 5) } true).advance 20
    u.hubOn = true ∧ u.gray.running = true ∧ u.grayFull = false ∧ (u.subOf .gray).map (·.lap) = some (some (3, 5)) ∧
    ((4 : Word).toNat + 2 ^ 32 - u.gray.rptr) % 2 ^ 32 = 2 ∧ (u.gray.wptr + 2 ^ 32 - u.gray.rptr) % 2 ^ 32 = 4 ∧
    ((400 : Word).toNat + 2 ^ 32 - u.gray.rptr) % 2 ^ 32 = 398 := by decide

/-! ## FrameTaps -/

theorem wit_FrameTaps : ready.sramW = [] ∧ (∃ r, exec (.eventLineSample 20 3 0 0 false 0) ready = .next r) ∧
    (∃ r, exec (.commandIssue 20 3 0 0) ready = .next r) ∧
    (∃ r, exec (.commandRetire 20 3 0 0 0 0 false 0) ready = .next r) ∧
    (∃ r, exec (.markerBeat 20 3 0 0 0 false 0) ready = .next r) ∧
    (∃ r, exec (.rptAgeTimeout 20 3 0) ready = .next r) ∧
    (∃ r, exec (.markerTimeout 20 3 0) ready = .next r) ∧
    (∃ r, exec (.markerQueueDrain 20 3 0) ready = .next r) ∧
    (∃ r, exec (.stallHoldRelease 20 3 0 false) ready = .next r) ∧
    (∃ r, exec (.stallHoldTimeout 20 3 0 false) ready = .next r) ∧
    (∃ r, exec (.stallRearm 20 3 0) ready = .next r) ∧
    (∃ r, exec (.flowEvent 20 3 0 0 0 0 false 0) ready = .next r) ∧
    (∃ r, exec (.tensorTag 20 3 0 0 0 0 0 false 0) ready = .next r) ∧
    (∃ r, exec (.endTag 20 3 0 0 0 0 false 0) ready = .next r) ∧
    (∃ r, exec (.tensorReadComplete 20 3 0 []) ready = .next r) ∧
    (∃ r, exec (.tensorReadDeadline 20 3 0) ready = .next r) ∧
    (∃ r, exec (.accumIdleTimeout 20 3 0) ready = .next r) ∧
    (∃ r, exec (.dieFreqChange 20 3) ready = .next r) :=
  ⟨rfl, ⟨_, rfl⟩, ⟨_, rfl⟩, ⟨_, rfl⟩, ⟨_, rfl⟩, ⟨_, rfl⟩, ⟨_, rfl⟩, ⟨_, rfl⟩, ⟨_, rfl⟩, ⟨_, rfl⟩, ⟨_, rfl⟩, ⟨_, rfl⟩, ⟨_, rfl⟩,
    ⟨_, rfl⟩, ⟨_, rfl⟩, ⟨_, rfl⟩, ⟨_, rfl⟩, ⟨_, rfl⟩⟩

/-! ## FrameStations -/

theorem wit_FrameStations : ready.sramW = [] ∧ (∃ r, exec (.curdFlushTimeout 20 0) ready = .next r) ∧
    (∃ r, exec (.gapFlushTimeout 20 0 0 0 0) ready = .next r) ∧
    (∃ r, exec (.curdSend 20 3) ready = .next r) ∧
    (∃ r, exec (.resendRequest 20 3) ready = .next r) ∧
    (∃ r, exec (.ackReceived 20 3 false 0) ready = .next r) ∧
    (∃ r, exec (.retireNotice 20 3 false 0) ready = .next r) ∧
    (∃ r, exec (.resendTimeout 20 3 false 0) ready = .next r) ∧
    (∃ r, exec (.timeExchangeRequest 20 3) ready = .next r) ∧
    (∃ r, exec (.timeExchangeReply 20 3 0) ready = .next r) ∧
    (∃ r, exec (.timeReplyReceived 20 3) ready = .next r) ∧
    (∃ r, exec (.servoGroupEnd 20 3) ready = .next r) ∧
    (∃ r, exec (.holdoverTimeout 20 3) ready = .next r) ∧
    (∃ r, exec (.tsyncPeriodic 20 3) ready = .next r) ∧
    (∃ r, exec (.refclkLoss 20) ready = .next r) ∧
    (∃ r, exec (.refclkReturn 20 0) ready = .next r) ∧
    (∃ r, exec (.ftStepApply 20) ready = .next r) ∧
    (∃ r, exec (.counterLoRead 20 .a 3 0) ready = .next r) ∧
    (∃ r, exec (.counterHiRead 20 .a 3 0) ready = .next r) ∧
    (∃ r, exec (.counterHiWrite 20 .a 3 0 0) ready = .next r) ∧
    (∃ r, exec (.counterLoWrite 20 .a 3 0 0 none) ready = .next r) ∧
    (∃ r, exec (.periodicCapture 20 3) ready = .next r) ∧
    (∃ r, exec (.aoCapture 20 3) ready = .next r) ∧
    (∃ r, exec (.snapCapture 20 3 0) ready = .next r) ∧
    (∃ r, exec (.captureWriteDone 20 3 0) ready = .next r) ∧
    (∃ r, exec (.snapshot 20 {} 0) ready = .next r) ∧
    (∃ r, exec (.snapshotMsg 20 0) ready = .next r) ∧
    (∃ r, exec (.snapRecordAdmit 20 0) ready = .next r) ∧
    (∃ r, exec (.bwWindowClose 20 3 0) ready = .next r) ∧
    (∃ r, exec (.snapshotCommandReceived 20 3 0) ready = .next r) :=
  ⟨rfl, ⟨_, rfl⟩, ⟨_, rfl⟩, ⟨_, rfl⟩, ⟨_, rfl⟩, ⟨_, rfl⟩, ⟨_, rfl⟩, ⟨_, rfl⟩, ⟨_, rfl⟩, ⟨_, rfl⟩, ⟨_, rfl⟩, ⟨_, rfl⟩, ⟨_, rfl⟩,
    ⟨_, rfl⟩, ⟨_, rfl⟩, ⟨_, rfl⟩, ⟨_, rfl⟩, ⟨_, rfl⟩, ⟨_, rfl⟩, ⟨_, rfl⟩, ⟨_, rfl⟩, ⟨_, rfl⟩, ⟨_, rfl⟩, ⟨_, rfl⟩, ⟨_, rfl⟩,
    ⟨_, rfl⟩, ⟨_, rfl⟩, ⟨_, rfl⟩, ⟨_, rfl⟩, ⟨_, rfl⟩⟩

/-! ## FrameJournal -/

theorem wit_FrameJournal : ready.sramW = [] ∧ (∃ r, exec (.poolRequest 20 []) ready = .next r) ∧
    (∃ r, exec (.poolBufferFree 20 0) ready = .next r) ∧
    (∃ r, exec (.curdReceived 20 3 false) ready = .next r) ∧
    (∃ r, exec (.journalTake 20 0) ready = .next r) ∧
    (∃ r, exec (.journalWriteComplete 20 0) ready = .next r) ∧
    (∃ r, exec (.curdDelivery 20 0) ready = .next r) ∧
    (∃ r, exec (.peerConfirm 20 0) ready = .next r) ∧
    (∃ r, exec (.mirrorUpdate 20) ready = .next r) ∧
    (∃ r, exec (.rebuildComplete 20) ready = .next r) ∧
    (∃ r, exec (.journalEnable 20 .a 0) ready = .next r) ∧
    (∃ r, exec (.sinkPlace 20 .node) ready = .next r) ∧
    (∃ r, exec (.placementReadback 20 0 0) ready = .next r) ∧
    (∃ r, exec (.skimWindowEnd 20) ready = .next r) ∧
    (∃ r, exec (.skimReport 20 0) ready = .next r) ∧
    (∃ r, exec (.skimDecision 20) ready = .next r) ∧
    (∃ r, exec (.fastArm 20) ready = .next r) ∧
    (∃ r, exec (.leverApply 20 0 0 0) ready = .next r) ∧
    (∃ r, exec (.leverChangeDelivery 20 0) ready = .next r) :=
  ⟨rfl, ⟨_, rfl⟩, ⟨_, rfl⟩, ⟨_, rfl⟩, ⟨_, rfl⟩, ⟨_, rfl⟩, ⟨_, rfl⟩, ⟨_, rfl⟩, ⟨_, rfl⟩, ⟨_, rfl⟩, ⟨_, rfl⟩, ⟨_, rfl⟩, ⟨_, rfl⟩,
    ⟨_, rfl⟩, ⟨_, rfl⟩, ⟨_, rfl⟩, ⟨_, rfl⟩, ⟨_, rfl⟩, ⟨_, rfl⟩⟩

/-! ## FrameTime -/

theorem wit_FrameTime : ready.sramW = [] ∧ (∃ r, exec (.ftRead 20 .a) ready = .next r) ∧
    (∃ r, exec (.rtcSecRead 20 .a) ready = .next r) ∧
    (∃ r, exec (.rtcLoad 20 .a 0) ready = .next r) ∧
    (∃ r, exec (.rtcLoadApply 20) ready = .next r) ∧
    (∃ r, exec (.vbatLow 20) ready = .next r) ∧
    (∃ r, exec (.autotrimMeasure 20 0 0) ready = .next r) ∧
    (∃ r, exec (.rtcSecondStrobe 20) ready = .next r) ∧
    (∃ r, exec (.ppsEdge 20 {}) ready = .next r) ∧
    (∃ r, exec (.ppsWindowMiss 20) ready = .next r) ∧
    (∃ r, exec (.timeSet 20 {} 0) ready = .next r) ∧
    (∃ r, exec (.timeOfDay 20 0) ready = .next r) ∧
    (∃ r, exec (.ppsOutStart 20) ready = .next r) ∧
    (∃ r, exec (.ppsOutEnd 20) ready = .next r) ∧
    (∃ r, exec (.hostAnchor 20 {} 0 0 0 0) ready = .next r) ∧
    (∃ r, exec (.hostAnchorMsg 20 0 0 0 0) ready = .next r) ∧
    (∃ r, exec (.sequencerTransition 20 3) ready = .next r) ∧
    (∃ r, exec (.seqTimerExpiry 20 3) ready = .next r) ∧
    (∃ r, exec (.meshEvent 20 0) ready = .next r) ∧
    (∃ r, exec (.trigger 20 {} 0) ready = .next r) ∧
    (∃ r, exec (.triggerMsg 20 0) ready = .next r) ∧
    (∃ r, exec (.trigInEdge 20 0 false) ready = .next r) ∧
    (∃ r, exec (.trigOutPulseEnd 20 0) ready = .next r) ∧
    (∃ r, exec (.pinFunctionSwitch 20 0 false) ready = .next r) ∧
    (∃ r, exec (.holdChange 20 false false) ready = .next r) ∧
    (∃ r, exec (.holdWindowExpiry 20) ready = .next r) ∧
    (∃ r, exec (.holdUnlock 20) ready = .next r) ∧
    (∃ r, exec (.trigPpsEdge 20 0) ready = .next r) ∧
    (∃ r, exec (.vbatPowerOn 20) ready = .next r) :=
  ⟨rfl, ⟨_, rfl⟩, ⟨_, rfl⟩, ⟨_, rfl⟩, ⟨_, rfl⟩, ⟨_, rfl⟩, ⟨_, rfl⟩, ⟨_, rfl⟩, ⟨_, rfl⟩, ⟨_, rfl⟩, ⟨_, rfl⟩, ⟨_, rfl⟩, ⟨_, rfl⟩,
    ⟨_, rfl⟩, ⟨_, rfl⟩, ⟨_, rfl⟩, ⟨_, rfl⟩, ⟨_, rfl⟩, ⟨_, rfl⟩, ⟨_, rfl⟩, ⟨_, rfl⟩, ⟨_, rfl⟩, ⟨_, rfl⟩, ⟨_, rfl⟩, ⟨_, rfl⟩,
    ⟨_, rfl⟩, ⟨_, rfl⟩, ⟨_, rfl⟩, ⟨_, rfl⟩⟩

/-! ## FrameAnalysis -/

theorem wit_FrameAnalysis : ready.sramW = [] ∧ (∃ r, exec (.journalCheckpoint 20) ready = .next r) ∧
    (∃ r, exec (.progressSend 20 3) ready = .next r) ∧
    (∃ r, exec (.progressReceive 20 3) ready = .next r) ∧
    (∃ r, exec (.silentTimeout 20 3) ready = .next r) ∧
    (∃ r, exec (.ledgerIngest 20) ready = .next r) ∧
    (∃ r, exec (.eventRelease 20) ready = .next r) ∧
    (∃ r, exec (.flowEvict 20) ready = .next r) ∧
    (∃ r, exec (.ledgerCatchupDone 20) ready = .next r) ∧
    (∃ r, exec (.ledgerEnable 20 .a 0) ready = .next r) ∧
    (∃ r, exec (.ledgerDisable 20 .a 0) ready = .next r) ∧
    (∃ r, exec (.watchArm 20 {} {}) ready = .next r) ∧
    (∃ r, exec (.watchRemove 20 {} 0) ready = .next r) ∧
    (∃ r, exec (.watchEffect 20 0) ready = .next r) ∧
    (∃ r, exec (.watchRetire 20 0) ready = .next r) ∧
    (∃ r, exec (.exclLock 20 .a 0) ready = .next r) ∧
    (∃ r, exec (.tensorWatchEnable 20 .a 0) ready = .next r) ∧
    (∃ r, exec (.churnEnable 20 .a 0) ready = .next r) ∧
    (∃ r, exec (.churnIngest 20) ready = .next r) ∧
    (∃ r, exec (.churnWindowClose 20) ready = .next r) ∧
    (∃ r, exec (.sketchPartial 20 3 0) ready = .next r) ∧
    (∃ r, exec (.partialTimeout 20 0) ready = .next r) ∧
    (∃ r, exec (.detectorWindowClose 20 0) ready = .next r) ∧
    (∃ r, exec (.exploadWindowBegin 20) ready = .next r) ∧
    (∃ r, exec (.exploadWindowClose 20) ready = .next r) ∧
    (∃ r, exec (.query 20 {} {}) ready = .next r) ∧
    (∃ r, exec (.queryAnswer 20 0) ready = .next r) ∧
    (∃ r, exec (.queryWaitTimeout 20 0) ready = .next r) ∧
    (∃ r, exec (.semRequest 20 .a 0) ready = .next r) ∧
    (∃ r, exec (.semRelease 20 .a 0) ready = .next r) ∧
    (∃ r, exec (.leaseExpiry 20) ready = .next r) ∧
    (∃ r, exec (.sketchStreamBoundary 20 3 0) ready = .next r) :=
  ⟨rfl, ⟨_, rfl⟩, ⟨_, rfl⟩, ⟨_, rfl⟩, ⟨_, rfl⟩, ⟨_, rfl⟩, ⟨_, rfl⟩, ⟨_, rfl⟩, ⟨_, rfl⟩, ⟨_, rfl⟩, ⟨_, rfl⟩, ⟨_, rfl⟩, ⟨_, rfl⟩,
    ⟨_, rfl⟩, ⟨_, rfl⟩, ⟨_, rfl⟩, ⟨_, rfl⟩, ⟨_, rfl⟩, ⟨_, rfl⟩, ⟨_, rfl⟩, ⟨_, rfl⟩, ⟨_, rfl⟩, ⟨_, rfl⟩, ⟨_, rfl⟩, ⟨_, rfl⟩,
    ⟨_, rfl⟩, ⟨_, rfl⟩, ⟨_, rfl⟩, ⟨_, rfl⟩, ⟨_, rfl⟩, ⟨_, rfl⟩, ⟨_, rfl⟩⟩

/-! ## FrameContexts -/

theorem wit_FrameContexts : ready.sramW = [] ∧ (∃ r, exec (.nop 20 {}) ready = .next r) ∧
    (∃ r, exec (.abort 20 {} 0) ready = .next r) ∧
    (∃ r, exec (.subscribe 20 {} 0 {}) ready = .next r) ∧
    (∃ r, exec (.unsubscribe 20 {} 0) ready = .next r) ∧
    (∃ r, exec (.ctxOpen 20 {} {}) ready = .next r) ∧
    (∃ r, exec (.ctxModify 20 {} {}) ready = .next r) ∧
    (∃ r, exec (.ctxClose 20 {} 0) ready = .next r) ∧
    (∃ r, exec (.dbCmd 20 .a false 0 0) ready = .next r) ∧
    (∃ r, exec (.dbCpl 20 .a false 0 0) ready = .next r) ∧
    (∃ r, exec (.dbRec 20 .a false 0 0 0) ready = .next r) ∧
    (∃ r, exec (.descriptorFetch 20 0 []) ready = .next r) ∧
    (∃ r, exec (.logWriteComplete 20 0 0 none) ready = .next r) ∧
    (∃ r, exec (.completionSignalTimeout 20 0) ready = .next r) ∧
    (∃ r, exec (.hostReadError 20 0 false) ready = .next r) ∧
    (∃ r, exec (.contextRun 20 .a false 0) ready = .next r) ∧
    (∃ r, exec (.contextStop 20 .a false 0) ready = .next r) ∧
    (∃ r, exec (.commandLogEnable 20 .a 0) ready = .next r) ∧
    (∃ r, exec (.msixUnmask 20 0) ready = .next r) ∧
    (∃ r, exec (.keyRegister 20 {} 0 none) ready = .next r) ∧
    (∃ r, exec (.keyRevoke 20 {} 0) ready = .next r) ∧
    (∃ r, exec (.sealPubkey 20 {} 0 false) ready = .next r) ∧
    (∃ r, exec (.disclose 20 {} 0 0 false) ready = .next r) ∧
    (∃ r, exec (.tenantAttach 20 {} 0) ready = .next r) ∧
    (∃ r, exec (.tenantDetach 20 {}) ready = .next r) ∧
    (∃ r, exec (.tenantChangeSignal 20) ready = .next r) ∧
    (∃ r, exec (.scrubStep 20) ready = .next r) ∧
    (∃ r, exec (.sealOpComplete 20 false) ready = .next r) ∧
    (∃ r, exec (.sealPeriod 20) ready = .next r) ∧
    (∃ r, exec (.tdiStateChange 20 .run) ready = .next r) :=
  ⟨rfl, ⟨_, rfl⟩, ⟨_, rfl⟩, ⟨_, rfl⟩, ⟨_, rfl⟩, ⟨_, rfl⟩, ⟨_, rfl⟩, ⟨_, rfl⟩, ⟨_, rfl⟩, ⟨_, rfl⟩, ⟨_, rfl⟩, ⟨_, rfl⟩, ⟨_, rfl⟩,
    ⟨_, rfl⟩, ⟨_, rfl⟩, ⟨_, rfl⟩, ⟨_, rfl⟩, ⟨_, rfl⟩, ⟨_, rfl⟩, ⟨_, rfl⟩, ⟨_, rfl⟩, ⟨_, rfl⟩, ⟨_, rfl⟩, ⟨_, rfl⟩, ⟨_, rfl⟩,
    ⟨_, rfl⟩, ⟨_, rfl⟩, ⟨_, rfl⟩, ⟨_, rfl⟩, ⟨_, rfl⟩⟩

/-! ## FramePlans -/

theorem wit_FramePlans : ready.sramW = [] ∧ (∃ r, exec (.planBegin 20 {} 0) ready = .next r) ∧
    (∃ r, exec (.planStage 20 {} [] none) ready = .next r) ∧
    (∃ r, exec (.planCommit 20 {} 0) ready = .next r) ∧
    (∃ r, exec (.planRollback 20 {} false) ready = .next r) ∧
    (∃ r, exec (.opBegin 20 .a) ready = .next r) ∧
    (∃ r, exec (.opCommit 20 .a) ready = .next r) ∧
    (∃ r, exec (.opRollback 20 .a false) ready = .next r) ∧
    (∃ r, exec (.prepareReceived 20 3) ready = .next r) ∧
    (∃ r, exec (.readyReceived 20 3 0) ready = .next r) ∧
    (∃ r, exec (.commitGo 20) ready = .next r) ∧
    (∃ r, exec (.goReceived 20 3) ready = .next r) ∧
    (∃ r, exec (.stationSwap 20 3) ready = .next r) ∧
    (∃ r, exec (.commitCheck 20) ready = .next r) ∧
    (∃ r, exec (.rollbackBoundary 20) ready = .next r) ∧
    (∃ r, exec (.rollbackReceived 20 3) ready = .next r) :=
  ⟨rfl, ⟨_, rfl⟩, ⟨_, rfl⟩, ⟨_, rfl⟩, ⟨_, rfl⟩, ⟨_, rfl⟩, ⟨_, rfl⟩, ⟨_, rfl⟩, ⟨_, rfl⟩, ⟨_, rfl⟩, ⟨_, rfl⟩, ⟨_, rfl⟩, ⟨_, rfl⟩,
    ⟨_, rfl⟩, ⟨_, rfl⟩, ⟨_, rfl⟩⟩

/-! ## FrameMessages -/

theorem wit_FrameMessages : ready.sramW = [] ∧ (∃ r, exec (.sramRead 20 0 0) ready = .next r) ∧
    (∃ r, exec (.sramWrite 20 0 []) ready = .next r) ∧
    (∃ r, exec (.doorbell 20 0 0 0) ready = .next r) ∧
    (∃ r, exec (.setNotify 20 0 0) ready = .next r) ∧
    (∃ r, exec (.noticeResend 20 0) ready = .next r) ∧
    (∃ r, exec (.mctpControl 20 0 []) ready = .next r) ∧
    (∃ r, exec (.mbxPost 20 .a 0 0 false) ready = .next r) ∧
    (∃ r, exec (.mbxAck 20 .a 0 0) ready = .next r) ∧
    (∃ r, exec (.mbxAckqRead 20 .a 0) ready = .next r) ∧
    (∃ r, exec (.ping 20 0) ready = .next r) ∧
    (∃ r, exec (.fwInfo 20 0 false) ready = .next r) ∧
    (∃ r, exec (.fwStage 20 0 none false) ready = .next r) ∧
    (∃ r, exec (.fwActivate 20 0) ready = .next r) ∧
    (∃ r, exec (.diagRun 20 0) ready = .next r) ∧
    (∃ r, exec (.oasisDump 20 0 false) ready = .next r) ∧
    (∃ r, exec (.console 20 0 0 [] []) ready = .next r) ∧
    (∃ r, exec (.oasisClear 20 .a 0) ready = .next r) ∧
    (∃ r, exec (.noticeResponse 20 0) ready = .next r) :=
  ⟨rfl, ⟨_, rfl⟩, ⟨_, rfl⟩, ⟨_, rfl⟩, ⟨_, rfl⟩, ⟨_, rfl⟩, ⟨_, rfl⟩, ⟨_, rfl⟩, ⟨_, rfl⟩, ⟨_, rfl⟩, ⟨_, rfl⟩, ⟨_, rfl⟩, ⟨_, rfl⟩,
    ⟨_, rfl⟩, ⟨_, rfl⟩, ⟨_, rfl⟩, ⟨_, rfl⟩, ⟨_, rfl⟩, ⟨_, rfl⟩⟩

/-! ## FrameNode -/

theorem wit_FrameNode : ready.sramW = [] ∧ (∃ r, exec (.syncPortTrained 20 0 0 0) ready = .next r) ∧
    (∃ r, exec (.nodeTimeExchange 20 0 0 []) ready = .next r) ∧
    (∃ r, exec (.nodeProbe 20 0) ready = .next r) ∧
    (∃ r, exec (.nodeStepOrder 20 0 0 false) ready = .next r) ∧
    (∃ r, exec (.trigBlockReceived 20 0 0 0 0 false) ready = .next r) ∧
    (∃ r, exec (.syncReplayRequest 20 0 0) ready = .next r) ∧
    (∃ r, exec (.beaconSend 20) ready = .next r) ∧
    (∃ r, exec (.beaconReceived 20 0 {}) ready = .next r) ∧
    (∃ r, exec (.beaconTimeout 20 0) ready = .next r) ∧
    (∃ r, exec (.headClaim 20 .a 0) ready = .next r) ∧
    (∃ r, exec (.nodeProgress 20) ready = .next r) ∧
    (∃ r, exec (.recFrameReceived 20 0 (.lapped 0 0)) ready = .next r) ∧
    (∃ r, exec (.nodePlace 20) ready = .next r) ∧
    (∃ r, exec (.nodeAckReceived 20 0) ready = .next r) ∧
    (∃ r, exec (.boundaryReport 20 0 0 0) ready = .next r) ∧
    (∃ r, exec (.nodeSnapshot 20 .a) ready = .next r) ∧
    (∃ r, exec (.nodeCommit 20 .a 0 0) ready = .next r) ∧
    (∃ r, exec (.nodeGoDecision 20) ready = .next r) ∧
    (∃ r, exec (.nodeReportDeadline 20 false) ready = .next r) ∧
    (∃ r, exec (.nodeRollback 20) ready = .next r) ∧
    (∃ r, exec (.nodeQueryTimeout 20 0) ready = .next r) ∧
    (∃ r, exec (.syncLinkLoss 20 0) ready = .next r) ∧
    (∃ r, exec (.nodePrepareReceived 20 0) ready = .next r) ∧
    (∃ r, exec (.nodeReadyReceived 20 0) ready = .next r) ∧
    (∃ r, exec (.nodeGoReceived 20 false) ready = .next r) ∧
    (∃ r, exec (.nodeSwapReportReceived 20 0 0) ready = .next r) ∧
    (∃ r, exec (.nodeSnapshotReceived 20 0 0) ready = .next r) ∧
    (∃ r, exec (.nodeQueryReceived 20 0 {}) ready = .next r) ∧
    (∃ r, exec (.nodeQueryAnswerReceived 20 0 0 {}) ready = .next r) ∧
    (∃ r, exec (.nodeProgressReceived 20 0 0) ready = .next r) ∧
    (∃ r, exec (.nodeStepReceived 20 0 0) ready = .next r) :=
  ⟨rfl, ⟨_, rfl⟩, ⟨_, rfl⟩, ⟨_, rfl⟩, ⟨_, rfl⟩, ⟨_, rfl⟩, ⟨_, rfl⟩, ⟨_, rfl⟩, ⟨_, rfl⟩, ⟨_, rfl⟩, ⟨_, rfl⟩, ⟨_, rfl⟩, ⟨_, rfl⟩,
    ⟨_, rfl⟩, ⟨_, rfl⟩, ⟨_, rfl⟩, ⟨_, rfl⟩, ⟨_, rfl⟩, ⟨_, rfl⟩, ⟨_, rfl⟩, ⟨_, rfl⟩, ⟨_, rfl⟩, ⟨_, rfl⟩, ⟨_, rfl⟩, ⟨_, rfl⟩,
    ⟨_, rfl⟩, ⟨_, rfl⟩, ⟨_, rfl⟩, ⟨_, rfl⟩, ⟨_, rfl⟩, ⟨_, rfl⟩, ⟨_, rfl⟩⟩

/-! ## FrameEgress -/

theorem wit_FrameEgress : ready.sramW = [] ∧ (∃ r, exec (.meshParityError 20 0) ready = .next r) ∧
    (∃ r, exec (.channelError 20 0) ready = .next r) ∧
    (∃ r, exec (.channelRetryResult 20 0 false) ready = .next r) ∧
    (∃ r, exec (.channelWindowClose 20 0) ready = .next r) ∧
    (∃ r, exec (.channelRestore 20 .a) ready = .next r) ∧
    (∃ r, exec (.channelRestoreDone 20 0 false) ready = .next r) ∧
    (∃ r, exec (.channelRetire 20 .a) ready = .next r) ∧
    (∃ r, exec (.streamStart 20 .a 0 0) ready = .next r) ∧
    (∃ r, exec (.streamEnd 20 .a 0 0) ready = .next r) ∧
    (∃ r, exec (.caravanSend 20 0) ready = .next r) ∧
    (∃ r, exec (.caravanAck 20 0 0 0 0 0 0) ready = .next r) ∧
    (∃ r, exec (.retransmitTimeout 20 0 0) ready = .next r) ∧
    (∃ r, exec (.streamStall 20 0) ready = .next r) ∧
    (∃ r, exec (.egressFrameRx 20 {}) ready = .next r) ∧
    (∃ r, exec (.neighborSolicitation 20 0) ready = .next r) ∧
    (∃ r, exec (.subportUp 20 0) ready = .next r) ∧
    (∃ r, exec (.portRestart 20) ready = .next r) ∧
    (∃ r, exec (.grayEnable 20 .a 0) ready = .next r) ∧
    (∃ r, exec (.grayDisable 20 .a 0) ready = .next r) ∧
    (∃ r, exec (.grayPlace 20) ready = .next r) ∧
    (∃ r, exec (.grayRptrWrite 20 .a 0) ready = .next r) ∧
    (∃ r, exec (.egressLinkDown 20 0) ready = .next r) :=
  ⟨rfl, ⟨_, rfl⟩, ⟨_, rfl⟩, ⟨_, rfl⟩, ⟨_, rfl⟩, ⟨_, rfl⟩, ⟨_, rfl⟩, ⟨_, rfl⟩, ⟨_, rfl⟩, ⟨_, rfl⟩, ⟨_, rfl⟩, ⟨_, rfl⟩, ⟨_, rfl⟩,
    ⟨_, rfl⟩, ⟨_, rfl⟩, ⟨_, rfl⟩, ⟨_, rfl⟩, ⟨_, rfl⟩, ⟨_, rfl⟩, ⟨_, rfl⟩, ⟨_, rfl⟩, ⟨_, rfl⟩, ⟨_, rfl⟩⟩

/-! ## FrameUnit -/

theorem wit_FrameUnit : ready.sramW = [] ∧ (∃ r, exec (.rwpWrite 20 .a 0 0 0 0) ready = .next r) ∧
    (∃ r, exec (.autocommitWrite 20 .a 0 0) ready = .next r) ∧
    (∃ r, exec (.registerWrite 20 .a false 0 0 0 0) ready = .next r) ∧
    (∃ r, exec (.regRead 20 0 0) ready = .next r) ∧
    (∃ r, exec (.regWrite 20 []) ready = .next r) ∧
    (∃ r, exec (.coldReset 20 false false false) ready = .next r) ∧
    (∃ r, exec (.rstN 20) ready = .next r) ∧
    (∃ r, exec (.warmrst 20 .a) ready = .next r) ∧
    (∃ r, exec (.hubPairResume 20 false false false) ready = .next r) ∧
    (∃ r, exec (.stationResetEntry 20 3) ready = .next r) ∧
    (∃ r, exec (.stationResetExit 20 3) ready = .next r) ∧
    (∃ r, exec (.stationReload 20 3) ready = .next r) ∧
    (∃ r, exec (.portAReset 20) ready = .next r) ∧
    (∃ r, exec (.portBReset 20) ready = .next r) ∧
    (∃ r, exec (.jobRestartSignal 20) ready = .next r) ∧
    (∃ r, exec (.jobRestartBoundary 20) ready = .next r) ∧
    (∃ r, exec (.heartbeatTimeout 20) ready = .next r) ∧
    (∃ r, exec (.hubSelfFault 20 0) ready = .next r) ∧
    (∃ r, exec (.switch 20 .a) ready = .next r) ∧
    (∃ r, exec (.fenceConfirm 20) ready = .next r) ∧
    (∃ r, exec (.fenceTimeout 20) ready = .next r) ∧
    (∃ r, exec (.hubRejoin 20) ready = .next r) ∧
    (∃ r, exec (.serviceCoreFault 20 0 0 0 0) ready = .next r) ∧
    (∃ r, exec (.coreHalt 20 .a 0) ready = .next r) ∧
    (∃ r, exec (.sramUncorr 20 0 0 0) ready = .next r) ∧
    (∃ r, exec (.powerLoss 20) ready = .next r) ∧
    (∃ r, exec (.kxaccAccess 20 0 0 0) ready = .next r) ∧
    (∃ r, exec (.portAFatalError 20) ready = .next r) ∧
    (∃ r, exec (.standbyHubLoss 20) ready = .next r) ∧
    (∃ r, exec (.porstNAssert 20) ready = .next r) ∧
    (∃ r, exec (.retentionSupplyLoss 20) ready = .next r) :=
  ⟨rfl, ⟨_, rfl⟩, ⟨_, rfl⟩, ⟨_, rfl⟩, ⟨_, rfl⟩, ⟨_, rfl⟩, ⟨_, rfl⟩, ⟨_, rfl⟩, ⟨_, rfl⟩, ⟨_, rfl⟩, ⟨_, rfl⟩, ⟨_, rfl⟩, ⟨_, rfl⟩,
    ⟨_, rfl⟩, ⟨_, rfl⟩, ⟨_, rfl⟩, ⟨_, rfl⟩, ⟨_, rfl⟩, ⟨_, rfl⟩, ⟨_, rfl⟩, ⟨_, rfl⟩, ⟨_, rfl⟩, ⟨_, rfl⟩, ⟨_, rfl⟩, ⟨_, rfl⟩,
    ⟨_, rfl⟩, ⟨_, rfl⟩, ⟨_, rfl⟩, ⟨_, rfl⟩, ⟨_, rfl⟩, ⟨_, rfl⟩, ⟨_, rfl⟩⟩

end Sys2Proof.Tests
end

section
/-!
SUPPORT. What forming a record at a hub internal source changes: the sources and the journal's pool, and nothing else (06_admission R136-R138).
-/

namespace Sys2Proof.Machine

/-- Only the hub internal sources and the journal differ. -/
def SrcJrnOnly (s x : State) : Prop := ∃ sr j, x = { s with srcs := sr, jrn := j }

theorem SrcJrnOnly.refl (s : State) : SrcJrnOnly s s := ⟨s.srcs, s.jrn, rfl⟩

theorem SrcJrnOnly.trans {s x y : State} (h : SrcJrnOnly s x) (g : SrcJrnOnly x y) : SrcJrnOnly s y := by
  obtain ⟨a, b, rfl⟩ := h
  obtain ⟨c, d, rfl⟩ := g
  exact ⟨c, d, rfl⟩

theorem srcJrnOnly_foldl {α : Type} (f : State → α → State) (h : ∀ s a, SrcJrnOnly s (f s a)) (l : List α) (s : State) :
    SrcJrnOnly s (l.foldl f s) :=
  List.foldlRecOn l f (SrcJrnOnly.refl s) fun x hx a _ => hx.trans (h x a)

theorem srcJrnOnly_modSrc (s : State) (k : Nat) (f : HubSrc → HubSrc) : SrcJrnOnly s (s.modSrc k f) := ⟨_, s.jrn, rfl⟩

theorem srcJrnOnly_fillPool (s : State) (u : Nat) (c : Curd) : SrcJrnOnly s (s.fillPool u c) := ⟨s.srcs, _, rfl⟩

theorem srcJrnOnly_pumpSrc (s : State) (k : Nat) : SrcJrnOnly s (s.pumpSrc k) := by
  unfold State.pumpSrc
  split
  · exact SrcJrnOnly.refl s
  · dsimp only
    split
    · exact SrcJrnOnly.refl s
    · split
      · exact srcJrnOnly_modSrc s k _
      · exact ⟨_, _, rfl⟩

theorem srcJrnOnly_closeSrc (s : State) (k : Nat) (cause : BitVec 2) : SrcJrnOnly s (s.closeSrc k cause) := by
  unfold State.closeSrc
  split
  · exact SrcJrnOnly.refl s
  · exact (srcJrnOnly_modSrc s k _).trans (srcJrnOnly_pumpSrc _ k)

theorem srcJrnOnly_storeSrc (s : State) (k : Nat) (r : Record) : SrcJrnOnly s (s.storeSrc k r).1 := by
  have opened : ∀ (x : State) (p : Prop) [Decidable p] (f : HubSrc → HubSrc),
      SrcJrnOnly x (if p then (x, false) else (x.modSrc k f, true)).1 := by
    intro x p _ f
    split
    · exact SrcJrnOnly.refl x
    · exact srcJrnOnly_modSrc x k f
  unfold State.storeSrc
  dsimp only
  split
  · split
    · exact ⟨_, s.jrn, rfl⟩
    · exact (srcJrnOnly_closeSrc s k closeFull).trans (opened _ _ _)
  · exact opened s _ _

theorem srcJrnOnly_numberSrc (s : State) (k : Nat) (r : Record) : SrcJrnOnly s (s.numberSrc k r).1 := ⟨_, s.jrn, rfl⟩

theorem srcJrnOnly_flushSrcGaps (s : State) (k : Nat) (p : GapAcc → Bool) : SrcJrnOnly s (s.flushSrcGaps k p) := by
  refine srcJrnOnly_foldl _ (fun s g => ?_) _ s
  dsimp only
  split
  · exact ((srcJrnOnly_numberSrc s k _).trans (srcJrnOnly_storeSrc _ k _)).trans (srcJrnOnly_modSrc _ k _)
  · exact srcJrnOnly_modSrc s k _

theorem srcJrnOnly_leaveGap (cause : BitVec 2) (k : Nat) (s : State) (g : GapAcc) : SrcJrnOnly s (State.leaveGap cause k s g) := by
  unfold State.leaveGap
  dsimp only
  split
  · exact (srcJrnOnly_closeSrc s k cause).trans (srcJrnOnly_flushSrcGaps _ k _)
  · exact srcJrnOnly_flushSrcGaps s k _

theorem srcJrnOnly_leaveSrc (s : State) (k : Nat) (cause : BitVec 2) : SrcJrnOnly s (s.leaveSrc k cause) :=
  ((srcJrnOnly_foldl _ (srcJrnOnly_leaveGap cause k) _ s).trans (srcJrnOnly_closeSrc _ k cause)).trans (srcJrnOnly_modSrc _ k _)

theorem srcJrnOnly_enterEpoch (s : State) (k : Nat) (r : Record) : SrcJrnOnly s (s.enterEpoch k r) := by
  unfold State.enterEpoch
  dsimp only
  split
  · exact SrcJrnOnly.refl s
  · refine SrcJrnOnly.trans ?_ (srcJrnOnly_modSrc _ 0 _)
    split
    · exact srcJrnOnly_leaveSrc s 0 _
    · exact SrcJrnOnly.refl s

/-- The GAP records in wait are flushed unless the record is an EPOCH record, which goes ahead of them. -/
theorem srcJrnOnly_acceptSrc (s : State) (k : Nat) (r : Record) : SrcJrnOnly s (s.acceptSrc k r) := by
  have numbered : SrcJrnOnly s
      ((if r.ty == .epoch then s.enterEpoch k r else (s.enterEpoch k r).flushSrcGaps k (·.due)).numberSrc k r).1 := by
    refine (srcJrnOnly_enterEpoch s k r).trans (SrcJrnOnly.trans ?_ (srcJrnOnly_numberSrc _ k r))
    split
    · exact SrcJrnOnly.refl _
    · exact srcJrnOnly_flushSrcGaps _ k _
  have lost : ∀ (x : State) (f : HubSrc → HubSrc) (p : GapAcc → Bool), SrcJrnOnly x ((x.modSrc k f).flushSrcGaps k p) :=
    fun x f p => (srcJrnOnly_modSrc x k f).trans (srcJrnOnly_flushSrcGaps _ k p)
  unfold State.acceptSrc
  dsimp only
  generalize State.numberSrc _ k r = x at numbered ⊢
  obtain ⟨y, r⟩ := x
  refine numbered.trans ?_
  split
  · exact ((srcJrnOnly_modSrc y k _).trans (srcJrnOnly_modSrc _ k _)).trans (lost _ _ _)
  · split
    · exact ((srcJrnOnly_modSrc y k _).trans (srcJrnOnly_storeSrc _ k r)).trans (srcJrnOnly_flushSrcGaps _ k _)
    · exact ((srcJrnOnly_modSrc y k _).trans (srcJrnOnly_storeSrc _ k r)).trans (lost _ _ _)

/-- A record of the hub's own changes its source and the journal alone. -/
theorem srcJrnOnly_hubRec (s : State) (k : Nat) (r : Record) : SrcJrnOnly s (s.hubRec k r) := by
  unfold State.hubRec
  split
  · exact SrcJrnOnly.refl s
  · split
    · exact srcJrnOnly_modSrc s k _
    · exact srcJrnOnly_acceptSrc s k r

/-- A pinned EVENT fault does so too. -/
theorem srcJrnOnly_faultEvent (s : State) (cls chan wh d0 evft d1 d2 : Nat) :
    SrcJrnOnly s (s.faultEvent cls chan wh d0 evft d1 d2) := srcJrnOnly_hubRec s 6 _

end Sys2Proof.Machine
end

section
/-!
SUPPORT. What every step does to the queue and the integration constants. A command of the common shape settles, which puts both back;
COLD_RESET alone does not settle, so its cold start is followed part by part.
-/

namespace Sys2Proof.Machine

/-- The queue and the integration constants are the same. -/
def SameQueue (s x : State) : Prop := x.pending = s.pending ∧ x.integ = s.integ

theorem SameQueue.refl (s : State) : SameQueue s s := ⟨rfl, rfl⟩

theorem SameQueue.trans {s x y : State} (h : SameQueue s x) (g : SameQueue x y) : SameQueue s y :=
  ⟨g.1.trans h.1, g.2.trans h.2⟩

theorem sameQueue_settle (s x : State) : SameQueue s (settle s x) := ⟨settle_pending s x, settle_integ s x⟩

theorem SrcJrnOnly.sameQueue {s x : State} (h : SrcJrnOnly s x) : SameQueue s x := by
  obtain ⟨sr, j, rfl⟩ := h
  exact SameQueue.refl s

theorem sameQueue_draws (k : Nat) (s : State) : SameQueue s (State.draws k s).2 := by
  induction k generalizing s with
  | zero => exact SameQueue.refl s
  | succ k ih => exact (ih s).trans ⟨rfl, rfl⟩

theorem sameQueue_ite {c : Prop} [Decidable c] {s x y : State} (h : SameQueue s x) (g : SameQueue s y) :
    SameQueue s (if c then x else y) := by
  split
  · exact h
  · exact g

theorem sameQueue_setStns (x : Stn) (l : List Nat) (s : State) : SameQueue s (l.foldl (fun (s : State) n => s.setStn n x) s) :=
  List.foldlRecOn l _ (SameQueue.refl s) fun _ hy _ _ => hy.trans ⟨rfl, rfl⟩

theorem sameQueue_fwFallback (s : State) : SameQueue s s.fwFallback := by
  let fell : State := ({ s with fw := { s.fw with active := s.fw.prev } } : State).measChange
  have fallen : SameQueue s fell := ⟨rfl, rfl⟩
  exact (fallen.trans (sameQueue_draws 2 _)).trans (srcJrnOnly_faultEvent _ _ _ _ _ _ _ _).sameQueue

theorem sameQueue_keygenEnd (s : State) (o : SealOp) : SameQueue s (s.keygenEnd o) := by
  unfold State.keygenEnd
  dsimp only
  split
  · exact ⟨rfl, rfl⟩
  · exact ⟨rfl, rfl⟩

theorem sameQueue_rejoin (s : State) : SameQueue s s.rejoin := by
  unfold State.rejoin
  split
  · exact SameQueue.refl s
  · exact ⟨rfl, rfl⟩

/-- A cold start takes the queue and the integration constants over (log entry 39). -/
theorem sameQueue_coldStart (s : State) (t : Nat) (verA verB prevOk : Bool) : SameQueue s (s.coldStart t verA verB prevOk) := by
  unfold State.coldStart
  extract_lets now cleared board slot
  have based : SameQueue s slot := ⟨rfl, rfl⟩
  split
  · exact based
  · rename_i active both prev _
    extract_lets on started image keyed sealed
    have hstarted : SameQueue s started := based.trans (sameQueue_setStns _ _ on)
    have himage : SameQueue s image := hstarted.trans (sameQueue_ite (sameQueue_fwFallback started) (SameQueue.refl started))
    have hkeyed : SameQueue s keyed := himage.trans (sameQueue_keygenEnd image _)
    exact hkeyed.trans (sameQueue_ite (sameQueue_rejoin sealed) ⟨rfl, rfl⟩)

/-- Every command leaves the queue it is given and the integration constants as they are. -/
theorem sameQueue_exec (i : Instr) (s r : State) (h : exec i s = .next r) : SameQueue s r := by
  by_cases hc : ∃ t a b p, i = .coldReset t a b p
  · obtain ⟨t, a, b, p, rfl⟩ := hc
    obtain rfl : s.coldStart t a b p = r := Host.Outcome.next.inj h
    exact sameQueue_coldStart s t a b p
  · obtain ⟨t, f, e⟩ := exec_shaped i s fun t a b p hi => hc ⟨t, a, b, p, hi⟩
    obtain rfl : settle s (f (s.advance t)) = r := Host.Outcome.next.inj (e.symm.trans h)
    exact sameQueue_settle s _

/-- The empty queue idles (log entry 1). -/
theorem step_nil (s : State) (h : s.pending = []) : step s = .next s := by
  unfold step; rw [h]

/-- The command at the front is run with the rest of the queue. -/
theorem step_cons (s : State) (i : Instr) (rest : List Instr) (h : s.pending = i :: rest) :
    step s = exec i { s with pending := rest } := by
  unfold step; rw [h]

/-- Settles O2: the empty queue idles, and a command leaves the queue's rest, with which it is run, as it is. -/
theorem queueKept : Obligations.QueueKept := by
  unfold Obligations.QueueKept
  intro s r h
  cases hp : s.pending with
  | nil =>
    obtain rfl : s = r := Host.Outcome.next.inj ((step_nil s hp).symm.trans h)
    exact ⟨hp, rfl, fun _ => rfl⟩
  | cons i rest =>
    obtain ⟨hpending, hinteg⟩ := sameQueue_exec i _ r ((step_cons s i rest hp).symm.trans h)
    exact ⟨hpending, hinteg, fun hn => absurd hn (List.cons_ne_nil i rest)⟩

end Sys2Proof.Machine
end

section
/-!
SUPPORT. Frames, part by part: what the end of a command and an answer add to what a meaning has changed.
-/

namespace Sys2Proof.Machine

open Sys2Proof.Safety

/-- FT does not go back as a command begins. -/
theorem now_le_advance (s : State) (t : Nat) : s.clk.now ≤ (s.advance t).clk.now := by
  unfold State.advance
  split
  · exact Nat.le_refl _
  · exact Nat.le_max_left _ _

theorem only_refl (ps : List Part) (s : State) : Only ps s s := by
  intro p _; cases p <;> rfl

theorem only_dbg (s : State) (d : Dbg) : Only [.dbg] s { s with dbg := d } := by
  intro p hp
  cases p
  case dbg => exact absurd List.mem_cons_self hp
  all_goals rfl

/-- An answer is one more of what has left the unit. -/
theorem only_emit {ps : List Part} {s x : State} (h : Only ps s x) (hm : .out ∈ ps) (o : Out) : Only ps s (x.emit o) := by
  intro p hp
  have same := h p hp
  cases p
  case out => exact absurd hm hp
  all_goals exact same

/-- A meaning that wrote no SRAM has its frame kept by the end of the command. -/
theorem only_settle {ps : List Part} {s x : State} {t : Nat} (h : Only ps (s.advance t) x) (hw : .sramW ∉ ps) (hs : s.sramW = []) :
    Only ps (s.advance t) (settle s x) := by
  have unwritten : x.sramW = [] := (h .sramW hw).trans ((State.advance_sramW s t).trans hs)
  intro p hp
  have same := h p hp
  cases p
  case pending => exact (State.advance_pending s t).symm
  case integ => exact (State.advance_integ s t).symm
  case sram =>
    refine (settle_sram s x).trans ?_
    rw [unwritten]
    exact (State.advance_sram s t).symm
  case sramW => exact ((State.advance_sramW s t).trans hs).symm
  case clk =>
    have now : max s.clk.now x.clk.now = x.clk.now := Nat.max_eq_right (congrArg Clk.now same ▸ now_le_advance s t)
    refine (settle_clk s x).trans ?_
    rw [now]
    exact same
  all_goals exact same

end Sys2Proof.Machine
end

section
/-!
SUPPORT. What the release of a lease that has run out changes (11_management R262).
-/

namespace Sys2Proof.Machine

/-- Only the lease, the plan, registers, hub records and the notes of contexts that they lost the lease differ. -/
def Released (s x : State) : Prop :=
  (∃ l p cx rg hw sr j, x = { s with lease := l, plan := p, ctxs := cx, regs := rg, hw := hw, srcs := sr, jrn := j }) ∧
    ∀ c, ∃ lost, x.ctx c = { s.ctx c with leaseLost := lost }

theorem Released.refl (s : State) : Released s s :=
  ⟨⟨s.lease, s.plan, s.ctxs, s.regs, s.hw, s.srcs, s.jrn, rfl⟩, fun c => ⟨(s.ctx c).leaseLost, rfl⟩⟩

theorem Released.trans {s x y : State} (h : Released s x) (g : Released x y) : Released s y := by
  obtain ⟨⟨l, p, cx, rg, hw, sr, j, e⟩, hc⟩ := h
  obtain ⟨⟨l', p', cx', rg', hw', sr', j', e'⟩, gc⟩ := g
  refine ⟨⟨l', p', cx', rg', hw', sr', j', by rw [e', e]⟩, fun c => ?_⟩
  obtain ⟨a, ha⟩ := hc c
  obtain ⟨b, hb⟩ := gc c
  exact ⟨b, by rw [hb, ha]⟩

/-- A change that leaves the contexts. -/
theorem released_of_ctxs {s x : State} (h : ∃ l p rg hw sr j, x = { s with lease := l, plan := p, regs := rg, hw := hw, srcs := sr, jrn := j }) :
    Released s x := by
  obtain ⟨l, p, rg, hw, sr, j, rfl⟩ := h
  exact ⟨⟨l, p, s.ctxs, rg, hw, sr, j, rfl⟩, fun c => ⟨(s.ctx c).leaseLost, rfl⟩⟩

theorem released_modLease (s : State) (f : Lease → Lease) : Released s (s.modLease f) :=
  released_of_ctxs ⟨_, s.plan, s.regs, s.hw, s.srcs, s.jrn, rfl⟩

theorem released_dropTxn (s : State) : Released s s.dropTxn :=
  released_of_ctxs ⟨s.lease, _, s.regs, s.hw, s.srcs, s.jrn, rfl⟩

theorem released_setB (s : State) (r : Reg) (i : Nat) (b : Bool) : Released s (s.setB r i b) :=
  released_of_ctxs ⟨s.lease, s.plan, _, _, s.srcs, s.jrn, rfl⟩

theorem SrcJrnOnly.released {s x : State} (h : SrcJrnOnly s x) : Released s x := by
  obtain ⟨sr, j, rfl⟩ := h
  exact released_of_ctxs ⟨s.lease, s.plan, s.regs, s.hw, sr, j, rfl⟩

/-- The context that lost the lease keeps all but the note of it. -/
theorem released_loseLease (s : State) (c : Nat) : Released s (s.modCtx c fun x => { x with leaseLost := true }) := by
  refine ⟨⟨s.lease, s.plan, _, s.regs, s.hw, s.srcs, s.jrn, rfl⟩, fun d => ?_⟩
  by_cases hd : d = c
  · subst hd; exact ⟨true, State.ctx_modCtx_self s d _⟩
  · exact ⟨(s.ctx d).leaseLost, State.ctx_modCtx_ne s c d _ hd⟩

theorem released_noteLost (s : State) : Released s s.noteLost := by
  unfold State.noteLost
  split
  · exact released_modLease s _
  · split
    · exact released_modLease s _
    · split
      · exact released_loseLease s _
      · exact Released.refl s

theorem released_autoRelease (s : State) (cause : BitVec 3) : Released s (s.autoRelease cause) := by
  unfold State.autoRelease
  split
  · exact Released.refl s
  · split
    · exact released_modLease s _
    · extract_lets l n freed marked
      have hfreed : Released s freed :=
        ((released_noteLost s).trans (released_dropTxn _)).trans (released_modLease _ _)
      have hmarked : Released freed marked := by
        change Released freed (if _ then _ else _)
        split
        · exact released_setB freed _ _ _
        · exact Released.refl freed
      exact (hfreed.trans hmarked).trans (srcJrnOnly_faultEvent marked _ _ _ _ _ _ _).released

theorem released_expire (s : State) : Released s s.expire := by
  unfold State.expire
  split
  · exact released_autoRelease s _
  · exact Released.refl s

/-- A lease that has not run out is not released. -/
theorem expire_of_not_over (s : State) (h : s.leaseOver = false) : s.expire = s := by
  simp [State.expire, h]

end Sys2Proof.Machine
end

section
/-!
SUPPORT. What a read without side effects changes (00_scope R13, 17_setup_registers R382, R383): a lease that has run out is released
before a read of its registers, a station that does not answer is noted as an access error, and that is all.
-/

namespace Sys2Proof.Machine

open Sys2Proof.Safety

/-- What a read without side effects at an aperture offset may leave: the state itself, the state with an expired lease released, or the
state with an access error of a station that does not answer. -/
inductive PeekLeaves (s : State) (off : Nat) : State → Prop where
  | same : PeekLeaves s off s
  | expired (due : s.leaseOver = true) : PeekLeaves s off s.expire
  | noted (window : 0x2000000 ≤ off ∧ off < 0x2280000) (silent : s.reach ((off - 0x2000000) / 0x10000) = false)
      (bit : Nat) (p : Port) (at_ : Nat) : PeekLeaves s off (s.accErr bit p at_)

theorem peekLeaves_expire (s : State) (off : Nat) : PeekLeaves s off s.expire := by
  by_cases h : s.leaseOver = true
  · exact .expired h
  · rw [expire_of_not_over s (by simpa using h)]; exact .same

/-- Where the lease stands and the station of the offset answers, such a read changes nothing. -/
theorem PeekLeaves.eq_self {s x : State} {off : Nat} (h : PeekLeaves s off x) (hl : s.leaseOver = false)
    (hr : 0x2000000 ≤ off → off < 0x2280000 → s.reach ((off - 0x2000000) / 0x10000) = true) : x = s := by
  cases h with
  | same => rfl
  | expired due => rw [hl] at due; exact absurd due (by decide)
  | noted window silent => rw [hr window.1 window.2] at silent; exact absurd silent (by decide)

/-- Latches, mailboxes, stations and what the contexts have been posted are the same. -/
def NothingPopped (s x : State) : Prop :=
  x.latches = s.latches ∧ x.mbxs = s.mbxs ∧ x.stns = s.stns ∧ ∀ c, (x.ctx c).cpls = (s.ctx c).cpls

theorem Released.nothingPopped {s x : State} (h : Released s x) : NothingPopped s x := by
  obtain ⟨⟨l, p, cx, rg, hw, sr, j, e⟩, hc⟩ := h
  refine ⟨by rw [e], by rw [e], by rw [e], fun c => ?_⟩
  obtain ⟨lost, hl⟩ := hc c
  rw [hl]

/-- The latches, queues and completions of one station and one context. -/
theorem NothingPopped.apart {s x : State} (h : NothingPopped s x) (n : Nat) :
    x.latches = s.latches ∧ x.mbxs = s.mbxs ∧ (x.stn n).latchA = (s.stn n).latchA ∧ (x.stn n).latchB = (s.stn n).latchB ∧
      (x.ctx n).cpls = (s.ctx n).cpls := by
  obtain ⟨hlatches, hmbxs, hstns, hcpls⟩ := h
  have hstn : x.stn n = s.stn n := by unfold State.stn; rw [hstns]
  exact ⟨hlatches, hmbxs, by rw [hstn], by rw [hstn], hcpls n⟩

/-- In every case latches and queues stay. -/
theorem PeekLeaves.nothingPopped {s x : State} {off : Nat} (h : PeekLeaves s off x) : NothingPopped s x := by
  cases h with
  | same => exact ⟨rfl, rfl, rfl, fun _ => rfl⟩
  | expired => exact (released_expire s).nothingPopped
  | noted => exact ⟨rfl, rfl, rfl, fun _ => rfl⟩

/-! ## The readers -/

theorem readHub_peek (s : State) (p : Port) (at_ off : Nat) : PeekLeaves s off (s.readHub p true at_).1 := by
  unfold State.readHub
  dsimp only
  simp only [if_true]
  split
  · exact peekLeaves_expire s off
  · exact .same

/-- A station that the hub reaches answers. -/
theorem stnRead_of_reach (s : State) (p : Port) (n y : Nat) (f : State → State × Word) (h : s.reach n = true) :
    s.stnRead p n y f = f s := by
  have hp : s.present n = true := by
    simp only [State.reach, Bool.and_eq_true] at h
    exact h.1.1
  simp [State.stnRead, h, hp]

/-- A station that is absent or out of reach reads zero, and that is noted (17_setup_registers R385). -/
theorem stnRead_of_not_reach (s : State) (p : Port) (n y : Nat) (f : State → State × Word) (h : s.reach n = false) :
    ∃ bit, (s.stnRead p n y f).1 = s.accErr bit p (stnOff n y) := by
  unfold State.stnRead
  split
  · exact ⟨_, rfl⟩
  · simp only [h, Bool.not_false, if_true]
    exact ⟨_, rfl⟩

theorem readStn_peek (s : State) (p : Port) (off y : Nat) (window : 0x2000000 ≤ off ∧ off < 0x2280000) :
    PeekLeaves s off (s.readStn p true ((off - 0x2000000) / 0x10000) y).1 := by
  unfold State.readStn
  split
  · exact .same
  · cases hr : s.reach ((off - 0x2000000) / 0x10000) with
    | true => rw [stnRead_of_reach _ _ _ _ _ hr]; exact .same
    | false =>
      obtain ⟨bit, e⟩ := stnRead_of_not_reach s p _ y _ hr
      rw [e]
      exact .noted window hr bit p _

theorem readPage_peek (s : State) (p : Port) (tee : Bool) (c x : Nat) : (s.readPage p tee true c x).1 = s := by
  unfold State.readPage
  dsimp only
  split
  · rfl
  · split <;> rfl

/-- The PK offsets: of the global registers, of the doorbell pages and of the station windows. -/
theorem isPk_iff (off : Nat) : isPk off = true ↔
    (0x80000 ≤ off ∧ off < 0xB0000) ∨ (0x1000000 ≤ off ∧ off < 0x2000000 ∧ 0x840 ≤ off % 0x1000 ∧ off % 0x1000 < 0x868) ∨
      (0x2000000 ≤ off ∧ off < 0x2280000 ∧ 0x8000 ≤ off % 0x10000 ∧ off % 0x10000 < 0xC000) := by
  unfold isPk
  split
  · simp only [decide_eq_true_eq]; omega
  · split
    · simp only [decide_eq_true_eq]; omega
    · simp only [decide_eq_true_eq]; omega

/-- The debug port reads every register without side effects. -/
theorem readWord_dbg (s : State) (tee : Bool) (off : Nat) : PeekLeaves s off (s.readWord .dbg tee off).1 := by
  unfold State.readWord
  simp only [decide_true]
  split
  · exact readHub_peek s .dbg off off
  · split
    · exact .same
    · split
      · exact .same
      · split
        · exact readHub_peek s .dbg _ off
        · split
          · split
            · rw [readPage_peek]; exact .same
            · rw [readPage_peek]; exact .same
          · split
            · rename_i window
              split
              · exact readStn_peek s .dbg off _ window
              · exact readStn_peek s .dbg off _ window
            · exact .same

/-- A PK offset is read without side effects by every port. -/
theorem readWord_pk (s : State) (p : Port) (tee : Bool) (off : Nat) (h : isPk off = true) :
    PeekLeaves s off (s.readWord p tee off).1 := by
  unfold State.readWord
  dsimp only
  obtain ⟨h1, h2⟩ | ⟨h1, h2, hx⟩ | ⟨h1, h2, hy, -⟩ := (isPk_iff off).mp h
  · rw [if_neg (by omega), if_neg (by omega), if_neg (by omega), if_pos ⟨h1, h2⟩]
    exact readHub_peek s p _ off
  · rw [if_neg (by omega), if_neg (by omega), if_neg (by omega), if_neg (by omega), if_pos ⟨h1, h2⟩, if_pos hx, readPage_peek]
    exact .same
  · rw [if_neg (by omega), if_neg (by omega), if_neg (by omega), if_neg (by omega), if_neg (by omega), if_pos ⟨h1, h2⟩, if_pos hy]
    exact readStn_peek s p off _ ⟨h1, h2⟩

/-- An aligned word lies in its 8 bytes. -/
theorem wideAccess_word (off : Nat) (h : off % 4 = 0) : wideAccess off 4 = false := by
  simp only [wideAccess, Bool.or_eq_false_iff, decide_eq_false_iff_not]; omega

/-- An aligned register is one whole word, in the lower or the upper half of its 8 bytes. -/
theorem portRead_word (s : State) (p : Port) (tee : Bool) (off : Nat) (h : off % 4 = 0) :
    (s.portRead p tee off 4).1 = (s.readWord p tee off).1 := by
  have whole : wholeWords off 4 = true := by simp [wholeWords, h]
  unfold State.portRead
  simp only [whole, wideAccess_word off h, Bool.not_true, Bool.and_false, Bool.false_eq_true, if_false]
  have half : off % 8 = 0 ∨ off % 8 = 4 := by omega
  obtain h8 | h8 := half
  · simp [h8]
  · have base : off - 4 + 4 = off := by omega
    simp [h8, base]

end Sys2Proof.Machine
end

section
/-!
SUPPORT. The read commands, each as what it leaves where it has no side effects (00_scope R13).
-/

namespace Sys2Proof.Machine

open Sys2Proof.Safety

/-! ## Port B at a PK offset -/

/-- REG_READ of one PK word leaves what the read leaves, and an answer. -/
theorem regRead_pk (s : State) (t : Nat) (off : BitVec 26) (h : (s.advance t).hubOn = true) (ha : off.toNat % 4 = 0)
    (hk : isPk off.toNat = true) :
    ∃ x o, PeekLeaves (s.advance t) off.toNat x ∧ exec (.regRead t off 1) s = .next (settle s (x.emit o)) := by
  obtain ⟨hon, hready, hwarm, htake⟩ := hubOn_parts h
  have leaves := readWord_pk (s.advance t) .b false off.toNat hk
  rw [← portRead_word _ _ _ _ ha] at leaves
  refine ⟨_, .response rOk (bytesOfNat 4 ((s.advance t).portRead .b false off.toNat 4).2), leaves, ?_⟩
  change execRegRead t off 1 s = _
  rw [State.advance_pair] at hready hwarm htake
  simp [execRegRead, always, hon, hready, hwarm, htake, regCountOk, List.range_one]

/-! ## The debug port -/

/-- While a hub serves, a KXACC read of an aligned register is the debug port's read. -/
theorem kxAccess_read (s : State) (off : Nat) (v : Word) (hready : s.pair.ready = true) (hwarm : s.pair.warm = false)
    (ha : off % 4 = 0) :
    s.kxAccess false off v =
      ((s.portRead .dbg false off 4).1, kxDone, some (BitVec.ofNat 32 (s.portRead .dbg false off 4).2)) := by
  simp [State.kxAccess, hready, hwarm, wideAccess_word off ha]

/-- A KXACC read of one register leaves what the read leaves, and the access in the debug port's own registers. -/
theorem kxaccAccess_read (s : State) (t : Nat) (off : BitVec 26) (data : Word) (h : (s.advance t).hubOn = true)
    (ha : off.toNat % 4 = 0) :
    ∃ d0 d1 x, PeekLeaves { s.advance t with dbg := d0 } off.toNat x ∧
      exec (.kxaccAccess t 1 off data) s = .next (settle s { x with dbg := d1 }) := by
  obtain ⟨hon, hready, hwarm, htake⟩ := hubOn_parts h
  let entered : State := { s.advance t with dbg := { (s.advance t).dbg with tckAt := some (s.advance t).now, ir := 0b10000#5 } }
  have leaves := readWord_dbg entered false off.toNat
  rw [← portRead_word _ _ _ _ ha] at leaves
  let read := entered.portRead .dbg false off.toNat 4
  have access : entered.kxAccess false off.toNat data = (read.1, kxDone, some (BitVec.ofNat 32 read.2)) :=
    kxAccess_read entered off.toNat data hready hwarm ha
  refine ⟨_, { read.1.dbg with status := kxDone, off := off, data := BitVec.ofNat 32 read.2 }, _, leaves, ?_⟩
  have taken : entered.pair.takeover.isSome = false := by rw [show entered.pair = (s.advance t).pair from rfl, htake]; rfl
  change execKxaccAccess t 1 off data s = _
  unfold execKxaccAccess
  rw [onUnit_next t _ s hon]
  change Host.Outcome.next (settle s (
    let y := if entered.pair.takeover.isSome then entered.accErr aeHeld .dbg off.toNat else entered
    let (y, st, v) := y.kxAccess false off.toNat data
    { y with dbg := { y.dbg with status := st, off := off, data := v.getD y.dbg.data } })) = _
  simp only [taken, Bool.false_eq_true, if_false, access]
  rfl

/-- The debug port has no latch to load (17_setup_registers R383). -/
theorem readFtLo_dbg (s : State) : (s.readFtLo .dbg).1 = s := rfl

theorem readRtcLo_dbg (s : State) : (s.readRtcLo .dbg).1 = s := rfl

/-- No mailbox is the debug port's, so its read pops nothing. -/
theorem mbxAckqRead_dbg (s : State) (m : Nat) : (s.mbxAckqRead .dbg m).1 = s := by
  have owner : Port.dbg ≠ s.mbxPort m := by
    unfold State.mbxPort
    split
    · decide
    · decide
  simp [State.mbxAckqRead, owner]

/-- Every station is the same, though the list of stations may name one more. -/
def SameStns (s x : State) : Prop := Only [.stns] s x ∧ ∀ n, x.stn n = s.stn n

theorem SameStns.refl (s : State) : SameStns s s := ⟨only_refl _ s, fun _ => rfl⟩

theorem sameStns_modStn (s : State) (k : Nat) (f : Stn → Stn) (h : f (s.stn k) = s.stn k) : SameStns s (s.modStn k f) := by
  refine ⟨fun p hp => ?_, fun n => ?_⟩
  · cases p
    case stns => exact absurd List.mem_cons_self hp
    all_goals rfl
  · by_cases hn : n = k
    · subst hn; rw [State.stn_modStn_self, h]
    · exact State.stn_modStn_ne s k n f hn

theorem readCntLo_dbg (s : State) (n k : Nat) : SameStns s (s.readCntLo .dbg n k).1 := sameStns_modStn s n _ rfl

theorem readCntHi_dbg (s : State) (n k : Nat) : SameStns s (s.readCntHi .dbg n k).1 := by
  unfold State.readCntHi
  dsimp only
  split
  · exact sameStns_modStn s n _ rfl
  · exact SameStns.refl s

/-! ## The register reads of a port -/

theorem exec_ftRead (s : State) (t : Nat) (p : Port) :
    exec (.ftRead t p) s = onRead t p Kx.timFtLo.off (fun s => s.readFtLo p) s := rfl

theorem exec_rtcSecRead (s : State) (t : Nat) (p : Port) :
    exec (.rtcSecRead t p) s = onRead t p Kx.rtcSecLo.off (fun s => s.readRtcLo p) s := rfl

theorem exec_mbxAckqRead (s : State) (t : Nat) (p : Port) (m : Fin 16) :
    exec (.mbxAckqRead t p m) s = onRead t p (Kx.mbxAckq m).off (fun s => s.mbxAckqRead p m) s := rfl

theorem exec_counterLoRead (s : State) (t : Nat) (p : Port) (n : Fin 40) (k : Fin 320) :
    exec (.counterLoRead t p n k) s =
      onRead t p (stnOff n (cntOff k)) (fun s => s.stnRead p n (cntOff k) fun s => s.readCntLo p n k) s := rfl

theorem exec_counterHiRead (s : State) (t : Nat) (p : Port) (n : Fin 40) (k : Fin 320) :
    exec (.counterHiRead t p n k) s =
      onRead t p (stnOff n (cntOff k + 4)) (fun s => s.stnRead p n (cntOff k + 4) fun s => s.readCntHi p n k) s := rfl

/-- A read command whose reader leaves the state as it is. -/
theorem done_read_same {i : Instr} {t off : Nat} {f : State → State × Word} {s : State} (e : exec i s = onRead t .dbg off f s)
    (h : (s.advance t).hubOn = true) (hs : s.sramW = []) (hf : (f (s.advance t)).1 = s.advance t) :
    Completes i s (fun r => Only [.out] (s.advance t) r) := by
  refine done_onRead e h ?_
  rw [hf]
  exact only_settle (only_emit (only_refl [.out] _) (by decide) _) (by decide) hs

/-- A read command whose reader leaves every station as it is. -/
theorem done_read_stns {i : Instr} {t off : Nat} {f : State → State × Word} {s : State} (n : Nat)
    (e : exec i s = onRead t .dbg off f s) (h : (s.advance t).hubOn = true) (hs : s.sramW = [])
    (hf : SameStns (s.advance t) (f (s.advance t)).1) :
    Completes i s (fun r => Only [.out, .stns] (s.advance t) r ∧ r.stn n = (s.advance t).stn n) := by
  obtain ⟨honly, hstn⟩ := hf
  have frame : Only [.out, .stns] (s.advance t) (f (s.advance t)).1 := fun p hp => honly p fun hm => hp (List.mem_cons_of_mem _ hm)
  exact done_onRead e h ⟨only_settle (only_emit frame (by decide) _) (by decide) hs, hstn n⟩

/-- Settles O29: a reader without side effects leaves at most a released lease or an access error (`PeekLeaves`), neither of which a
latch or a queue feels, and the debug port has no latch and no mailbox of its own. -/
theorem readsWithoutEffect : Obligations.ReadsWithoutEffect := by
  unfold Obligations.ReadsWithoutEffect
  intro s t off data die ctr mbx n
  dsimp only
  intro hon hs ha
  refine ⟨fun hk => ?_, ?_, ?_, ?_, ?_, fun hr => ⟨?_, ?_⟩⟩
  · obtain ⟨x, o, leaves, e⟩ := regRead_pk s t off hon ha hk
    refine ⟨_, e, leaves.nothingPopped.apart n, fun ⟨hl, hw⟩ => ?_⟩
    obtain rfl := leaves.eq_self hl hw
    exact only_settle (only_emit (only_refl [.out] _) (by decide) _) (by decide) hs
  · obtain ⟨d0, d1, x, leaves, e⟩ := kxaccAccess_read s t off data hon ha
    refine ⟨_, e, leaves.nothingPopped.apart n, fun ⟨hl, hw⟩ => ?_⟩
    obtain rfl := leaves.eq_self hl hw
    exact only_settle (only_dbg _ _) (by decide) hs
  · exact done_read_same (exec_ftRead s t .dbg) hon hs (readFtLo_dbg _)
  · exact done_read_same (exec_rtcSecRead s t .dbg) hon hs (readRtcLo_dbg _)
  · exact done_read_same (exec_mbxAckqRead s t .dbg mbx) hon hs (mbxAckqRead_dbg _ mbx)
  · refine done_read_stns n (exec_counterLoRead s t .dbg die ctr) hon hs ?_
    rw [stnRead_of_reach _ _ _ _ _ hr]
    exact readCntLo_dbg _ die ctr
  · refine done_read_stns n (exec_counterHiRead s t .dbg die ctr) hon hs ?_
    rw [stnRead_of_reach _ _ _ _ _ hr]
    exact readCntHi_dbg _ die ctr

end Sys2Proof.Machine
end

section
/-!
SUPPORT. FENCE_CONFIRM makes the standby's FT counter the master (02_fabric_time R38). TimeRunsOn ranges over every state: that the two
counters agree (log entry 62) is no hypothesis of it.
-/

namespace Sys2Proof.Machine

open Sys2Proof.Safety

/-- A takeover under way whose standby has an FT counter 2 ticks ahead of the failed hub's. -/
def standbyAhead : State :=
  { State.reset with
    pair := { power := .on, ready := true, takeover := some (80, tcSilent) }
    clk := { now := 100, run := true, stby := { st := svLocked, off := -2 } } }

/-- The fence is confirmed at FT 100, and the new active hub's counter stands at 102 (02_fabric_time R38). -/
theorem fenceConfirm_standbyAhead : Completes (.fenceConfirm 100) standbyAhead fun r => r.clk.now = 102 :=
  ⟨_, rfl, by decide +kernel⟩

/-- Refutes O6: a hub takeover does not leave the master count where it ran to. FENCE_CONFIRM takes the standby's counter over, and where
that is ahead of the failed hub's, FT moves up to it. -/
theorem not_timeRunsOn : ¬ Obligations.TimeRunsOn := by
  unfold Obligations.TimeRunsOn
  intro h
  obtain ⟨r, e, moved⟩ := fenceConfirm_standbyAhead
  have still : r.clk.now = (standbyAhead.advance 100).clk.now := (h standbyAhead r _ 100 .a 0 false false false e).2 (by simp)
  exact absurd (moved.symm.trans still) (by decide)

end Sys2Proof.Machine
end

section
/-!
SUPPORT. What a change of the device time state and a device TSYNC record leave alone (02_fabric_time R51, R53, R54).
-/

namespace Sys2Proof.Machine

/-- Only stations, hub internal sources and the journal differ. -/
def Heard (s x : State) : Prop := ∃ sn sr j, x = { s with stns := sn, srcs := sr, jrn := j }

theorem Heard.refl (s : State) : Heard s s := ⟨s.stns, s.srcs, s.jrn, rfl⟩

theorem Heard.trans {s x y : State} (h : Heard s x) (g : Heard x y) : Heard s y := by
  obtain ⟨a, b, c, rfl⟩ := h
  obtain ⟨d, e, f, rfl⟩ := g
  exact ⟨d, e, f, rfl⟩

theorem heard_foldl {α : Type} (f : State → α → State) (h : ∀ s a, Heard s (f s a)) (l : List α) (s : State) :
    Heard s (l.foldl f s) :=
  List.foldlRecOn l f (Heard.refl s) fun x hx a _ => hx.trans (h x a)

theorem heard_modStn (s : State) (n : Nat) (f : Stn → Stn) : Heard s (s.modStn n f) := ⟨_, s.srcs, s.jrn, rfl⟩

theorem heard_raiseTq (s : State) (n : Nat) : Heard s (s.raiseTq n) :=
  ⟨_, s.srcs, s.jrn, rfl⟩

theorem SrcJrnOnly.heard {s x : State} (h : SrcJrnOnly s x) : Heard s x := by
  obtain ⟨sr, j, rfl⟩ := h
  exact ⟨s.stns, sr, j, rfl⟩

/-- A device TSYNC record is a record of a hub internal source. -/
theorem srcJrnOnly_tsyncDev (s : State) (event : Nat) (value : Int) (at_ : Nat) : SrcJrnOnly s (s.tsyncDev event value at_) :=
  srcJrnOnly_hubRec s 3 _

theorem Heard.clk {s x : State} (h : Heard s x) : x.clk = s.clk := by
  obtain ⟨sn, sr, j, rfl⟩ := h
  rfl

theorem Heard.node {s x : State} (h : Heard s x) : x.node = s.node := by
  obtain ⟨sn, sr, j, rfl⟩ := h
  rfl

theorem Heard.rb {s x : State} (h : Heard s x) (r : Reg) (i : Nat) : x.rb r i = s.rb r i := by
  obtain ⟨sn, sr, j, rfl⟩ := h
  rfl

/-- Stations and hub sources hear of a device time state; of the clock nothing but that state changes. -/
theorem heard_setDevTq (s : State) (q : BitVec 2) (event : Nat) (value : Int) :
    Heard { s with clk := { s.clk with devTq := q } } (s.setDevTq q event value) := by
  unfold State.setDevTq
  split
  · rename_i same
    rw [← same]
    exact Heard.refl s
  · extract_lets clk set stations up sources
    have hstations : Heard set stations := heard_foldl _ (fun s n => (heard_modStn s n _).trans (heard_raiseTq _ n)) _ set
    have hsources : Heard stations sources := heard_foldl _ (fun s k => (srcJrnOnly_modSrc s k _).heard) _ stations
    exact (hstations.trans hsources).trans (srcJrnOnly_tsyncDev sources _ _ _).heard

end Sys2Proof.Machine
end

section
/-!
SUPPORT. The parts of the node's links: sync ports and their channels, node time, the order of a step, and a TRIG block
(13_node R307-R313, 14_startup R347).
-/

namespace Sys2Proof.Machine

open Sys2Proof.Safety

/-! ## Frames sent one by one -/

theorem State.foldl_emit {α : Type} (f : α → Out) (l : List α) (s : State) :
    l.foldl (fun (s : State) a => s.emit (f a)) s = { s with out := s.out ++ l.map f } := by
  induction l generalizing s with
  | nil => simp
  | cons a l ih => rw [List.foldl_cons, ih]; simp [State.emit]

/-! ## Sync ports -/

@[simp] theorem State.port_modPort_self (s : State) (p : Nat) (f : NodePort → NodePort) : (s.modPort p f).port p = f (s.port p) := by
  simp [State.port, State.modPort, State.modNode]

@[simp] theorem port_settle (s x : State) (p : Nat) : (settle s x).port p = x.port p := rfl

/-- An enabled port that is not retired comes UP with its neighbour (13_node R307). -/
theorem syncPortTrained_up {s : State} {t : Nat} {p : Fin 3} (peer : BitVec 6) (delay : BitVec 8) (h : (s.advance t).hubOn = true)
    (on : (s.advance t).rb (Kx.synPcfg p) 31 = true) (used : ((s.advance t).port p).st ≠ spRetired) :
    Completes (.syncPortTrained t p peer delay) s fun r => r.port p = { st := spUp, peer := some peer, delay := delay.toNat } := by
  refine done_onHub (show exec (.syncPortTrained t p peer delay) s = execSyncPortTrained t p peer delay s from rfl) h ?_
  simp [on, used]

/-- An enabled port that loses its link trains again (13_node R315). -/
theorem syncLinkLoss_trains {s : State} {t : Nat} {p : Fin 3} (h : (s.advance t).hubOn = true)
    (on : (s.advance t).rb (Kx.synPcfg p) 31 = true) (used : ((s.advance t).port p).st ≠ spRetired) :
    Completes (.syncLinkLoss t p) s fun r => r.port p = { (s.advance t).port p with st := spTraining, peer := none } := by
  refine done_onHub (show exec (.syncLinkLoss t p) s = execSyncLinkLoss t p s from rfl) h ?_
  simp [on, used]

/-! ## The channel of a sync port -/

@[simp] theorem State.chan_modChan_self (s : State) (ch : Nat) (f : Chan → Chan) : (s.modChan ch f).chan ch = f (s.chan ch) := by
  simp [State.chan, State.modChan]

/-- The error count of a channel and what has left the unit are the same. -/
def SameTotal (ch : Nat) (s x : State) : Prop := (x.chan ch).total = (s.chan ch).total ∧ x.out = s.out

theorem SameTotal.refl (ch : Nat) (s : State) : SameTotal ch s s := ⟨rfl, rfl⟩

theorem SameTotal.trans {ch : Nat} {s x y : State} (h : SameTotal ch s x) (g : SameTotal ch x y) : SameTotal ch s y :=
  ⟨g.1.trans h.1, g.2.trans h.2⟩

theorem sameTotal_modChan (ch : Nat) (s : State) (f : Chan → Chan) (h : ∀ c, (f c).total = c.total) :
    SameTotal ch s (s.modChan ch f) := ⟨by rw [State.chan_modChan_self, h], rfl⟩

theorem SrcJrnOnly.sameTotal {s x : State} (h : SrcJrnOnly s x) (ch : Nat) : SameTotal ch s x := by
  obtain ⟨sr, j, rfl⟩ := h
  exact SameTotal.refl ch s

theorem srcJrnOnly_chanRecord (s : State) (ch fkind cause : Nat) : SrcJrnOnly s (s.chanRecord ch fkind cause) :=
  srcJrnOnly_hubRec s 6 _

/-- A sync port that is retired leaves UP, and nothing else (14_startup Table 14.4). -/
theorem sameTotal_retireChan_sync (s : State) (p : Fin 3) (cause : Nat) :
    SameTotal (syncChan p) s (s.retireChan (syncChan p) cause) := by
  have sync : chanType (syncChan p) = 6 := by unfold chanType syncChan; omega
  unfold State.retireChan
  split
  · exact SameTotal.refl _ s
  · have hretired : SameTotal (syncChan p) s (s.modChan (syncChan p) fun c => { c with st := chRetired }) :=
      sameTotal_modChan _ s _ fun _ => rfl
    refine (hretired.trans ((srcJrnOnly_chanRecord _ (syncChan p) fkPermanent cause).sameTotal _)).trans ?_
    unfold State.onRetire
    simp only [sync]
    exact ⟨rfl, rfl⟩

theorem sameTotal_closeWindow_sync (s : State) (p : Fin 3) : SameTotal (syncChan p) s (s.closeWindow (syncChan p)) := by
  unfold State.closeWindow
  extract_lets c w hot counted retired
  split
  · exact SameTotal.refl _ s
  · have hcounted : SameTotal (syncChan p) s counted := sameTotal_modChan _ s _ fun _ => rfl
    have hretired : SameTotal (syncChan p) counted retired := by
      change SameTotal _ counted (if _ then _ else _)
      split
      · exact sameTotal_retireChan_sync counted p _
      · exact SameTotal.refl _ counted
    exact (hcounted.trans hretired).trans (sameTotal_modChan _ retired _ fun _ => rfl)

/-- An error event of a sync port's channel counts once (14_startup R347). -/
theorem channelError_sync (s : State) (p : Fin 3) (exist : s.chanExists (syncChan p) = true)
    (active : (s.chan (syncChan p)).st = chActive) :
    ((s.channelError (syncChan p)).chan (syncChan p)).total = (s.chan (syncChan p)).total + 1 ∧
      (s.channelError (syncChan p)).out = s.out := by
  have used : ((s.chan (syncChan p)).st == chRetired) = false := by rw [active]; rfl
  obtain ⟨total, out⟩ := sameTotal_closeWindow_sync s p
  unfold State.channelError
  simp only [exist, used, Bool.not_true, Bool.or_self, Bool.false_eq_true, if_false]
  split
  · exact ⟨by simp [total], out⟩
  · obtain ⟨total', out'⟩ := (srcJrnOnly_chanRecord ((s.closeWindow (syncChan p)).modChan (syncChan p) fun c =>
      { c with evwin := min 0xFFFF (c.evwin + 1), total := c.total + 1, retry := 0, told := true })
      (syncChan p) fkTransient ccEvent).sameTotal (syncChan p)
    exact ⟨by rw [total']; simp [total], by rw [out']; exact out⟩

/-- A replay is an error event of an UP port's channel (13_node R309). -/
theorem syncReplayRequest_counts {s : State} {t : Nat} {p : Fin 3} (seq : Nat) (h : (s.advance t).hubOn = true)
    (up : ((s.advance t).port p).st = spUp) (exist : (s.advance t).chanExists (syncChan p) = true)
    (active : ((s.advance t).chan (syncChan p)).st = chActive) :
    Completes (.syncReplayRequest t p seq) s fun r =>
      (r.chan (syncChan p)).total = ((s.advance t).chan (syncChan p)).total + 1 ∧
        .nodeMsg ((((s.advance t).port p).peer.map (·.toNat)).getD 0) nmReplay seq 0 ∈ r.out := by
  refine done_onHub (show exec (.syncReplayRequest t p seq) s = execSyncReplayRequest t p seq s from rfl) h ?_
  rw [if_neg (by simp [up])]
  obtain ⟨total, out⟩ := channelError_sync ((((s.advance t).incF (Kx.synPstat p) 7 0 1).emit
    (.nodeMsg ((((s.advance t).port p).peer.map (·.toNat)).getD 0) nmReplay seq 0))) p exist active
  exact ⟨total, by rw [settle_out, out]; simp⟩

/-! ## Node time -/

/-- An UP port answers a probe with its time and OFFH (13_node R310). -/
theorem nodeProbe_answers {s : State} {t : Nat} {p : Fin 3} (h : (s.advance t).hubOn = true) (up : ((s.advance t).port p).st = spUp) :
    Completes (.nodeProbe t p) s fun r =>
      r.out = (s.advance t).out ++ [.nodeMsg ((((s.advance t).port p).peer.map (·.toNat)).getD 0) nmTimeReply (s.advance t).now
        (BitVec.ofInt 64 (s.advance t).node.offh).toNat] := by
  refine done_onHub (show exec (.nodeProbe t p) s = execNodeProbe t p s from rfl) h ?_
  rw [if_neg (by simp [up])]
  rfl

/-- A NODE_DISAGREE record leaves the node and the clock. -/
theorem node_clk_disagree (s : State) (kind chan d1 d2 : Nat) :
    (s.disagree kind chan d1 d2).node = s.node ∧ (s.disagree kind chan d1 d2).clk = s.clk := by
  have heard := (srcJrnOnly_faultEvent (s.setB Kx.synStatus 4 true) fcNode chan 0x40 (kind * 2 ^ 28) s.now d1 d2).heard
  exact ⟨heard.node, heard.clk⟩

/-- The device time state moves by the thresholds of 02_fabric_time R54; of the node only the count toward a better one changes. -/
theorem nodeAlign_time (s : State) (o : Int) :
    (s.nodeAlign o).clk.devTq = (alignNext s.clk.devTq s.node.aligned o).1 ∧
      (s.nodeAlign o).node = { s.node with aligned := (alignNext s.clk.devTq s.node.aligned o).2 } := by
  unfold State.nodeAlign
  generalize alignNext s.clk.devTq s.node.aligned o = next
  obtain ⟨q, k⟩ := next
  dsimp only
  split
  · rename_i same
    exact ⟨same.symm, rfl⟩
  · have heard := heard_setDevTq (s.modNode fun n => { n with aligned := k }) q tsDevState o
    generalize State.setDevTq _ q tsDevState o = x at heard ⊢
    have devTq : x.clk.devTq = q := congrArg Clk.devTq heard.clk
    split
    · exact ⟨devTq, heard.node⟩
    · obtain ⟨node, clk⟩ := node_clk_disagree x ndTime x.self (BitVec.ofInt 64 o).toNat q.toNat
      rw [node, clk]
      exact ⟨devTq, heard.node⟩

/-- The first exchange of a microsecond with the device at the port that leads to the head (13_node R310). -/
theorem nodeTimeExchange_aligns {s : State} {t : Nat} {p : Fin 3} {dev : BitVec 6} {h hp : Nat} {probes : List NodeProbe}
    {pr : NodeProbe} (hub : (s.advance t).hubOn = true) (on : (s.advance t).rb Kx.synId 31 = true)
    (member : (s.advance t).node.isHead = false) (joined : (s.advance t).node.estranged = false)
    (head : (s.advance t).node.head = some h) (leg : (s.advance t).route h = some (p.val, hp))
    (parent : ((s.advance t).port p).peer = some dev)
    (first : (s.advance t).node.slot ≠ some ((s.advance t).now / usT)) (best : bestProbe (probes.take 8) = some pr) :
    Completes (.nodeTimeExchange t p dev probes) s fun r =>
      let u := s.advance t
      let o := (probeHalf pr (signedOf 12 (u.rf (Kx.synPcfg p) 11 0))).tdiv 2 + pr.offh
      r.node.offh = o ∧ r.clk.devTq = (alignNext u.clk.devTq u.node.aligned o).1 ∧ r.node.slot = some (u.now / usT) := by
  have route : ((s.advance t).node.head.bind fun h => (s.advance t).route h) = some (p.val, hp) := by rw [head]; exact leg
  refine done_onHub (show exec (.nodeTimeExchange t p dev probes) s = execNodeTimeExchange t p dev probes s from rfl) hub ?_
  generalize s.advance t = u at *
  simp -zeta only [route, best, parent, first, joined, member, on, bne_self_eq_false, Bool.or_self, Bool.not_true,
    Bool.false_eq_true, decide_false, if_false]
  extract_lets _ o half offset resync v gained led delayed exchanged
  obtain ⟨tq, node⟩ := nodeAlign_time exchanged offset
  exact ⟨congrArg Node.offh node, tq, congrArg Node.slot node⟩

/-! ## Steps -/

/-- The head orders a step of a member more than 1 µs behind (13_node R312). -/
theorem nodeStepOrder_behind {s : State} {t : Nat} {dev : BitVec 6} {offh : Int} (hub : (s.advance t).hubOn = true)
    (head : (s.advance t).node.isHead = true) (other : dev.toNat ≠ (s.advance t).self)
    (heard : (s.advance t).node.reachable (s.advance t).now dev.toNat = true) (behind : 8000 < offh) :
    Completes (.nodeStepOrder t dev offh false) s fun r =>
      r.out = (s.advance t).out ++
        [.nodeMsg dev.toNat nmStep ((Int.ofNat (s.advance t).now - offh).toNat + 6 * usT) (stepTicks offh)] := by
  refine done_onHub (show exec (.nodeStepOrder t dev offh false) s = execNodeStepOrder t dev offh false s from rfl) hub ?_
  generalize s.advance t = u at *
  simp [head, other, heard, behind]

/-- A joining member ahead steps the others, this device among them (13_node R312; log entry 26). -/
theorem nodeStepOrder_ahead {s : State} {t : Nat} {dev : BitVec 6} {offh : Int} (hub : (s.advance t).hubOn = true)
    (head : (s.advance t).node.isHead = true) (other : dev.toNat ≠ (s.advance t).self)
    (heard : (s.advance t).node.reachable (s.advance t).now dev.toNat = true) (ahead : offh < -8000000) :
    Completes (.nodeStepOrder t dev offh true) s fun r =>
      r.clk.steps = (s.advance t).clk.steps ++ [((s.advance t).now + 50 * usT, stepTicks offh)] := by
  have notBehind : ¬ 8000 < offh := by omega
  refine done_onHub (show exec (.nodeStepOrder t dev offh true) s = execNodeStepOrder t dev offh true s from rfl) hub ?_
  simp only [head, other, heard, notBehind, ahead, Bool.not_true, Bool.or_self, decide_false, decide_true, Bool.and_self,
    Bool.false_eq_true, if_false, if_true, State.foldl_emit, settle_clk]

/-- A member schedules the step it receives (13_node R312). -/
theorem nodeStepReceived_schedules {s : State} {t : Nat} (at_ tk : BitVec 64) (hub : (s.advance t).hubOn = true)
    (inNode : (s.advance t).inNode = true) (member : (s.advance t).node.isHead = false) :
    Completes (.nodeStepReceived t at_ tk) s fun r => r.clk.steps = (s.advance t).clk.steps ++ [(at_.toNat, tk.toNat)] := by
  refine done_onHub (show exec (.nodeStepReceived t at_ tk) s = execNodeStepReceived t at_ tk s from rfl) hub ?_
  generalize s.advance t = u at *
  simp [inNode, member]

/-! ## Triggers -/

/-- A device with an identity is a member of a node and is not estranged (13_node R306). -/
theorem synId_of_devId {s : State} (h : s.devId.isSome = true) : s.rb Kx.synId 31 = true := by
  unfold State.devId at h
  split at h
  · rename_i member; exact (Bool.and_eq_true_iff.mp member).1
  · exact absurd h (by decide)

/-- A TRIG block is remembered, the latest last, those whose time is over are forgotten, and the other UP ports send it on
(13_node R313). -/
def State.relayTrig (s : State) (p dev line : Nat) (ser : BitVec 8) : State :=
  { s with
    node := { s.node with
      seen := (s.node.seen.filter fun x => decide (s.now ≤ x.2.2 + trigLife)) ++ [(dev, ser.toNat, s.now)] }
    out := s.out ++ (s.upPorts.filter fun k => k != p).map fun k => Out.trigBlock k dev line ser }

/-- What a TRIG block not seen before does: where its line takes node triggers, it enters the mesh. -/
theorem trigBlockReceived_new {s : State} {t : Nat} {p : Fin 3} {dev : BitVec 6} {line : Fin 8} {ser : BitVec 8} {ctrl : Bool}
    (hub : (s.advance t).hubOn = true) (up : ((s.advance t).port p).st = spUp) (member : (s.advance t).devId.isSome = true)
    (new : ((s.advance t).node.seen.any fun y => y.1 == dev.toNat && y.2.1 == ser.toNat) = false) :
    exec (.trigBlockReceived t p dev line ser ctrl) s = .next (settle s
      (if (s.advance t).rb (Kx.hubTrigCfg line) 28 = true then
        ((s.advance t).relayTrig p dev.toNat line ser).raise ((1 : BitVec 8) <<< line.val) orNode
          (dev.toNat / 8 * 256 + dev.toNat % 8) (meshEnter (s.advance t).now) (s.advance t).now ctrl false
      else (s.advance t).relayTrig p dev.toNat line ser)) := by
  have e : exec (.trigBlockReceived t p dev line ser ctrl) s = execTrigBlockReceived t p dev line ser ctrl s := rfl
  unfold execTrigBlockReceived at e
  refine (e.trans (onHub_next t _ s hub)).trans (congrArg (fun x => Host.Outcome.next (settle s x)) ?_)
  clear e
  generalize s.advance t = u at *
  have unseen : ((u.node.seen.filter fun x => decide (u.now ≤ x.2.2 + trigLife)).any fun y =>
      y.1 == dev.toNat && y.2.1 == ser.toNat) = false := by
    rw [List.any_eq_false] at new ⊢
    exact fun y hy => new y (List.mem_filter.mp hy).1
  have taken : (!u.rb Kx.synId 31 || (u.port p).st != spUp ||
      (u.node.seen.filter fun x => decide (u.now ≤ x.2.2 + trigLife)).any fun y =>
        y.1 == dev.toNat && y.2.1 == ser.toNat) = false := by
    simp [synId_of_devId member, up, unseen]
  refine (if_neg (Bool.eq_false_iff.mp taken)).trans ?_
  simp -zeta only [State.foldl_emit]
  change (if (u.devId.isSome && u.rb (Kx.hubTrigCfg line) 28) = true then _ else _) = _
  rw [member, Bool.true_and]
  rfl

/-- Lines that are raised add one event to the mesh (04_markers R106). -/
theorem State.raise_adds (s : State) {lines : BitVec 8} (origin origId enter evft : Nat) (relayed holdEnd : Bool) (h : lines ≠ 0) :
    ∃ e, s.raise lines origin origId enter evft relayed holdEnd = { s with mesh := s.mesh ++ [e] } := by
  unfold State.raise
  rw [if_neg h]
  exact ⟨_, rfl⟩

/-- One of the eight lines is no empty mask. -/
theorem line_ne_zero (l : Fin 8) : (1 : BitVec 8) <<< l.val ≠ 0 := by
  revert l; decide

/-- A TRIG block not seen before is remembered, sent on, and raised where its line takes node triggers (13_node R313). -/
theorem trigBlockReceived_relays {s : State} {t : Nat} {p : Fin 3} {dev : BitVec 6} {line : Fin 8} {ser : BitVec 8}
    (hub : (s.advance t).hubOn = true) (up : ((s.advance t).port p).st = spUp) (member : (s.advance t).devId.isSome = true)
    (new : ((s.advance t).node.seen.any fun y => y.1 == dev.toNat && y.2.1 == ser.toNat) = false) :
    Completes (.trigBlockReceived t p dev line ser false) s fun r =>
      r.node.seen.getLast? = some (dev.toNat, ser.toNat, (s.advance t).now) ∧
        r.out = (s.advance t).out ++
          ((s.advance t).upPorts.filter fun k => k != p.val).map (fun k => Out.trigBlock k dev.toNat line ser) ∧
        ((s.advance t).rb (Kx.hubTrigCfg line) 28 = true → r.mesh.length = (s.advance t).mesh.length + 1) ∧
        ((s.advance t).rb (Kx.hubTrigCfg line) 28 = false → r.mesh = (s.advance t).mesh) := by
  refine ⟨_, trigBlockReceived_new hub up member new, ?_⟩
  generalize s.advance t = u at *
  have remembered : (u.relayTrig p dev.toNat line ser).node.seen.getLast? = some (dev.toNat, ser.toNat, u.now) :=
    List.getLast?_concat
  split
  · rename_i takes
    obtain ⟨event, raised⟩ := State.raise_adds (u.relayTrig p dev.toNat line ser) orNode (dev.toNat / 8 * 256 + dev.toNat % 8)
      (meshEnter u.now) u.now false false (line_ne_zero line)
    rw [raised]
    exact ⟨remembered, rfl, fun _ => List.length_append, fun off => absurd (off.symm.trans takes) (by decide)⟩
  · rename_i off
    exact ⟨remembered, rfl, fun takes => absurd takes off, fun _ => rfl⟩

/-! ## The whole -/

/-- Settles O40, link by link: each conjunct is the lemma of its command. -/
theorem nodeLinks : Obligations.NodeLinks := by
  unfold Obligations.NodeLinks
  intro s t p peer dev delay seq h leg hp probes pr offh at_ tk line ser
  dsimp only
  intro hub
  refine ⟨fun on used => ⟨syncPortTrained_up peer delay hub on used, syncLinkLoss_trains hub on used⟩,
    fun up => ⟨syncReplayRequest_counts seq hub up, nodeProbe_answers hub up, trigBlockReceived_relays hub up⟩, ?_,
    fun head other heard => ⟨nodeStepOrder_behind hub head other heard, nodeStepOrder_ahead hub head other heard⟩,
    nodeStepReceived_schedules at_ tk hub⟩
  intro on member joined head route leg_eq parent first best
  subst leg_eq
  exact nodeTimeExchange_aligns hub on member joined head route parent first best

end Sys2Proof.Machine
end

section
/-!
SUPPORT. What admission at a station keeps: the station's servo and KX_STN_TSTAT, and all but its own station and registers.
-/

namespace Sys2Proof.Machine

open Sys2Proof.Safety

/-- Nothing but registers and station n differs, and of these neither the station's servo nor its KX_STN_TSTAT. -/
structure KeepsServo (n : Nat) (s x : State) : Prop where
  only : StnOnly n s x
  servo : (x.stn n).servo = (s.stn n).servo
  tstat : x.rd (Kx.stnTstat n) = s.rd (Kx.stnTstat n)

theorem KeepsServo.refl (n : Nat) (s : State) : KeepsServo n s s := ⟨StnOnly.refl n s, rfl, rfl⟩

theorem KeepsServo.trans {n : Nat} {s x y : State} (h : KeepsServo n s x) (g : KeepsServo n x y) : KeepsServo n s y :=
  ⟨h.only.trans g.only, g.servo.trans h.servo, g.tstat.trans h.tstat⟩

theorem keepsServo_foldl {α : Type} {n : Nat} (f : State → α → State) (h : ∀ s a, KeepsServo n s (f s a)) (l : List α)
    (s : State) : KeepsServo n s (l.foldl f s) :=
  List.foldlRecOn l f (KeepsServo.refl n s) fun x hx a _ => hx.trans (h x a)

/-- A change of station n that leaves its servo. -/
theorem keepsServo_of_stn {n : Nat} {s x : State} (h : ∃ st, x = s.setStn n st ∧ st.servo = (s.stn n).servo) : KeepsServo n s x := by
  obtain ⟨st, rfl, servo⟩ := h
  exact ⟨stnOnly_setStn n s st, by rw [State.stn_setStn_self, servo], rfl⟩

/-- A counter step sets at most the counter's sticky bit. -/
theorem State.rd_bump (s : State) (n key d : Nat) (r : Reg) (h : r.off ≠ (Kx.stnCovf n (key / 32)).off) :
    (s.bump n key d).rd r = s.rd r := by
  unfold State.bump
  obtain ⟨w, wraps, e⟩ : ∃ w wraps, (s.stn n).counted key d = (w, wraps) := ⟨_, _, rfl⟩
  simp only [e]
  split
  · rw [State.rd_setB_ne _ _ _ _ _ h, State.rd_setStn]
  · rw [State.rd_setStn]

theorem keepsServo_bump (n key d : Nat) (s : State) : KeepsServo n s (s.bump n key d) := by
  refine ⟨stnOnly_bump n key d s, ?_, State.rd_bump s n key d _ ?_⟩
  · obtain ⟨cnt, ao, incs, wrap, e⟩ := State.stn_bump s n key d
    rw [e]
  · simp only [Kx.stnTstat, Kx.stnCovf]; omega

theorem keepsServo_numberAt (s : State) (n : Nat) (r : Record) (ft : Nat) : KeepsServo n s (s.numberAt n r ft).1 := by
  refine KeepsServo.trans ?_ (keepsServo_bump n (256 + 42) 1 _)
  exact keepsServo_of_stn ⟨_, rfl, rfl⟩

theorem keepsServo_pace (s : State) (n : Nat) (r : Record) : KeepsServo n s (s.pace n r).1 :=
  keepsServo_of_stn ⟨_, rfl, rfl⟩

theorem keepsServo_closeCur (s : State) (n : Nat) (cause : BitVec 2) : KeepsServo n s (s.closeCur n cause) := by
  unfold State.closeCur
  dsimp only
  split
  · exact KeepsServo.refl n s
  · exact keepsServo_of_stn ⟨_, rfl, rfl⟩

theorem keepsServo_closeRsv (s : State) (n : Nat) (cause : BitVec 2) : KeepsServo n s (s.closeRsv n cause) := by
  unfold State.closeRsv
  dsimp only
  split
  · exact KeepsServo.refl n s
  · exact keepsServo_of_stn ⟨_, rfl, rfl⟩

theorem keepsServo_storeOrd (s : State) (n : Nat) (r : Record) : KeepsServo n s (s.storeOrd n r).1 := by
  have opened : ∀ (x : State) (c : Curd) (p : Prop) [Decidable p],
      KeepsServo n x (if p then (x, false) else (x.modStn n fun st => { st with cur := some c, curAt := x.stnFt n }, true)).1 := by
    intro x c p _
    split
    · exact KeepsServo.refl n x
    · exact keepsServo_of_stn ⟨_, rfl, rfl⟩
  unfold State.storeOrd
  split
  · split
    · exact keepsServo_of_stn ⟨_, rfl, rfl⟩
    · exact (keepsServo_closeCur s n closeFull).trans (opened _ _ _)
  · exact opened s _ _

theorem keepsServo_storeRsv (s : State) (n : Nat) (r : Record) : KeepsServo n s (s.storeRsv n r).1 := by
  unfold State.storeRsv
  split
  · split
    · exact keepsServo_of_stn ⟨_, rfl, rfl⟩
    · exact keepsServo_closeRsv s n closeFull
  · split
    · exact keepsServo_of_stn ⟨_, rfl, rfl⟩
    · exact KeepsServo.refl n s

theorem keepsServo_admitGap (s : State) (n : Nat) (g : GapAcc) : KeepsServo n s (s.admitGap n g) := by
  have numbered := keepsServo_numberAt s n (gapRecord g) (s.stnFt n)
  have stored := keepsServo_storeRsv (s.numberAt n (gapRecord g) (s.stnFt n)).1 n (s.numberAt n (gapRecord g) (s.stnFt n)).2
  unfold State.admitGap State.number
  dsimp only
  generalize s.numberAt n (gapRecord g) (s.stnFt n) = x at numbered stored ⊢
  generalize x.1.storeRsv n x.2 = y at stored ⊢
  split
  · refine ((numbered.trans stored).trans (keepsServo_pace y.1 n x.2)).trans
      (KeepsServo.trans ?_ (keepsServo_bump n (256 + 43) g.count _))
    exact keepsServo_of_stn ⟨_, rfl, rfl⟩
  · exact (keepsServo_storeRsv s n _).trans (keepsServo_of_stn ⟨_, rfl, rfl⟩)

theorem keepsServo_flushGaps (s : State) (n : Nat) (p : GapAcc → Bool) : KeepsServo n s (s.flushGaps n p) :=
  keepsServo_foldl _ (fun s g => keepsServo_admitGap s n g) _ s

theorem keepsServo_lose (s : State) (n : Nat) (r : Record) (cause : Nat) : KeepsServo n s (s.lose n r cause) := by
  unfold State.lose
  extract_lets counted noted
  have hcounted : KeepsServo n s counted := by
    change KeepsServo n s (if _ then _ else _)
    split
    · exact ⟨stnOnly_incF n s _ _ _ _, rfl, State.rd_incF_ne s _ _ _ _ _ (by simp only [Kx.stnTstat, Kx.stnPcsStat]; omega)⟩
    · exact KeepsServo.refl n s
  have hnoted : KeepsServo n counted noted := keepsServo_of_stn ⟨_, rfl, rfl⟩
  exact (hcounted.trans hnoted).trans (keepsServo_flushGaps noted n _)

/-- A record offered at a station is numbered, then paced, then stored or counted lost (01_unit_anatomy R20). -/
theorem keepsServo_admitRec (s : State) (n : Nat) (r : Record) : KeepsServo n s (s.admitRec n r) := by
  unfold State.admitRec State.admitR State.number
  split
  · exact KeepsServo.refl n s
  · dsimp only
    have numbered := keepsServo_numberAt s n r (s.stnFt n)
    generalize s.numberAt n r (s.stnFt n) = x at numbered ⊢
    obtain ⟨y, r⟩ := x
    refine numbered.trans ?_
    split
    · exact (keepsServo_pace y n r).trans (keepsServo_lose _ n r _)
    · refine (keepsServo_pace y n r).trans ((keepsServo_storeOrd _ n r).trans ?_)
      split
      · exact keepsServo_flushGaps _ n _
      · exact keepsServo_lose _ n r _

theorem keepsServo_raiseTq (s : State) (n : Nat) : KeepsServo n s (s.raiseTq n) := keepsServo_of_stn ⟨_, rfl, rfl⟩

theorem keepsServo_tsyncStn (s : State) (n event : Nat) : KeepsServo n s (s.tsyncStn n event) := keepsServo_admitRec s n _

theorem keepsServo_startOffering (s : State) (n : Nat) : KeepsServo n s (s.startOffering n) := by
  unfold State.startOffering
  extract_lets st pacer offering
  have hoffering : KeepsServo n s offering := keepsServo_of_stn ⟨_, rfl, rfl⟩
  split
  · exact (hoffering.trans (keepsServo_admitRec offering n _)).trans (keepsServo_tsyncStn _ n _)
  · exact KeepsServo.refl n s

end Sys2Proof.Machine
end

section
/-!
SUPPORT. The servo of a station: what its commands leave of it (02_fabric_time R40-R51, Table 2.1).
-/

namespace Sys2Proof.Machine

open Sys2Proof.Safety

/-! ## Time exchanges -/

@[simp] theorem State.servo_modServo (s : State) (n : Nat) (f : Servo → Servo) :
    ((s.modServo n f).stn n).servo = f (s.stn n).servo := by
  simp [State.modServo]

/-- A request, the first of its slot, takes t1 from the FT copy (02_fabric_time R43). -/
theorem timeExchangeRequest_first {s : State} {t : Nat} {die : Fin 40} (on : (s.advance t).stnOn die = true)
    (first : ((s.advance t).stn die).servo.slot ≠ (s.advance t).stnFt die / slotTicks + 1) :
    Completes (.timeExchangeRequest t die) s fun r =>
      (r.stn die).servo.t1 = some ((s.advance t).stnFt die) ∧
        (r.stn die).servo.slot = (s.advance t).stnFt die / slotTicks + 1 := by
  refine done_onStn (show exec (.timeExchangeRequest t die) s = execTimeExchangeRequest t die s from rfl) on ?_
  dsimp only
  rw [if_neg first, stn_settle, State.servo_modServo]
  exact ⟨rfl, rfl⟩

/-- The hub's reply takes t2 and t3 from the master FT (02_fabric_time R43). -/
theorem timeExchangeReply_stamps {s : State} {t : Nat} {die : Fin 40} (turn : Nat) (hub : (s.advance t).hubOn = true)
    (asked : ((s.advance t).stn die).servo.t1.isSome = true) (reached : (s.advance t).reach die = true) :
    Completes (.timeExchangeReply t die turn) s fun r =>
      (r.stn die).servo.t23 = some ((s.advance t).now - turn, (s.advance t).now) := by
  refine done_onHub (show exec (.timeExchangeReply t die turn) s = execTimeExchangeReply t die turn s from rfl) hub ?_
  generalize s.advance t = u at *
  have waiting : (u.stn die).servo.t1.isNone = false := by rw [← Option.not_isSome, asked]; rfl
  rw [if_neg (by simp [waiting, reached]), stn_settle, State.servo_modServo]

/-- The arrival of the reply adds the exchange to its group (02_fabric_time R43). -/
theorem timeReplyReceived_joins {s : State} {t : Nat} {die : Fin 40} {a b c : Nat} (on : (s.advance t).stnOn die = true)
    (asked : ((s.advance t).stn die).servo.t1 = some a) (answered : ((s.advance t).stn die).servo.t23 = some (b, c))
    (mine : a / groupTicks = ((s.advance t).stn die).servo.grp) :
    Completes (.timeReplyReceived t die) s fun r =>
      let u := s.advance t
      let i := fun n : Nat => Int.ofNat n
      (r.stn die).servo.t1 = none ∧
        (r.stn die).servo.group.map (fun x => (x.1, x.2.1)) =
          (u.stn die).servo.group.map (fun x => (x.1, x.2.1)) ++
            [(u.stnFt die - a, ((i b - i a) - (i (u.stnFt die) - i c)) - u.asym die)] := by
  refine done_onStn (show exec (.timeReplyReceived t die) s = execTimeReplyReceived t die s from rfl) on ?_
  generalize s.advance t = u at *
  dsimp only
  rw [asked, answered]
  dsimp only
  rw [stn_settle, State.servo_modServo]
  simp [mine]

/-! ## Entering a state -/

/-- Snapshots that a station has missed are noted in the snapshots alone. -/
theorem State.stn_missSnaps (s : State) (n k : Nat) : (s.missSnaps n).stn k = s.stn k := rfl

/-- What is left of a servo that enters a state. -/
def Servo.entered (v : Servo) (st : BitVec 3) (ft : Nat) : Servo :=
  { v with st := st, near := 0, far := 0, back := 0, since := if st = svHoldover then ft else v.since }

/-- A servo enters a state: the records that tell of it leave the servo, and KX_STN_TSTAT keeps the note of DRIFT. -/
theorem State.servoEnter_leaves (s : State) (n : Nat) (st : BitVec 3) :
    ((s.servoEnter n st).stn n).servo = (s.stn n).servo.entered st (s.stnFt n) ∧
      (st = svDrift → (s.servoEnter n st).rb (Kx.stnTstat n) 3 = true) := by
  unfold State.servoEnter
  extract_lets x ft entered locked noted counted told
  have hlocked : (locked.stn n).servo = (s.stn n).servo.entered st (s.stnFt n) := by
    change (State.stn (if _ then _ else _) n).servo = _
    split
    · rw [State.stn_missSnaps, State.stn_modStn_self]; exact State.servo_modServo s n _
    · exact State.servo_modServo s n _
  have hnoted : (noted.stn n).servo = (locked.stn n).servo := by
    change (State.stn (if _ then _ else _) n).servo = _
    split
    · rfl
    · rfl
  have drift : st = svDrift → noted.rb (Kx.stnTstat n) 3 = true := by
    intro hst
    change State.rb (if _ then _ else _) _ _ = true
    rw [if_pos hst]
    exact State.rb_setB locked _ 3 true (by decide)
  have hcounted : KeepsServo n noted counted := by
    change KeepsServo n noted (if _ then _ else _)
    split
    · exact KeepsServo.refl n noted
    · exact keepsServo_bump n _ _ noted
  have kept : KeepsServo n noted (told.startOffering n) :=
    ((hcounted.trans (keepsServo_raiseTq counted n)).trans (keepsServo_tsyncStn _ n _)).trans (keepsServo_startOffering told n)
  exact ⟨kept.servo.trans (hnoted.trans hlocked), fun hst => by unfold State.rb; rw [kept.tstat]; exact drift hst⟩

/-- HOLDOVER that has lasted 1 ms enters DRIFT (02_fabric_time Table 2.1). -/
theorem holdoverTimeout_drifts {s : State} {t : Nat} {die : Fin 40} (on : (s.advance t).stnOn die = true)
    (holdover : ((s.advance t).stn die).servo.st = svHoldover)
    (past : ((s.advance t).stn die).servo.since + msT ≤ (s.advance t).stnFt die) :
    Completes (.holdoverTimeout t die) s fun r => (r.stn die).servo.st = svDrift ∧ r.rb (Kx.stnTstat die) 3 = true := by
  refine done_onStn (show exec (.holdoverTimeout t die) s = execHoldoverTimeout t die s from rfl) on ?_
  generalize s.advance t = u at *
  dsimp only
  rw [if_pos (by simp [holdover, past]), stn_settle, rb_settle]
  obtain ⟨servo, drift⟩ := State.servoEnter_leaves u die svDrift
  exact ⟨by rw [servo]; rfl, drift rfl⟩

/-! ## The end of a group -/

/-- The first selection of ACQUIRE steps the copy forward (02_fabric_time R40, R44). -/
theorem State.selection_steps (s : State) (n : Nat) (o : Int) (delay : Nat) (acquire : (s.stn n).servo.st = svAcquire)
    (first : (s.stn n).servo.stepped = false) :
    let v := ((s.selection n o delay).stn n).servo
    v.group = (s.stn n).servo.group ∧ v.stepped = true ∧ v.resid = o ∧ v.off = (s.stn n).servo.lag s.now - max 0 (o.tdiv 2) := by
  unfold State.selection
  dsimp only
  rw [if_pos (by simp [acquire, first]), State.servo_modServo, State.servo_modServo]
  exact ⟨rfl, rfl, rfl, rfl⟩

/-- A selection that is near counts toward LOCKED, and the 64th in a row reaches it (02_fabric_time R44, Table 2.1). -/
theorem Servo.next_count_near (v : Servo) (o : Int) (acquire : v.st = svAcquire) (near : o.natAbs ≤ 2) (before : 63 ≤ v.near) :
    (v.count o).next = some svLocked := by
  have counted : 64 ≤ (v.count o).near := by
    change 64 ≤ if o.natAbs ≤ 2 then v.near + 1 else 0
    rw [if_pos near]; omega
  have same : (v.count o).st = svAcquire := acquire
  unfold Servo.next
  rw [if_pos (by simp [same, counted])]

/-- The 64th near offset locks a servo that has stepped, at the low gain (02_fabric_time R44, Table 2.1). -/
theorem State.selection_locks (s : State) (n : Nat) (o : Int) (delay : Nat) (acquire : (s.stn n).servo.st = svAcquire)
    (stepped : (s.stn n).servo.stepped = true) (near : o.natAbs ≤ 2) (before : 63 ≤ (s.stn n).servo.near) :
    let v := ((s.selection n o delay).stn n).servo
    v.group = (s.stn n).servo.group ∧ v.st = svLocked ∧ v.high = false := by
  unfold State.selection
  extract_lets now v measured step counted kept locked selected
  have hmeasured : (measured.stn n).servo = { v with resid := o, delay := delay } := State.servo_modServo s n _
  have hcounted : counted = Servo.count { v with resid := o, delay := delay } o := congrArg (Servo.count · o) hmeasured
  have hkept : (kept.stn n).servo = counted := State.servo_modServo measured n _
  have hst : counted.st = svAcquire := by rw [hcounted]; exact acquire
  have hnext : counted.next = some svLocked := by rw [hcounted]; exact Servo.next_count_near _ o acquire near before
  have hlocked : (locked.stn n).servo = { counted.entered svLocked (kept.stnFt n) with high := false } := by
    simp only [locked, hnext, hst, if_true, State.servo_modServo, (State.servoEnter_leaves kept n svLocked).1, hkept]
  have group : counted.group = v.group := by rw [hcounted]; rfl
  have hselected : selected = (locked.stn n).servo.correct now o := by
    change (State.stn (if _ then _ else _) n).servo = _
    rw [if_neg (by simp [v, stepped]), State.servo_modServo]
  rw [hselected, hlocked]
  exact ⟨group, rfl, rfl⟩

/-- A LOCKED servo whose group has no exchange enters HOLDOVER (02_fabric_time Table 2.1). -/
theorem State.noSelection_holds (s : State) (n : Nat) (locked : (s.stn n).servo.st = svLocked) :
    ((s.noSelection n).stn n).servo.st = svHoldover ∧ ((s.noSelection n).stn n).servo.since = s.stnFt n := by
  unfold State.noSelection
  dsimp only
  rw [if_pos (by rw [State.servo_modServo]; exact locked)]
  obtain ⟨servo, -⟩ := State.servoEnter_leaves (s.modServo n fun v => { v with back := 0 }) n svHoldover
  have ft : (s.modServo n fun v => { v with back := 0 }).stnFt n = s.stnFt n := by
    unfold State.stnFt; rw [State.servo_modServo]; rfl
  rw [servo, ft]
  exact ⟨rfl, rfl⟩

/-- What the end of a group makes of its exchanges, before the next group begins to count (02_fabric_time R43, R44). -/
def State.groupEnd (s : State) (n : Nat) : State :=
  let s' := s.modServo n fun v => { v with group := [] }
  match bestExchange (s.stn n).servo.group with
  | none => s'.noSelection n
  | some (_, o, delay) => s'.selection n o delay

/-- A group that has ended is worked, and the next one counts from its start: of the servo nothing else changes. -/
theorem servoGroupEnd_ended {s : State} {t : Nat} {die : Fin 40} {P : Servo → Prop} (on : (s.advance t).stnOn die = true)
    (ended : (s.advance t).stnFt die / groupTicks ≠ ((s.advance t).stn die).servo.grp)
    (h : ∀ g, P { (((s.advance t).groupEnd die).stn die).servo with grp := g }) :
    Completes (.servoGroupEnd t die) s fun r => P (r.stn die).servo := by
  refine done_onStn (show exec (.servoGroupEnd t die) s = execServoGroupEnd t die s from rfl) on ?_
  dsimp only
  rw [if_neg ended, stn_settle, State.servo_modServo]
  exact h _

/-- The one exchange of a group in ACQUIRE before the step steps the copy (02_fabric_time R44). -/
theorem servoGroupEnd_steps {s : State} {t : Nat} {die : Fin 40} {rt delay : Nat} {o : Int} (on : (s.advance t).stnOn die = true)
    (ended : (s.advance t).stnFt die / groupTicks ≠ ((s.advance t).stn die).servo.grp)
    (group : ((s.advance t).stn die).servo.group = [(rt, o, delay)]) (acquire : ((s.advance t).stn die).servo.st = svAcquire)
    (first : ((s.advance t).stn die).servo.stepped = false) :
    Completes (.servoGroupEnd t die) s fun r =>
      (r.stn die).servo.group = [] ∧ (r.stn die).servo.stepped = true ∧ (r.stn die).servo.resid = o ∧
        (r.stn die).servo.off = ((s.advance t).stn die).servo.lag (s.advance t).now - max 0 (o.tdiv 2) := by
  refine servoGroupEnd_ended (P := fun v => v.group = [] ∧ v.stepped = true ∧ v.resid = o ∧
    v.off = ((s.advance t).stn die).servo.lag (s.advance t).now - max 0 (o.tdiv 2)) on ended fun _ => ?_
  generalize s.advance t = u at *
  unfold State.groupEnd
  rw [group]
  have emptied := State.servo_modServo u die fun v => { v with group := [] }
  have steps := State.selection_steps (u.modServo die fun v => { v with group := [] }) die o delay
    (by rw [emptied]; exact acquire) (by rw [emptied]; exact first)
  rw [emptied] at steps
  exact steps

/-- The 64th near offset of a group in ACQUIRE locks the servo (02_fabric_time R44, Table 2.1). -/
theorem servoGroupEnd_locks {s : State} {t : Nat} {die : Fin 40} {rt delay : Nat} {o : Int} (on : (s.advance t).stnOn die = true)
    (ended : (s.advance t).stnFt die / groupTicks ≠ ((s.advance t).stn die).servo.grp)
    (group : ((s.advance t).stn die).servo.group = [(rt, o, delay)]) (acquire : ((s.advance t).stn die).servo.st = svAcquire)
    (stepped : ((s.advance t).stn die).servo.stepped = true) (near : o.natAbs ≤ 2)
    (before : 63 ≤ ((s.advance t).stn die).servo.near) :
    Completes (.servoGroupEnd t die) s fun r =>
      (r.stn die).servo.group = [] ∧ (r.stn die).servo.st = svLocked ∧ (r.stn die).servo.high = false := by
  refine servoGroupEnd_ended (P := fun v => v.group = [] ∧ v.st = svLocked ∧ v.high = false) on ended fun _ => ?_
  generalize s.advance t = u at *
  unfold State.groupEnd
  rw [group]
  have emptied := State.servo_modServo u die fun v => { v with group := [] }
  have locks := State.selection_locks (u.modServo die fun v => { v with group := [] }) die o delay
    (by rw [emptied]; exact acquire) (by rw [emptied]; exact stepped) near (by rw [emptied]; exact before)
  rw [emptied] at locks
  exact locks

/-- A LOCKED servo whose group is empty enters HOLDOVER (02_fabric_time Table 2.1). -/
theorem servoGroupEnd_holds {s : State} {t : Nat} {die : Fin 40} (on : (s.advance t).stnOn die = true)
    (ended : (s.advance t).stnFt die / groupTicks ≠ ((s.advance t).stn die).servo.grp)
    (group : ((s.advance t).stn die).servo.group = []) (locked : ((s.advance t).stn die).servo.st = svLocked) :
    Completes (.servoGroupEnd t die) s fun r =>
      (r.stn die).servo.st = svHoldover ∧ (r.stn die).servo.since = (s.advance t).stnFt die := by
  refine servoGroupEnd_ended (P := fun v => v.st = svHoldover ∧ v.since = (s.advance t).stnFt die) on ended fun _ => ?_
  generalize s.advance t = u at *
  unfold State.groupEnd
  rw [group]
  have emptied := State.servo_modServo u die fun v => { v with group := [] }
  have ft : (u.modServo die fun v => { v with group := [] }).stnFt die = u.stnFt die := by
    unfold State.stnFt; rw [emptied]; rfl
  have holds := State.noSelection_holds (u.modServo die fun v => { v with group := [] }) die (by rw [emptied]; exact locked)
  rw [ft] at holds
  exact holds

/-! ## TSYNC records -/

/-- 1 ms after the last one a station admits a TSYNC record (02_fabric_time R51). -/
theorem tsyncPeriodic_admits {s : State} {t : Nat} {die : Fin 40} (on : (s.advance t).stnOn die = true)
    (free : clear (s.advance t) die = true) (due : ((s.advance t).stn die).tsyncAt + msT ≤ (s.advance t).stnFt die) :
    Completes (.tsyncPeriodic t die) s fun r =>
      (r.stn die).tsyncAt = (s.advance t).stnFt die ∧ (r.stn die).cur.map (fun x => x.recs.map (·.ty)) = some [.tsync] := by
  refine done_onStn (show exec (.tsyncPeriodic t die) s = execTsyncPeriodic t die s from rfl) on ?_
  generalize s.advance t = u at *
  have offering : (u.stn die).offering = true := by
    unfold clear at free
    simp only [Bool.and_eq_true] at free
    exact free.1.1.1.1
  dsimp only
  rw [if_pos (by simp [offering, due]), stn_settle, State.stn_modStn_self]
  refine ⟨rfl, ?_⟩
  unfold State.tsyncStn
  obtain ⟨cur, -⟩ := State.admit_clear u die _ free
  dsimp only
  rw [cur]
  rfl

end Sys2Proof.Machine
end

section
/-!
SUPPORT. The reference of the device: its loss, its return, and the step that makes up for it (02_fabric_time R40).
-/

namespace Sys2Proof.Machine

open Sys2Proof.Safety

/-! ## Stations up to an instant -/

theorem stnOnly_bwRow (s : State) (n p ft : Nat) (f : BwPort → BwPort) : StnOnly n s (s.bwRow n p ft f) := stnOnly_setStn n s _

theorem stnOnly_addTime (s : State) (n key v edge : Nat) : StnOnly n s (s.addTime n key v edge) := by
  unfold State.addTime
  split
  · exact StnOnly.refl n s
  · split
    · exact (stnOnly_bump n key v s).trans (stnOnly_modStn n _ _)
    · split
      · exact stnOnly_bump n key v s
      · dsimp only
        split
        · exact stnOnly_bwRow s n _ _ _
        · exact (stnOnly_bwRow s n _ _ _).trans (stnOnly_bwRow _ n _ _ _)

/-- The ticks of TIME increments go to counters and windows of their station (03_counters R73). -/
theorem stnOnly_settleTime (s : State) (n upto : Nat) : StnOnly n s (s.settleTime n upto) := by
  unfold State.settleTime State.settlePend
  exact (stnOnly_modStn n s _).trans (List.foldlRecOn _ _ (StnOnly.refl n _) fun x hx p _ => hx.trans (stnOnly_addTime x n _ _ _))

theorem StnOnly.clk {n : Nat} {s x : State} (h : StnOnly n s x) : x.clk = s.clk := by
  obtain ⟨⟨rg, sn, hw, rfl⟩, -⟩ := h
  rfl

/-- Work at one station after another leaves the clock. -/
theorem clk_foldl_stnOnly (f : State → Nat → State) (h : ∀ s n, StnOnly n s (f s n)) (l : List Nat) (s : State) :
    (l.foldl f s).clk = s.clk :=
  List.foldlRecOn l f (motive := fun x => x.clk = s.clk) rfl fun x hx n _ => (h x n).clk.trans hx

/-! ## The reference -/

/-- The reference is lost: FT stands still and the device time is UNSYNC or worse (02_fabric_time R40, R54). -/
theorem refclkLoss_holds {s : State} {t : Nat} (hub : (s.advance t).hubOn = true) (present : (s.advance t).clk.lostAt = none) :
    Completes (.refclkLoss t) s fun r =>
      r.clk.lostAt = some (s.advance t).now ∧ r.rb Kx.timStatus 1 = true ∧ 2 ≤ r.clk.devTq.toNat := by
  refine done_onHub (show exec (.refclkLoss t) s = execRefclkLoss t s from rfl) hub ?_
  generalize s.advance t = u at *
  dsimp only
  rw [if_neg (by simp [present])]
  have faulted := (srcJrnOnly_faultEvent (u.clkLost.setB Kx.timStatus 1 true) fcRefloss 0 0x40 0 u.now 0 0).heard
  generalize State.faultEvent _ _ _ _ _ _ _ _ = x at faulted ⊢
  have lost : x.clk.lostAt = some u.now := congrArg Clk.lostAt faulted.clk
  have bit : x.rb Kx.timStatus 1 = true := (faulted.rb _ 1).trans (State.rb_setB _ _ 1 true (by decide))
  split
  · have unsync := heard_setDevTq x 2 tsRefLoss 0
    rw [settle_clk, rb_settle, unsync.clk, unsync.rb]
    exact ⟨lost, bit, Nat.le_refl 2⟩
  · rename_i worse
    have told := (srcJrnOnly_tsyncDev x tsRefLoss 0 0).heard
    rw [settle_clk, rb_settle, told.clk, told.rb]
    exact ⟨lost, bit, Nat.le_of_not_lt worse⟩

/-- The reference returns: a step of the counted duration is scheduled 4 µs ahead, and the RTC's periods count on (02_fabric_time
R40, R55). -/
theorem refclkReturn_schedules {s : State} {t : Nat} (cycles : Nat) (hub : (s.advance t).hubOn = true)
    (lost : (s.advance t).clk.lostAt.isSome = true) :
    Completes (.refclkReturn t cycles) s fun r =>
      r.clk.lostAt = none ∧ r.clk.steps = (s.advance t).clk.steps ++ [((s.advance t).now + 4 * usT, ticksOfHub cycles)] ∧
        r.clk.rtcAt = (s.advance t).clk.rtcAt - ticksOfHub cycles := by
  refine done_onHub (show exec (.refclkReturn t cycles) s = execRefclkReturn t cycles s from rfl) hub ?_
  generalize s.advance t = u at *
  have absent : u.clk.lostAt.isNone = false := by rw [← Option.not_isSome, lost]; rfl
  rw [if_neg (by simp [absent])]
  extract_lets step clk returned
  have told := (srcJrnOnly_faultEvent returned fcRefloss 0 0x40 (2 ^ 31) returned.now cycles step).heard
  rw [settle_clk, told.clk]
  exact ⟨rfl, rfl, rfl⟩

/-- A scheduled step whose instant has come moves FT and, with it, the RTC's time scale (02_fabric_time R40, R51, R55). -/
theorem ftStepApply_moves {s : State} {t a d : Nat} (on : (s.advance t).isOn = true) (step : (s.advance t).clk.steps = [(a, d)])
    (due : a ≤ (s.advance t).now) :
    Completes (.ftStepApply t) s fun r =>
      r.clk.now = (s.advance t).now + d ∧ r.clk.steps = [] ∧ r.rb Kx.timStatus 7 = true ∧
        r.clk.rtcAt = (s.advance t).clk.rtcAt + d := by
  refine done_onUnit (show exec (.ftStepApply t) s = execFtStepApply t s from rfl) on ?_
  have ran := now_le_advance s t
  generalize s.advance t = u at *
  have found : (u.clk.steps.find? fun x => decide (x.1 ≤ u.now)) = some (a, d) := by simp [step, due]
  have left : removeFirst (fun x => x.1 == a) u.clk.steps = [] := by simp [step, removeFirst]
  simp -zeta only [found]
  extract_lets settled clk node stepped
  have hsettled : settled.clk = u.clk :=
    clk_foldl_stnOnly _ (fun s n => (stnOnly_settleTime s n _).trans (stnOnly_modStn n _ _)) u.dies u
  have told := (srcJrnOnly_tsyncDev (stepped.setB Kx.timStatus 7 true) tsStep (Int.ofNat d) a).heard
  have moved : (stepped.setB Kx.timStatus 7 true).clk = { u.clk with
      now := u.clk.now + d, steps := [], stby := u.clk.stby.moved d, rtcAt := u.clk.rtcAt + d, trimAt := u.clk.trimAt + d } := by
    rw [← left, ← hsettled]; rfl
  rw [settle_clk, rb_settle, told.clk, told.rb, moved]
  exact ⟨Nat.max_eq_right (Nat.le_trans ran (Nat.le_add_right _ d)), rfl, State.rb_setB stepped _ 7 true (by decide), rfl⟩

/-! ## The whole -/

/-- Settles O14, command by command: each conjunct is the lemma of its command. -/
theorem servo : Obligations.Servo := by
  unfold Obligations.Servo
  intro s t die a b c d rt delay turn cycles o
  dsimp only
  refine ⟨fun on => ⟨timeExchangeRequest_first on, timeReplyReceived_joins on, fun ended group acquire =>
      ⟨servoGroupEnd_steps on ended group acquire, servoGroupEnd_locks on ended group acquire⟩, servoGroupEnd_holds on,
      holdoverTimeout_drifts on, tsyncPeriodic_admits on⟩,
    fun hub => ⟨timeExchangeReply_stamps turn hub, refclkLoss_holds hub, refclkReturn_schedules cycles hub⟩, ftStepApply_moves⟩

end Sys2Proof.Machine
end

section
/-!
SUPPORT. Which parts of the journal a record of the hub's own can change: those that a curd changes as it is copied into the pool, and no
other (06_admission R134-R138). `SrcJrnOnly` leaves the whole journal open; resend requests and the token bucket need this closer frame.
-/

namespace Sys2Proof.Machine

/-- Only the hub internal sources and what a curd changes as it fills a pool buffer differ. -/
def FillsOnly (s x : State) : Prop :=
  ∃ sr pool grants recv dropped fastAt, x = { s with srcs := sr, jrn := { s.jrn with
    pool := pool, grants := grants, recv := recv, dropped := dropped, fastAt := fastAt } }

theorem FillsOnly.refl (s : State) : FillsOnly s s := ⟨_, _, _, _, _, _, rfl⟩

theorem FillsOnly.trans {s x y : State} (h : FillsOnly s x) (g : FillsOnly x y) : FillsOnly s y := by
  obtain ⟨_, _, _, _, _, _, rfl⟩ := h
  obtain ⟨_, _, _, _, _, _, rfl⟩ := g
  exact ⟨_, _, _, _, _, _, rfl⟩

theorem FillsOnly.reqs {s x : State} (h : FillsOnly s x) : x.jrn.reqs = s.jrn.reqs := by
  obtain ⟨_, _, _, _, _, _, rfl⟩ := h
  rfl

theorem FillsOnly.tok {s x : State} (h : FillsOnly s x) : x.jrn.tok = s.jrn.tok := by
  obtain ⟨_, _, _, _, _, _, rfl⟩ := h
  rfl

theorem fillsOnly_foldl {α : Type} (f : State → α → State) (h : ∀ s a, FillsOnly s (f s a)) (l : List α) (s : State) :
    FillsOnly s (l.foldl f s) :=
  List.foldlRecOn l f (FillsOnly.refl s) fun x hx a _ => hx.trans (h x a)

theorem fillsOnly_modSrc (s : State) (k : Nat) (f : HubSrc → HubSrc) : FillsOnly s (s.modSrc k f) := ⟨_, _, _, _, _, _, rfl⟩

/-! ## The assembly buffers of a source -/

/-- Source k works its assembly buffers: it keeps the records in wait, its numbers and its pending GAP counts. -/
structure Assembles (k : Nat) (s x : State) : Prop where
  fills : FillsOnly s x
  wait : (x.src k).wait = (s.src k).wait
  seq : (x.src k).seq = (s.src k).seq
  gaps : (x.src k).gaps = (s.src k).gaps

theorem Assembles.refl (k : Nat) (s : State) : Assembles k s s := ⟨FillsOnly.refl s, rfl, rfl, rfl⟩

theorem Assembles.trans {k : Nat} {s x y : State} (h : Assembles k s x) (g : Assembles k x y) : Assembles k s y :=
  ⟨h.fills.trans g.fills, g.wait.trans h.wait, g.seq.trans h.seq, g.gaps.trans h.gaps⟩

theorem assembles_modSrc {k : Nat} {s : State} {f : HubSrc → HubSrc} (wait : (f (s.src k)).wait = (s.src k).wait)
    (seq : (f (s.src k)).seq = (s.src k).seq) (gaps : (f (s.src k)).gaps = (s.src k).gaps) : Assembles k s (s.modSrc k f) :=
  ⟨fillsOnly_modSrc s k f, by rwa [State.src_modSrc_self], by rwa [State.src_modSrc_self], by rwa [State.src_modSrc_self]⟩

/-- A curd that fills a pool buffer leaves the sources. -/
theorem assembles_fillPool (s : State) (u k g : Nat) (c : Curd) :
    Assembles k s (({ s with jrn := { s.jrn with grants := snum s.jrn.grants u g } }).fillPool u c) :=
  ⟨⟨_, _, _, _, _, _, rfl⟩, rfl, rfl, rfl⟩

theorem assembles_pumpSrc (s : State) (k : Nat) : Assembles k s (s.pumpSrc k) := by
  unfold State.pumpSrc
  split
  · exact Assembles.refl k s
  · rename_i c l _
    have taken : Assembles k s (s.modSrc k fun h => { h with full := l }) := assembles_modSrc rfl rfl rfl
    dsimp only
    split
    · exact Assembles.refl k s
    · split
      · exact taken
      · exact taken.trans (assembles_fillPool _ _ k _ c)

theorem assembles_closeSrc (s : State) (k : Nat) (cause : BitVec 2) : Assembles k s (s.closeSrc k cause) := by
  unfold State.closeSrc
  split
  · exact Assembles.refl k s
  · refine Assembles.trans ?_ (assembles_pumpSrc _ k)
    exact assembles_modSrc rfl rfl rfl

theorem assembles_storeSrc (s : State) (k : Nat) (r : Record) : Assembles k s (s.storeSrc k r).1 := by
  have opened : ∀ (x : State) (p : Prop) [Decidable p] (c : Curd),
      Assembles k x (if p then (x, false) else (x.modSrc k fun h => { h with cur := some c, curAt := x.now }, true)).1 := by
    intro x p _ c
    split
    · exact Assembles.refl k x
    · dsimp only
      exact assembles_modSrc rfl rfl rfl
  unfold State.storeSrc
  dsimp only
  split
  · split
    · dsimp only
      exact assembles_modSrc rfl rfl rfl
    · exact (assembles_closeSrc s k closeFull).trans (opened _ _ _)
  · exact opened s _ _

/-! ## Records of a source -/

theorem fillsOnly_numberSrc (s : State) (k : Nat) (r : Record) : FillsOnly s (s.numberSrc k r).1 := ⟨_, _, _, _, _, _, rfl⟩

theorem fillsOnly_flushSrcGaps (s : State) (k : Nat) (p : GapAcc → Bool) : FillsOnly s (s.flushSrcGaps k p) := by
  refine fillsOnly_foldl _ (fun s g => ?_) _ s
  dsimp only
  split
  · exact ((fillsOnly_numberSrc s k _).trans (assembles_storeSrc _ k _).fills).trans (fillsOnly_modSrc _ k _)
  · exact fillsOnly_modSrc s k _

theorem fillsOnly_leaveSrc (s : State) (k : Nat) (cause : BitVec 2) : FillsOnly s (s.leaveSrc k cause) := by
  have left : ∀ (s : State) (g : GapAcc), FillsOnly s (State.leaveGap cause k s g) := by
    intro s g
    unfold State.leaveGap
    dsimp only
    split
    · exact (assembles_closeSrc s k cause).fills.trans (fillsOnly_flushSrcGaps _ k _)
    · exact fillsOnly_flushSrcGaps s k _
  exact ((fillsOnly_foldl _ left _ s).trans (assembles_closeSrc _ k cause).fills).trans (fillsOnly_modSrc _ k _)

theorem fillsOnly_enterEpoch (s : State) (k : Nat) (r : Record) : FillsOnly s (s.enterEpoch k r) := by
  unfold State.enterEpoch
  dsimp only
  split
  · exact FillsOnly.refl s
  · refine FillsOnly.trans ?_ (fillsOnly_modSrc _ 0 _)
    split
    · exact fillsOnly_leaveSrc s 0 _
    · exact FillsOnly.refl s

/-- A record that source k loses is counted, and a count that has reached its top is admitted (05_records R128). -/
def State.loseSrc (s : State) (k : Nat) (seq cause : Nat) : State :=
  (s.modSrc k fun h => { h with gaps := countGap h.gaps (hubSrcId k) lkindHub cause seq s.now }).flushSrcGaps k
    fun g => g.count == 2 ^ 40 - 1

theorem fillsOnly_loseSrc (s : State) (k seq cause : Nat) : FillsOnly s (s.loseSrc k seq cause) :=
  (fillsOnly_modSrc s k _).trans (fillsOnly_flushSrcGaps _ k _)

/-- A numbered record of source k is paced, then stored or lost (06_admission R138, R154). -/
def State.placeSrc (s : State) (k : Nat) (r : Record) : State :=
  let taken := (s.src k).pace.take s.now r
  let paced := s.modSrc k fun h => { h with pace := taken.1 }
  let stored := paced.storeSrc k r
  if taken.2 then (paced.modSrc k fun h => { h with offer := { h.offer with refused := h.offer.refused + recBytes r } }).loseSrc k r.seq cPace
  else if stored.2 then stored.1.flushSrcGaps k fun _ => true
  else stored.1.loseSrc k r.seq cNoBuf

/-- Admission at a source: the boundary of an epoch, the GAP records that are due, the number, the place. -/
theorem State.acceptSrc_eq (s : State) (k : Nat) (r : Record) :
    s.acceptSrc k r =
      let x := (if r.ty == .epoch then s.enterEpoch k r else (s.enterEpoch k r).flushSrcGaps k (·.due)).numberSrc k r
      x.1.placeSrc k x.2 := rfl

theorem fillsOnly_placeSrc (s : State) (k : Nat) (r : Record) : FillsOnly s (s.placeSrc k r) := by
  unfold State.placeSrc
  extract_lets taken paced stored
  have hpaced : FillsOnly s paced := fillsOnly_modSrc s k _
  have hstored : FillsOnly s stored.1 := hpaced.trans (assembles_storeSrc paced k r).fills
  split
  · exact (hpaced.trans (fillsOnly_modSrc paced k _)).trans (fillsOnly_loseSrc _ k _ _)
  · split
    · exact hstored.trans (fillsOnly_flushSrcGaps _ k _)
    · exact hstored.trans (fillsOnly_loseSrc _ k _ _)

theorem fillsOnly_acceptSrc (s : State) (k : Nat) (r : Record) : FillsOnly s (s.acceptSrc k r) := by
  rw [State.acceptSrc_eq]
  refine FillsOnly.trans ?_ ((fillsOnly_numberSrc _ k r).trans (fillsOnly_placeSrc _ k _))
  split
  · exact fillsOnly_enterEpoch s k r
  · exact (fillsOnly_enterEpoch s k r).trans (fillsOnly_flushSrcGaps _ k _)

/-- A record that the hub forms waits for the standby or is admitted. -/
theorem fillsOnly_hubRec (s : State) (k : Nat) (r : Record) : FillsOnly s (s.hubRec k r) := by
  unfold State.hubRec
  split
  · exact FillsOnly.refl s
  · split
    · exact fillsOnly_modSrc s k _
    · exact fillsOnly_acceptSrc s k r

/-! ## Admission at a source without pending GAP counts -/

/-- Where no pending count passes the test, none is admitted. -/
theorem State.flushSrcGaps_none (s : State) (k : Nat) (p : GapAcc → Bool) (h : (s.src k).gaps.filter p = []) :
    s.flushSrcGaps k p = s := by
  unfold State.flushSrcGaps
  rw [h]
  rfl

theorem assembles_leaveSrc {s : State} {k : Nat} (cause : BitVec 2) (noGaps : (s.src k).gaps = []) :
    Assembles k s (s.leaveSrc k cause) := by
  unfold State.leaveSrc
  rw [noGaps]
  have closed := assembles_closeSrc s k cause
  refine closed.trans (assembles_modSrc rfl rfl ?_)
  rw [closed.gaps, noGaps]
  rfl

theorem assembles_enterEpoch {s : State} {k : Nat} (r : Record) (noGaps : (s.src k).gaps = []) :
    Assembles k s (s.enterEpoch k r) := by
  unfold State.enterEpoch
  split
  · exact Assembles.refl k s
  · rename_i entered
    obtain rfl : k = 0 := Decidable.byContradiction fun other => entered (by simp only [bne_iff_ne.mpr other, Bool.true_or])
    refine Assembles.trans ?_ (assembles_modSrc rfl rfl rfl)
    split
    · exact assembles_leaveSrc _ noGaps
    · exact Assembles.refl 0 s

/-- A first loss is one count, far from its top. -/
theorem State.loseSrc_first (s : State) (k seq cause : Nat) (noGaps : (s.src k).gaps = []) :
    ((s.loseSrc k seq cause).src k).wait = (s.src k).wait ∧ ((s.loseSrc k seq cause).src k).seq = (s.src k).seq := by
  unfold State.loseSrc
  rw [State.flushSrcGaps_none _ k _ (by rw [State.src_modSrc_self, noGaps]; rfl), State.src_modSrc_self]
  exact ⟨rfl, rfl⟩

/-- Whatever place a numbered record finds, its source keeps the records in wait and its next number. -/
theorem State.placeSrc_keeps (s : State) (k : Nat) (r : Record) (noGaps : (s.src k).gaps = []) :
    ((s.placeSrc k r).src k).wait = (s.src k).wait ∧ ((s.placeSrc k r).src k).seq = (s.src k).seq := by
  unfold State.placeSrc
  extract_lets taken paced stored
  have hpaced : Assembles k s paced := assembles_modSrc rfl rfl rfl
  have hstored : Assembles k s stored.1 := hpaced.trans (assembles_storeSrc paced k r)
  have lost : ∀ x cause, Assembles k s x → ((x.loseSrc k r.seq cause).src k).wait = (s.src k).wait ∧
      ((x.loseSrc k r.seq cause).src k).seq = (s.src k).seq := by
    intro x cause hx
    obtain ⟨wait, seq⟩ := State.loseSrc_first x k r.seq cause (hx.gaps.trans noGaps)
    exact ⟨wait.trans hx.wait, seq.trans hx.seq⟩
  split
  · exact lost _ _ (hpaced.trans (assembles_modSrc rfl rfl rfl))
  · split
    · rw [State.flushSrcGaps_none _ k _ (by rw [hstored.gaps, noGaps]; rfl)]
      exact ⟨hstored.wait, hstored.seq⟩
    · exact lost _ _ hstored

/-- A record that is admitted takes its source's next sequence number (05_records R120, 06_admission R138). -/
theorem State.acceptSrc_numbers (s : State) (k : Nat) (r : Record) (noGaps : (s.src k).gaps = []) :
    ((s.acceptSrc k r).src k).wait = (s.src k).wait ∧ ((s.acceptSrc k r).src k).seq = (s.src k).seq + 1 := by
  have entered := assembles_enterEpoch r noGaps
  have gaps := entered.gaps.trans noGaps
  rw [State.acceptSrc_eq, State.flushSrcGaps_none _ k _ (by rw [gaps]; rfl), ite_self]
  dsimp only
  obtain ⟨wait, seq⟩ := State.placeSrc_keeps ((s.enterEpoch k r).numberSrc k r).1 k ((s.enterEpoch k r).numberSrc k r).2
    (by unfold State.numberSrc; rw [State.src_modSrc_self]; exact gaps)
  rw [wait, seq]
  unfold State.numberSrc
  rw [State.src_modSrc_self]
  exact ⟨entered.wait, congrArg (· + 1) entered.seq⟩

end Sys2Proof.Machine
end

section
/-!
SUPPORT. Admission at a station writes no register of the hub: it counts in registers of the station's window (17_setup_registers R385).
-/

namespace Sys2Proof.Machine

open Sys2Proof.Safety

/-- The registers below the station windows read the same. -/
def HubRegs (s x : State) : Prop := ∀ r : Reg, r.off < 0x2000000 → x.rd r = s.rd r

theorem HubRegs.refl (s : State) : HubRegs s s := fun _ _ => rfl

theorem HubRegs.trans {s x y : State} (h : HubRegs s x) (g : HubRegs x y) : HubRegs s y :=
  fun r hr => (g r hr).trans (h r hr)

theorem hubRegs_of_regs {s x : State} (h : x.regs = s.regs) : HubRegs s x := fun r _ => State.rd_congr r h

theorem SrcJrnOnly.hubRegs {s x : State} (h : SrcJrnOnly s x) : HubRegs s x := by
  obtain ⟨sr, j, rfl⟩ := h
  exact hubRegs_of_regs rfl

theorem hubRegs_foldl {α : Type} (f : State → α → State) (h : ∀ s a, HubRegs s (f s a)) (l : List α) (s : State) :
    HubRegs s (l.foldl f s) :=
  List.foldlRecOn l f (HubRegs.refl s) fun x hx a _ => hx.trans (h x a)

theorem hubRegs_modStn (s : State) (n : Nat) (f : Stn → Stn) : HubRegs s (s.modStn n f) := hubRegs_of_regs rfl

theorem hubRegs_bump (s : State) (n key d : Nat) : HubRegs s (s.bump n key d) :=
  fun r hr => State.rd_bump s n key d r (by simp only [Kx.stnCovf]; omega)

theorem hubRegs_numberAt (s : State) (n : Nat) (r : Record) (ft : Nat) : HubRegs s (s.numberAt n r ft).1 :=
  HubRegs.trans (hubRegs_of_regs rfl) (hubRegs_bump _ n (256 + 42) 1)

theorem hubRegs_storeOrd (s : State) (n : Nat) (r : Record) : HubRegs s (s.storeOrd n r).1 := by
  have closed : HubRegs s (s.closeCur n closeFull) := by
    unfold State.closeCur
    dsimp only
    split
    · exact HubRegs.refl s
    · exact hubRegs_of_regs rfl
  unfold State.storeOrd
  split
  · split
    · exact hubRegs_modStn s n _
    · dsimp only
      split
      · exact closed
      · exact closed.trans (hubRegs_modStn _ n _)
  · split
    · exact HubRegs.refl s
    · exact hubRegs_modStn s n _

theorem hubRegs_storeRsv (s : State) (n : Nat) (r : Record) : HubRegs s (s.storeRsv n r).1 := by
  unfold State.storeRsv
  split
  · split
    · exact hubRegs_modStn s n _
    · unfold State.closeRsv
      dsimp only
      split
      · exact HubRegs.refl s
      · exact hubRegs_of_regs rfl
  · split
    · exact hubRegs_modStn s n _
    · exact HubRegs.refl s

theorem hubRegs_admitGap (s : State) (n : Nat) (g : GapAcc) : HubRegs s (s.admitGap n g) := by
  have numbered := hubRegs_numberAt s n (gapRecord g) (s.stnFt n)
  unfold State.admitGap State.number
  dsimp only
  generalize s.numberAt n (gapRecord g) (s.stnFt n) = x at numbered ⊢
  split
  · refine ((numbered.trans (hubRegs_storeRsv x.1 n x.2)).trans ?_).trans (hubRegs_bump _ n (256 + 43) g.count)
    exact hubRegs_of_regs rfl
  · exact (hubRegs_storeRsv s n _).trans (hubRegs_modStn _ n _)

theorem hubRegs_flushGaps (s : State) (n : Nat) (p : GapAcc → Bool) : HubRegs s (s.flushGaps n p) :=
  hubRegs_foldl _ (fun s g => hubRegs_admitGap s n g) _ s

theorem hubRegs_lose (s : State) (n : Nat) (r : Record) (cause : Nat) : HubRegs s (s.lose n r cause) := by
  unfold State.lose
  extract_lets counted noted
  have hcounted : HubRegs s counted := by
    change HubRegs s (if _ then _ else _)
    split
    · exact fun q hq => State.rd_incF_ne s _ q _ _ _ (by simp only [Kx.stnPcsStat]; omega)
    · exact HubRegs.refl s
  exact (hcounted.trans (hubRegs_modStn counted n _)).trans (hubRegs_flushGaps noted n _)

theorem hubRegs_admitRec (s : State) (n : Nat) (r : Record) : HubRegs s (s.admitRec n r) := by
  unfold State.admitRec State.admitR State.number
  split
  · exact HubRegs.refl s
  · dsimp only
    have numbered := hubRegs_numberAt s n r (s.stnFt n)
    generalize s.numberAt n r (s.stnFt n) = x at numbered ⊢
    obtain ⟨y, r⟩ := x
    have paced : HubRegs s (y.pace n r).1 := numbered.trans (hubRegs_modStn y n _)
    split
    · exact paced.trans (hubRegs_lose _ n r _)
    · refine (paced.trans (hubRegs_storeOrd _ n r)).trans ?_
      split
      · exact hubRegs_flushGaps _ n _
      · exact hubRegs_lose _ n r _

theorem hubRegs_startOffering (s : State) (n : Nat) : HubRegs s (s.startOffering n) := by
  unfold State.startOffering
  extract_lets st pacer offering
  split
  · exact ((hubRegs_modStn s n _).trans (hubRegs_admitRec offering n _)).trans (hubRegs_admitRec _ n _)
  · exact HubRegs.refl s

theorem StnOnly.jrn {n : Nat} {s x : State} (h : StnOnly n s x) : x.jrn = s.jrn := by
  obtain ⟨⟨rg, sn, hw, rfl⟩, -⟩ := h
  rfl

end Sys2Proof.Machine
end

section
/-!
SUPPORT. The pool's allocator, and the route channels: neither sends a resend request (05_records R124, 06_admission R135, 14_startup
Table 14.4).
-/

namespace Sys2Proof.Machine

open Sys2Proof.Safety

/-! ## The allocator -/

theorem State.rrOrder_nil (s : State) : s.rrOrder [] = [] :=
  List.filter_eq_nil_iff.mpr fun _ _ listed => List.not_mem_nil (of_decide_eq_true listed)

/-- With an empty wait list there is nobody to serve. -/
theorem State.serveWait_idle (s : State) (h : s.jrn.wait = []) : s.serveWait = s := by
  unfold State.serveWait
  rw [h, State.rrOrder_nil]
  rfl

theorem reqs_setNoBuf (s : State) (u : Nat) (b : Bool) : (s.setNoBuf u b).jrn.reqs = s.jrn.reqs := by
  unfold State.setNoBuf
  split
  · rfl
  · rfl

theorem reqs_grant (s : State) (u : Nat) : (s.grant u).jrn.reqs = s.jrn.reqs := by
  unfold State.grant
  extract_lets j granted told k pumped
  have htold : told.jrn.reqs = s.jrn.reqs := reqs_setNoBuf granted u false
  have hpumped : pumped.jrn.reqs = s.jrn.reqs := (assembles_pumpSrc told k).fills.reqs.trans htold
  split
  · exact htold
  · split
    · exact (fillsOnly_flushSrcGaps pumped k _).reqs.trans hpumped
    · exact hpumped

theorem reqs_serveWait (s : State) : s.serveWait.jrn.reqs = s.jrn.reqs := by
  unfold State.serveWait
  refine List.foldlRecOn _ _ (motive := fun x : State => x.jrn.reqs = s.jrn.reqs) rfl fun x hx u _ => ?_
  split
  · exact (reqs_grant x u).trans hx
  · exact hx

/-- Among 48 requesters in round-robin order each one stands once. -/
theorem State.rrOrder_single (s : State) (u : Fin 48) : s.rrOrder [u.val] = [u.val] := by
  have once : ((List.range 48).map fun i => (s.jrn.rr + i) % 48).Nodup := by
    refine List.pairwise_map.mpr (List.pairwise_lt_range.imp_of_mem fun {i j} hi hj less => ?_)
    have hi48 := List.mem_range.mp hi
    have hj48 := List.mem_range.mp hj
    omega
  have listed : u.val ∈ (List.range 48).map fun i => (s.jrn.rr + i) % 48 :=
    List.mem_map.mpr ⟨(u.val + 48 - s.jrn.rr % 48) % 48, List.mem_range.mpr (by omega), by omega⟩
  unfold State.rrOrder
  simp only [List.mem_singleton]
  rw [List.filter_eq, once.count, if_pos listed]
  rfl

/-! ## A route channel -/

/-- A servo that enters a state leaves the journal. -/
theorem jrn_servoEnter (s : State) (n : Nat) (st : BitVec 3) : (s.servoEnter n st).jrn = s.jrn := by
  unfold State.servoEnter
  extract_lets x ft entered locked noted counted told
  have hlocked : locked.jrn = s.jrn := by
    change State.jrn (if _ then _ else _) = _
    split
    · rfl
    · rfl
  have hnoted : noted.jrn = locked.jrn := by
    change State.jrn (if _ then _ else _) = _
    split
    · rfl
    · rfl
  have hcounted : counted.jrn = noted.jrn := by
    change State.jrn (if _ then _ else _) = _
    split
    · rfl
    · exact (stnOnly_bumpAo n 58 1 noted).jrn
  have htold : told.jrn = counted.jrn := ((keepsServo_raiseTq counted n).trans (keepsServo_tsyncStn _ n _)).only.jrn
  exact (keepsServo_startOffering told n).only.jrn.trans (htold.trans (hcounted.trans (hnoted.trans hlocked)))

theorem reqs_moveRoute (s : State) (n : Nat) (back : Bool) : (s.moveRoute n back).jrn.reqs = s.jrn.reqs := by
  unfold State.moveRoute State.routeSwitch
  extract_lets moved
  have hmoved : moved.jrn.reqs = s.jrn.reqs := (fillsOnly_hubRec s 6 _).reqs
  split
  · exact (congrArg Jrn.reqs (jrn_servoEnter moved n svHoldover)).trans hmoved
  · exact hmoved

/-- A channel of a station's traffic: its direct or its alternate route (14_startup Table 14.4). -/
def isRoute (ch : Nat) : Prop := chanType ch = 1 ∨ chanType ch = 2

theorem isRoute_routeOf (s : State) (die : Fin 40) : isRoute (s.routeOf die) := by
  unfold isRoute State.routeOf chanType
  split
  · omega
  · omega

theorem reqs_onRetire {ch : Nat} (s : State) (h : isRoute ch) : (s.onRetire ch).jrn.reqs = s.jrn.reqs := by
  unfold State.onRetire
  obtain direct | alternate := h
  · simp only [direct]
    split
    · rfl
    · exact reqs_moveRoute s _ false
  · simp only [alternate]
    split
    · rfl
    · rfl

theorem reqs_chanRecord (s : State) (ch fkind cause : Nat) : (s.chanRecord ch fkind cause).jrn.reqs = s.jrn.reqs :=
  (fillsOnly_hubRec s 6 _).reqs

theorem reqs_retireChan {ch : Nat} (s : State) (cause : Nat) (h : isRoute ch) : (s.retireChan ch cause).jrn.reqs = s.jrn.reqs := by
  unfold State.retireChan
  split
  · rfl
  · exact (reqs_onRetire _ h).trans (reqs_chanRecord _ ch fkPermanent cause)

theorem reqs_closeWindow {ch : Nat} (s : State) (h : isRoute ch) : (s.closeWindow ch).jrn.reqs = s.jrn.reqs := by
  unfold State.closeWindow
  extract_lets c w hot counted retired
  split
  · rfl
  · change (State.jrn (if _ then _ else _)).reqs = _
    split
    · exact reqs_retireChan counted ccRate h
    · rfl

theorem reqs_channelError {ch : Nat} (s : State) (h : isRoute ch) : (s.channelError ch).jrn.reqs = s.jrn.reqs := by
  unfold State.channelError
  split
  · rfl
  · dsimp only
    split
    · exact reqs_closeWindow s h
    · exact (reqs_chanRecord _ ch fkTransient ccEvent).trans (reqs_closeWindow s h)

theorem reqs_retryResult_failed {ch : Nat} (s : State) (h : isRoute ch) : (s.retryResult ch false).jrn.reqs = s.jrn.reqs := by
  unfold State.retryResult
  split
  · rfl
  · rw [if_neg Bool.false_ne_true]
    dsimp only
    split
    · exact reqs_retireChan _ ccExhaust h
    · rfl

/-- A curd whose CRC fails makes the hub ask for one more resend (05_records R124). -/
theorem reqs_crcFail (s : State) (die : Fin 40) (c : Curd) (reqs : Nat) :
    sgetD (s.crcFail die c reqs).jrn.reqs die 0 = sgetD s.jrn.reqs die 0 + 1 := by
  unfold State.crcFail
  extract_lets ch again k j asked
  have route : isRoute ch := isRoute_routeOf s die
  have hasked : sgetD asked.jrn.reqs die 0 = sgetD s.jrn.reqs die 0 + 1 := sgetD_sput_self _ _ _ _
  split
  · have retried := reqs_retryResult_failed asked route
    split
    · rw [State.curdCrc, State.faultEvent, State.fault, (fillsOnly_hubRec _ 6 _).reqs, retried, hasked]
    · rw [retried, hasked]
  · rw [reqs_channelError asked route, hasked]

end Sys2Proof.Machine
end

section
/-!
SUPPORT. The way of a curd through the hub, command by command: link, pool, journal, acceptance, delivery; then the records of the hub's own
sources, the mirror, the end of a rebuild and the journal's enable (05_records R124, 06_admission R132-R144, 01_unit_anatomy R25, R30).
-/

namespace Sys2Proof.Machine

open Sys2Proof.Safety

/-! ## From the link to the pool -/

/-- A curd that no failed CRC holds back, that repeats none and has none missing before it, fills a pool buffer. -/
theorem State.arrive_fills (s : State) (n : Nat) (c : Curd) (reqs : Nat) (free : sget s.jrn.crcHold n = none)
    (fresh : s.isDup n c = false) (whole : sget s.jrn.expect n = none) (held : s.jrn.held = []) :
    (s.arrive n c reqs).stns = s.stns ∧ (s.arrive n c reqs).jrn.wait = s.jrn.wait ∧
      (s.arrive n c reqs).jrn.pool = s.jrn.pool ++ [{ req := n, curd := c }] := by
  have entered : ∀ x : State, x.isDup n c = false → sget x.jrn.expect n = none → x.enterPool n c = x.fillPool n c := by
    intro x hfresh hwhole
    unfold State.enterPool State.detect
    rw [hfresh, hwhole]
    rfl
  have unheld : ¬ reqs < sgetD s.jrn.crcHold n 0 := by simp [sgetD, free]
  unfold State.arrive
  simp only [unheld, decide_false, Bool.false_eq_true, if_false, held, List.filter_nil, byFirst, List.mergeSort_nil, List.foldl_nil]
  rw [entered]
  · exact ⟨rfl, rfl, rfl⟩
  · exact fresh
  · exact whole

/-- A curd with a good CRC leaves the link and enters the pool (06_admission R132). -/
theorem curdReceived_pools {s : State} {t : Nat} {die : Fin 40} {c : Curd} {reqs : Nat} (hub : (s.advance t).hubOn = true)
    (link : ((s.advance t).stn die).link = [(c, reqs)]) (free : sget (s.advance t).jrn.crcHold die = none)
    (fresh : (s.advance t).isDup die c = false) (whole : sget (s.advance t).jrn.expect die = none)
    (held : (s.advance t).jrn.held = []) (idle : (s.advance t).jrn.wait = []) :
    Completes (.curdReceived t die true) s fun r =>
      (r.stn die).link = [] ∧
        (r.jrn.pool.map fun x => (x.req, x.curd)) = ((s.advance t).jrn.pool.map fun x => (x.req, x.curd)) ++ [(die.val, c)] := by
  refine done_onHub (show exec (.curdReceived t die true) s = execCurdReceived t die true s from rfl) hub ?_
  generalize s.advance t = u at *
  simp only [link, if_true, free, State.modStn_jrn, Option.isSome_none, Bool.false_and, Bool.false_eq_true, if_false, stn_settle]
  have sent := State.stn_modStn_self u die fun st => { st with link := [] }
  obtain ⟨stns, wait, pool⟩ := State.arrive_fills (u.modStn die fun st => { st with link := [] }) die c reqs free fresh whole held
  generalize State.arrive _ _ _ _ = x at *
  rw [State.serveWait_idle x (wait.trans idle)]
  refine ⟨?_, (congrArg (List.map _) pool).trans List.map_append⟩
  exact (congrArg (fun m => (sgetD m die {}).link) stns).trans (congrArg Stn.link sent)

/-- A curd with a bad CRC makes the hub ask for one more resend (05_records R124). -/
theorem curdReceived_asks {s : State} {t : Nat} {die : Fin 40} {c : Curd} {reqs : Nat} (hub : (s.advance t).hubOn = true)
    (link : ((s.advance t).stn die).link = [(c, reqs)]) :
    Completes (.curdReceived t die false) s fun r =>
      sgetD r.jrn.reqs die 0 = sgetD (s.advance t).jrn.reqs die 0 + 1 := by
  refine done_onHub (show exec (.curdReceived t die false) s = execCurdReceived t die false s from rfl) hub ?_
  generalize s.advance t = u at *
  simp only [link, Bool.false_eq_true, if_false]
  exact (congrArg (sgetD · die 0) (reqs_serveWait _)).trans (reqs_crcFail _ die c reqs)

/-! ## The pool -/

/-- A station's request is granted a buffer while one is free, and waits otherwise (06_admission R135). -/
theorem poolRequest_grants {s : State} {t : Nat} {un : Fin 48} (hub : (s.advance t).hubOn = true) (station : un.val < 40)
    (idle : (s.advance t).jrn.wait = []) (allowed : (s.advance t).canRequest un = true)
    (few : sgetD (s.advance t).jrn.grants un 0 < 2) :
    Completes (.poolRequest t [un]) s fun r =>
      if 0 < (s.advance t).poolFree then sgetD r.jrn.grants un 0 = sgetD (s.advance t).jrn.grants un 0 + 1
      else r.jrn.wait = [un.val] ∧ (r.stn un).noBuf = true := by
  refine done_onHub (show exec (.poolRequest t [un]) s = execPoolRequest t [un] s from rfl) hub ?_
  generalize s.advance t = u at *
  have admitted : (!u.canRequest un || decide (2 ≤ sgetD u.jrn.grants un 0) || decide (un.val ∈ u.jrn.wait)) = false := by
    simp [allowed, few, idle]
  simp only [State.serveWait_idle u idle, List.map_cons, List.map_nil, State.rrOrder_single, List.foldl_cons, List.foldl_nil,
    State.request, admitted, Bool.false_eq_true, if_false]
  split
  · unfold State.grant State.setNoBuf
    simp [station, sadd]
  · unfold State.setNoBuf
    simp [station, idle]

/-- A pool entry whose life is over frees (06_admission R134). -/
theorem poolBufferFree_frees {s : State} {t j : Nat} {e : PoolEnt} (hub : (s.advance t).hubOn = true)
    (pool : (s.advance t).jrn.pool = [e]) (index : e.jidx = some j) (done : (s.advance t).entryDone e = true)
    (idle : (s.advance t).jrn.wait = []) : Completes (.poolBufferFree t j) s fun r => r.jrn.pool = [] := by
  refine done_onHub (show exec (.poolBufferFree t j) s = execPoolBufferFree t j s from rfl) hub ?_
  generalize s.advance t = u at *
  have mine : (e.jidx == some j && u.entryDone e) = true := by simp [index, done]
  simp only [pool, List.any_cons, mine, Bool.true_or, if_true, removeFirst]
  rw [State.serveWait_idle]
  · rfl
  · exact idle

/-! ## The journal -/

/-- The writer's bookkeeping at a take leaves all but the bucket and the note of a wait for tokens. -/
theorem State.noteBreak_refill (s : State) :
    ∃ fastAt, s.noteBreak.refill = { s with jrn := { s.jrn with tok := s.tokNow, tokAt := s.now, fastAt := fastAt } } := by
  unfold State.noteBreak
  split
  · exact ⟨none, rfl⟩
  · exact ⟨s.jrn.fastAt, rfl⟩

theorem State.holeFor_none (s : State) (e : PoolEnt) (h : s.jrn.holes = []) : s.holeFor e = none := by
  unfold State.holeFor
  simp only [h, List.find?_nil]

theorem State.lapSubs_room (s : State) (h : s.jrn.widx < s.nslot) : s.lapSubs = s := by
  unfold State.lapSubs
  rw [if_pos h]

theorem State.sealCurd_open (s : State) (u : Nat) (c : Curd) (h : s.sealOn u = false) : s.sealCurd u c = (s, c) := by
  unfold State.sealCurd
  rw [h]
  rfl

/-- With the bucket up to date, the writer takes a station's waiting curd, where it is not sealed and goes to a slot of its own
(06_admission R141). -/
theorem journalTake_refilled {s x : State} {t : Nat} {un : Fin 48} {e : PoolEnt} (hub : (s.advance t).hubOn = true)
    (refilled : (s.advance t).noteBreak.refill = x) (station : un.val < 40) (pool : x.jrn.pool = [e]) (mine : e.req = un.val)
    (waiting : e.jidx = none) (on : x.jrnOn = true) (paid : curdCharge ≤ x.jrn.tok) (budget : x.budgetRate ≠ 0)
    (holes : x.jrn.holes = []) (room : x.jrn.widx < x.nslot) (unsealed : x.sealOn un = false) (turn : x.inTurn e = true) :
    Completes (.journalTake t un) s fun r =>
      r.jrn.widx = x.jrn.widx + 1 ∧ r.jrn.pool = [{ e with jidx := some x.jrn.widx }] ∧ r.jrn.tok = x.jrn.tok - curdCharge ∧
        r.jrn.jobs = x.jrn.jobs ++ [{ jidx := x.jrn.widx, curd := e.curd, at_ := x.now }] := by
  refine done_onHub (show exec (.journalTake t un) s = execJournalTake t un s from rfl) hub ?_
  have found : (e.req == un.val && e.jidx.isNone && x.inTurn e) = true := by simp [mine, waiting, turn]
  have taken : (!x.jrnOn || decide (x.jrn.tok < curdCharge) || decide (x.budgetRate = 0)) = false := by
    simp [on, budget, paid]
  simp only [refilled, pool, List.find?_cons, found, taken, station, if_true, State.holeFor_none x e holes, Option.isSome_none,
    Bool.false_eq_true, if_false, State.lapSubs_room x room, State.sealCurd_open x un e.curd unsealed, replaceFirst,
    Option.map_none, Option.getD_none]
  exact ⟨rfl, rfl, rfl, rfl⟩

/-- The writer takes a unit's waiting curd for one charge of tokens and gives it the next index (06_admission R141, R142). -/
theorem journalTake_takes {s : State} {t : Nat} {un : Fin 48} {e : PoolEnt} (hub : (s.advance t).hubOn = true) (station : un.val < 40)
    (pool : (s.advance t).jrn.pool = [e]) (mine : e.req = un.val) (waiting : e.jidx = none) (on : (s.advance t).jrnOn = true)
    (paid : curdCharge ≤ (s.advance t).tokNow) (budget : (s.advance t).budgetRate ≠ 0) (holes : (s.advance t).jrn.holes = [])
    (room : (s.advance t).jrn.widx < (s.advance t).nslot) (unsealed : (s.advance t).sealOn un = false)
    (turn : (s.advance t).inTurn e = true) :
    Completes (.journalTake t un) s fun r =>
      let u := s.advance t
      r.jrn.widx = u.jrn.widx + 1 ∧ r.jrn.pool = [{ e with jidx := some u.jrn.widx }] ∧ r.jrn.tok = u.tokNow - curdCharge ∧
        r.jrn.jobs = u.jrn.jobs ++ [{ jidx := u.jrn.widx, curd := e.curd, at_ := u.now }] := by
  obtain ⟨fastAt, refilled⟩ := State.noteBreak_refill (s.advance t)
  have taken := journalTake_refilled hub refilled station pool mine waiting on ?_ budget holes room unsealed turn
  · exact taken
  · exact paid

theorem jrn_oasisCopy (s : State) (c : Curd) : (s.oasisCopy c).jrn = s.jrn := by
  unfold State.oasisCopy State.modOasis
  split
  · rfl
  · split
    · rfl
    · rfl

theorem jrn_snapAccept (s : State) (c : Curd) : (s.snapAccept c).jrn = s.jrn := by
  unfold State.snapAccept
  split
  · rfl
  · exact List.foldlRecOn _ _ (motive := fun x : State => x.jrn = s.jrn) rfl fun x hx r _ => hx

theorem jrn_advanceWm (s : State) : s.advanceWm.jrn = s.jrn := by
  unfold State.advanceWm State.noteMark
  dsimp only
  split
  · rfl
  · split
    · split
      · rfl
      · rfl
    · rfl

/-- An accepted curd is in the journal, and its write is over (06_admission R141). -/
theorem State.accept_journals (s : State) (w : JWrite) :
    (s.accept w).jrn.mem = s.jrn.mem ++ [(w.jidx, w.curd)] ∧ (s.accept w).jrn.jobs = s.jrn.jobs.filter (·.jidx != w.jidx) := by
  unfold State.accept
  extract_lets j held
  generalize advanceTo _ _ _ = passed
  obtain ⟨a, l⟩ := passed
  dsimp -zeta only
  extract_lets journaled confirmed late jrn noted
  have hconfirmed : confirmed.jrn = journaled.jrn := by
    change State.jrn (if _ then _ else _) = _
    split
    · rfl
    · rfl
  obtain ⟨mem, jobs⟩ : noted.jrn.mem = confirmed.jrn.mem ∧ noted.jrn.jobs = confirmed.jrn.jobs := by
    change (State.jrn (if _ then _ else _)).mem = _ ∧ (State.jrn (if _ then _ else _)).jobs = _
    split
    · exact ⟨rfl, rfl⟩
    · exact ⟨rfl, rfl⟩
  rw [jrn_advanceWm, jrn_snapAccept, jrn_oasisCopy, mem, jobs, hconfirmed]
  exact ⟨rfl, rfl⟩

/-- When its writes complete, the curd is in the journal and its write is over (06_admission R141). -/
theorem journalWriteComplete_accepts {s : State} {t j : Nat} {w : JWrite} (hub : (s.advance t).hubOn = true)
    (job : (s.advance t).jrn.jobs.find? (fun x => x.jidx == j) = some w) (copies : (s.advance t).jrnCopies = true) :
    Completes (.journalWriteComplete t j) s fun r =>
      r.jrn.mem = (s.advance t).jrn.mem ++ [(w.jidx, w.curd)] ∧ r.jrn.jobs.find? (fun x => x.jidx == j) = none := by
  refine done_onUnit (show exec (.journalWriteComplete t j) s = execJournalWriteComplete t j s from rfl) (hubOn_parts hub).1 ?_
  generalize s.advance t = u at *
  obtain rfl : w.jidx = j := by simpa using List.find?_some job
  obtain ⟨mem, jobs⟩ := State.accept_journals u w
  simp only [job, copies, hub, Bool.not_true, Bool.false_eq_true, if_false, if_true, settle_jrn]
  exact ⟨mem, by rw [jobs]; simp⟩

/-- Delivery moves on by one index (01_unit_anatomy R30, 06_admission R141). -/
theorem curdDelivery_moves {s : State} {t j : Nat} (hub : (s.advance t).hubOn = true) (next : j = (s.advance t).jrn.delivTo)
    (accepted : j < (s.advance t).jrn.accTo) : Completes (.curdDelivery t j) s fun r => r.jrn.delivTo = j + 1 := by
  refine done_onHub (show exec (.curdDelivery t j) s = execCurdDelivery t j s from rfl) hub ?_
  generalize s.advance t = u at *
  simp only [← next, accepted, decide_true, Bool.and_self, if_true, settle_jrn]
  split
  · split
    · rfl
    · rfl
  · rfl

/-! ## The hub's own records, the mirror, the end of a rebuild -/

/-- A confirmed record takes its source's next sequence number (06_admission R138). -/
theorem peerConfirm_numbers {s : State} {t : Nat} {k : Fin 8} {q : Record} {l : List Record} (hub : (s.advance t).hubOn = true)
    (waiting : ((s.advance t).src k).wait = q :: l) (noGaps : ((s.advance t).src k).gaps = []) :
    Completes (.peerConfirm t k) s fun r => (r.src k).wait = l ∧ (r.src k).seq = ((s.advance t).src k).seq + 1 := by
  refine done_onHub (show exec (.peerConfirm t k) s = execPeerConfirm t k s from rfl) hub ?_
  generalize s.advance t = u at *
  simp only [waiting, src_settle]
  have taken := State.src_modSrc_self u k fun h => { h with wait := l }
  obtain ⟨wait, seq⟩ := State.acceptSrc_numbers (u.modSrc k fun h => { h with wait := l }) k q (by rw [taken]; exact noGaps)
  exact ⟨by rw [wait, taken], by rw [seq, taken]⟩

/-- The standby's mirror becomes what the active hub holds (01_unit_anatomy R25). -/
theorem mirrorUpdate_mirrors {s : State} {t : Nat} (hub : (s.advance t).hubOn = true) (standby : (s.advance t).pair.stbyOk = true) :
    Completes (.mirrorUpdate t) s fun r => r.mirror = (s.advance t).mirrorNow := by
  refine done_onHub (show exec (.mirrorUpdate t) s = execMirrorUpdate t s from rfl) hub ?_
  rw [if_pos standby]
  rfl

/-- The end of a rebuild clears DEGRADED for the copies it has regained (06_admission R143). -/
theorem rebuildComplete_regains {s : State} {t : Nat} (hub : (s.advance t).hubOn = true) :
    Completes (.rebuildComplete t) s fun r =>
      let u := s.advance t
      r.jrn.rebuild = false ∧ r.jrn.regain = [] ∧ (r.jrn.lost0 = true ↔ u.jrn.lost0 = true ∧ 0 ∉ u.jrn.regain.flatMap u.lostOn) ∧
        (r.jrn.lost1 = true ↔ u.jrn.lost1 = true ∧ 1 ∉ u.jrn.regain.flatMap u.lostOn) := by
  refine done_onHub (show exec (.rebuildComplete t) s = execRebuildComplete t s from rfl) hub ?_
  have kept : ∀ (lost : Bool) (i : Nat) (l : List Nat), (lost && !(decide (i ∈ l))) = true ↔ lost = true ∧ i ∉ l := by simp
  exact ⟨rfl, rfl, kept _ 0 _, kept _ 1 _⟩

/-! ## Enable -/

/-- The start fills the bucket and writes no register of the hub (06_admission R142, 05_records R129). -/
theorem State.startJournal_fills (s : State) : s.startJournal.jrn.tok = bucketTop ∧ HubRegs s s.startJournal := by
  unfold State.startJournal
  extract_lets j filled begun
  have hbegun : begun.jrn.tok = bucketTop ∧ HubRegs s begun :=
    ⟨(fillsOnly_hubRec filled 0 _).tok, HubRegs.trans (hubRegs_of_regs rfl) (srcJrnOnly_hubRec filled 0 _).hubRegs⟩
  refine List.foldlRecOn begun.dies _ (motive := fun x : State => x.jrn.tok = bucketTop ∧ HubRegs s x) hbegun fun x hx n _ => ?_
  obtain ⟨tok, regs⟩ := hx
  exact ⟨(congrArg Jrn.tok (keepsServo_startOffering x n).only.jrn).trans tok, regs.trans (hubRegs_startOffering x n)⟩

/-- A port that holds the lease is no debug port. -/
theorem not_dbg_of_holdsLease {s : State} {p : Port} (h : s.holdsLease p = true) : p ≠ .dbg := by
  rintro rfl
  simp [State.holdsLease] at h

/-- Writing EN with the lease starts the journal with a full bucket where its regions are right, and sets BADCFG where they are not
(06_admission R144). -/
theorem journalEnable_starts {s : State} {t : Nat} {port : Port} {v : Word} (hub : (s.advance t).hubOn = true)
    (off : (s.advance t).jrnOn = false) (lease : (s.advance t).holdsLease port = true) (en : v.getLsbD 31 = true) :
    Completes (.journalEnable t port v) s fun r =>
      if regionsOk ((s.advance t).jrnRegions (v &&& 0xC0FFF07F)) then r.jrnOn = true ∧ r.jrn.tok = bucketTop
      else r.jrnOn = false ∧ r.rb Kx.hubJrnStatus 7 = true := by
  refine done_onWrite (show exec (.journalEnable t port v) s = execJournalEnable t port v s from rfl) hub ?_
  generalize s.advance t = u at *
  have masked : (v &&& 0xC0FFF07F).getLsbD 31 = true := by simp [en]
  simp only [State.notDbg, not_dbg_of_holdsLease lease, State.writeJrnCfg, off, State.rwsWrite, lease, masked, Bool.not_true,
    Bool.false_eq_true, if_false, if_true]
  split
  · obtain ⟨tok, regs⟩ := State.startJournal_fills (u.wr Kx.hubJrnCfg (v &&& 0xC0FFF07F))
    refine ⟨?_, tok⟩
    have cfg := (regs Kx.hubJrnCfg (by decide)).trans (State.rd_wr_self u Kx.hubJrnCfg _)
    exact (congrArg (BitVec.getLsbD · 31) cfg).trans masked
  · have other : Kx.hubJrnCfg.off ≠ Kx.hubJrnStatus.off := by decide
    refine ⟨?_, State.rb_setB (u.wr Kx.hubJrnCfg _) Kx.hubJrnStatus 7 true (by decide)⟩
    have cfg := (State.rd_setB_ne (u.wr Kx.hubJrnCfg (v &&& 0xC0FFF07F &&& 0x7FFFFFFF)) Kx.hubJrnStatus _ 7 true other).trans
      (State.rd_wr_self u Kx.hubJrnCfg _)
    exact (congrArg (BitVec.getLsbD · 31) cfg).trans (by simp)

/-! ## The whole -/

/-- Settles O15, command by command: each conjunct is the lemma of its command. -/
theorem journalPath : Obligations.JournalPath := by
  unfold Obligations.JournalPath
  intro s t die k un c reqs j e w q l port v
  dsimp only
  intro hub
  exact ⟨curdReceived_pools hub, curdReceived_asks hub, poolRequest_grants hub, poolBufferFree_frees hub, journalTake_takes hub,
    journalWriteComplete_accepts hub, curdDelivery_moves hub, peerConfirm_numbers hub, mirrorUpdate_mirrors hub,
    rebuildComplete_regains hub, journalEnable_starts hub⟩

end Sys2Proof.Machine
end

section
/-!
SUPPORT. What the Sequence Ledger leaves as it applies a flow event: no subscription moves, and the reorder buffer keeps what waits in it
(07_sequence_ledger R163-R178).
-/

namespace Sys2Proof.Machine

open Sys2Proof.Safety

/-- The subscriptions and the reorder buffer are the same. -/
structure KeepsBuf (s x : State) : Prop where
  subs : x.subs = s.subs
  buf : x.led.buf = s.led.buf

theorem KeepsBuf.refl (s : State) : KeepsBuf s s := ⟨rfl, rfl⟩

theorem KeepsBuf.trans {s x y : State} (h : KeepsBuf s x) (g : KeepsBuf x y) : KeepsBuf s y :=
  ⟨g.subs.trans h.subs, g.buf.trans h.buf⟩

theorem keepsBuf_foldl {α : Type} (f : State → α → State) (h : ∀ s a, KeepsBuf s (f s a)) (l : List α) (s : State) :
    KeepsBuf s (l.foldl f s) :=
  List.foldlRecOn l f (KeepsBuf.refl s) fun x hx a _ => hx.trans (h x a)

theorem keepsBuf_ite {c : Prop} [Decidable c] {s x y : State} (h : KeepsBuf s x) (g : KeepsBuf s y) :
    KeepsBuf s (if c then x else y) := by
  split
  · exact h
  · exact g

theorem keepsBuf_modLed {s : State} {f : Led → Led} (h : (f s.led).buf = s.led.buf) : KeepsBuf s (s.modLed f) := ⟨rfl, h⟩

theorem keepsBuf_incF (s : State) (r : Reg) (hi lo n : Nat) : KeepsBuf s (s.incF r hi lo n) := ⟨rfl, rfl⟩

theorem SrcJrnOnly.keepsBuf {s x : State} (h : SrcJrnOnly s x) : KeepsBuf s x := by
  obtain ⟨sr, j, rfl⟩ := h
  exact ⟨rfl, rfl⟩

/-! ## The table and the cache -/

/-- Only the cache differs. -/
def Led.CacheOnly (l x : Led) : Prop :=
  ∃ cache psel brip order, x = { l with cache := cache, psel := psel, brip := brip, dirtyOrder := order }

theorem Led.CacheOnly.trans {l x y : Led} (h : Led.CacheOnly l x) (g : Led.CacheOnly x y) : Led.CacheOnly l y := by
  obtain ⟨_, _, _, _, rfl⟩ := h
  obtain ⟨_, _, _, _, rfl⟩ := g
  exact ⟨_, _, _, _, rfl⟩

theorem Led.cacheOnly_touch (l : Led) (key : Nat) (dirty brief : Bool) : Led.CacheOnly l (l.touch key dirty brief) := by
  have either : ∀ (c : Prop) [Decidable c] (x y : Led),
      Led.CacheOnly l x → Led.CacheOnly l y → Led.CacheOnly l (if c then x else y) := by
    intro c _ x y hx hy
    split
    · exact hx
    · exact hy
  exact either _ _ _ ⟨_, _, _, _, rfl⟩ ⟨_, _, _, _, rfl⟩

theorem State.cacheOnly_touchFlow (s : State) (l : Led) (slot : Nat) (brief : Bool) : Led.CacheOnly l (s.touchFlow l slot brief) := by
  have first := Led.cacheOnly_touch l slot true brief
  unfold State.touchFlow
  dsimp only
  split
  · exact first.trans (Led.cacheOnly_touch _ _ true brief)
  · exact first

theorem Led.CacheOnly.buf {l x : Led} (h : Led.CacheOnly l x) : x.buf = l.buf := by
  obtain ⟨_, _, _, _, rfl⟩ := h
  rfl

/-- While one copy stands, an entry that is written is read back (07_sequence_ledger R175). -/
theorem Led.table_put (l : Led) (slot : Nat) (f : Flow) (copy : (l.gone0 && l.gone1) = false) :
    sget (l.put slot f).table slot = some f := by
  unfold Led.table Led.put
  cases g0 : l.gone0
  · simp [sget_sput_self]
  · have g1 : l.gone1 = false := by simpa [g0] using copy
    simp [g1, sget_sput_self]

/-! ## Accumulators, losses, sketches -/

theorem keepsBuf_modAccs (s : State) (f : Flow) (ft : Nat) (g : LedAcc → LedAcc) : KeepsBuf s (s.modAccs f ft g) := by
  unfold State.modAccs
  refine keepsBuf_modLed ?_
  split
  · rfl
  · rfl

theorem keepsBuf_modRefs (s : State) (p ft : Nat) (g : LedRef → LedRef) : KeepsBuf s (s.modRefs p ft g) := by
  unfold State.modRefs
  refine keepsBuf_modLed ?_
  split
  · rfl
  · rfl

theorem keepsBuf_kvTouch (s : State) (before : Led) (ft : Nat) (ks : List (Nat × Nat)) : KeepsBuf s (s.kvTouch before ft ks) := by
  refine keepsBuf_foldl _ (fun s k => keepsBuf_modLed ?_) _ s
  split
  · rfl
  · split
    · rfl
    · rfl

theorem keepsBuf_loss (s : State) (p ft : Nat) : KeepsBuf s (s.loss p ft) := keepsBuf_modLed rfl

theorem keepsBuf_modInst (s : State) (i scope ft n : Nat) (f : Inst → Inst) : KeepsBuf s (s.modInst i scope ft n f) := by
  unfold State.modInst
  dsimp only
  split
  · exact KeepsBuf.refl s
  · split
    · exact ⟨rfl, rfl⟩
    · exact keepsBuf_ite (keepsBuf_incF s _ _ _ _) ⟨rfl, rfl⟩

theorem keepsBuf_skInput (s : State) (metric : Nat) (w : InScope) (ft v n : Nat) (param : Nat → Bool) :
    KeepsBuf s (s.skInput metric w ft v n param) := by
  refine keepsBuf_foldl _ (fun s i => ?_) _ s
  split
  · exact keepsBuf_modInst s _ _ _ _ _
  · exact KeepsBuf.refl s

theorem keepsBuf_hotInput (s : State) (metric : Nat) (w : InScope) (ft key n : Nat) : KeepsBuf s (s.hotInput metric w ft key n) := by
  refine keepsBuf_foldl _ (fun s i => ?_) _ s
  split
  · exact keepsBuf_modInst s _ _ _ _ _
  · exact KeepsBuf.refl s

theorem keepsBuf_tokenFeeds (s : State) (f : Flow) (t n : Nat) (gap : Option (Nat × Nat)) (unit : Nat) :
    KeepsBuf s (s.tokenFeeds f t n gap unit) := by
  unfold State.tokenFeeds
  extract_lets w summed fed
  have hsummed : KeepsBuf s summed := keepsBuf_modAccs s f t _
  have hfed : KeepsBuf s fed := hsummed.trans (keepsBuf_hotInput summed _ _ _ _ _)
  split
  · exact hsummed.trans (keepsBuf_incF summed _ _ _ _)
  · split
    · exact hfed.trans (keepsBuf_skInput fed _ _ _ _ _ _)
    · exact hfed.trans (keepsBuf_skInput fed _ _ _ _ _ _)

/-! ## Eviction -/

theorem keepsBuf_summary (s : State) (handle openFt : Nat) (ext : Bool) (r : Record) : KeepsBuf s (s.summary handle openFt ext r) := by
  unfold State.summary
  dsimp only
  split
  · exact keepsBuf_modLed rfl
  · exact (srcJrnOnly_hubRec s 1 r).keepsBuf

theorem queue_summary (s : State) (handle openFt : Nat) (ext : Bool) (r : Record) :
    (s.summary handle openFt ext r).led.queue = s.led.queue := by
  unfold State.summary
  dsimp only
  split
  · rfl
  · obtain ⟨sr, j, e⟩ := srcJrnOnly_hubRec s 1 r
    rw [e]

theorem queue_modRefs (s : State) (p ft : Nat) (g : LedRef → LedRef) : (s.modRefs p ft g).led.queue = s.led.queue := by
  unfold State.modRefs State.modLed
  dsimp only
  split
  · rfl
  · rfl

/-- The flow at the head of the eviction queue leaves it (07_sequence_ledger R172). -/
theorem State.evictHead_pops (s : State) : KeepsBuf s s.evictHead ∧ s.evictHead.led.queue = s.led.queue.tail := by
  unfold State.evictHead
  split
  · rename_i none_left
    exact ⟨KeepsBuf.refl s, by rw [none_left]; rfl⟩
  · rename_i ft f l waiting
    extract_lets popped fl counted told
    have hcounted : KeepsBuf s counted ∧ counted.led.queue = l := by
      change KeepsBuf s (if _ then _ else _) ∧ (State.led (if _ then _ else _)).queue = l
      split
      · exact ⟨KeepsBuf.trans (keepsBuf_modLed rfl) (keepsBuf_modRefs popped _ _ _), queue_modRefs popped _ _ _⟩
      · exact ⟨keepsBuf_modLed rfl, rfl⟩
    obtain ⟨keeps, queue⟩ := hcounted
    have htold : KeepsBuf s told ∧ told.led.queue = l :=
      ⟨keeps.trans (keepsBuf_summary counted _ _ _ _), (queue_summary counted _ _ _ _).trans queue⟩
    rw [waiting]
    split
    · exact ⟨htold.1.trans (keepsBuf_summary told _ _ _ _), (queue_summary told _ _ _ _).trans htold.2⟩
    · exact htold

theorem keepsBuf_closeFlow (s : State) (slot ft reason : Nat) : KeepsBuf s (s.closeFlow slot ft reason) := by
  unfold State.closeFlow
  split
  · exact KeepsBuf.refl s
  · extract_lets room before f closed
    have hroom : KeepsBuf s room := keepsBuf_ite s.evictHead_pops.1 (KeepsBuf.refl s)
    have hclosed : KeepsBuf room closed := keepsBuf_modLed (room.cacheOnly_touchFlow _ slot true).buf
    exact (hroom.trans hclosed).trans (keepsBuf_kvTouch closed _ _ _)

/-! ## Applying an event -/

theorem keepsBuf_refuse (s : State) (e : FlowEv) (cause : Nat) : KeepsBuf s (s.refuse e cause) := by
  unfold State.refuse
  extract_lets p counted
  have hcounted : KeepsBuf s counted := keepsBuf_modRefs s p e.ft _
  refine hcounted.trans (keepsBuf_ite ((keepsBuf_incF counted _ _ _ _).trans (keepsBuf_loss _ _ _)) ?_)
  exact keepsBuf_ite (keepsBuf_incF counted _ _ _ _) <| keepsBuf_ite (keepsBuf_incF counted _ _ _ _) <|
    keepsBuf_ite (keepsBuf_incF counted _ _ _ _) <| keepsBuf_ite (keepsBuf_incF counted _ _ _ _) <|
    keepsBuf_ite (keepsBuf_incF counted _ _ _ _) <| keepsBuf_ite (keepsBuf_incF counted _ _ _ _) <|
    keepsBuf_ite (keepsBuf_incF counted _ _ _ _) (keepsBuf_incF counted _ _ _ _)

theorem keepsBuf_flagLive (s : State) (e : FlowEv) (i : Nat) (p : Flow → Bool) : KeepsBuf s (s.flagLive e i p) := by
  unfold State.flagLive
  dsimp only
  split
  · exact keepsBuf_ite (keepsBuf_modLed rfl) (KeepsBuf.refl s)
  · exact KeepsBuf.refl s

/-- A refused event is counted, and a live flow of its slot may be flagged (07_sequence_ledger R169). -/
def State.turnAway (s : State) (e : FlowEv) (c : Nat) : State :=
  let s := s.refuse e c
  if c = rcLate then s.flagLive e ffLate fun f => f.handle == e.handle
  else if c = rcStale then s.flagLive e ffStale fun _ => true
  else if c = rcXpart then s.flagLive e ffXpart fun _ => true
  else s

/-- OPEN sets its flow up (07_sequence_ledger R169). -/
def State.applyOpen (s : State) (e : FlowEv) : State :=
  let f := s.openFlow e
  let drawn := if f.noPart then { s with free := s.free + 1 } else s
  let opened := drawn.modLed fun l =>
    { ((drawn.touchFlow l (slotOf e.handle) false).put (slotOf e.handle) f) with live := sadd l.live f.pkey 1 }
  opened.modAccs f e.ft fun a => { a with prompt := a.prompt + f.prompt }

/-- The flow that an event other than OPEN counts in (07_sequence_ledger R163). -/
def State.flowOfSlot (s : State) (e : FlowEv) : Flow :=
  let f := sgetD s.led.table (slotOf e.handle) {}
  { f with events := f.events + 1 }

/-- CLOSE closes its flow (07_sequence_ledger R172). -/
def State.applyClose (s : State) (e : FlowEv) : State :=
  let s := s.modLed fun l => l.put (slotOf e.handle) (s.flowOfSlot e)
  s.closeFlow (slotOf e.handle) e.ft (min 0xFC (e.arg.toNat % 256))

/-- A flow that an event has changed is written (07_sequence_ledger R176, R183). -/
def State.writeFlow (s : State) (e : FlowEv) (f : Flow) : State :=
  let before := s.led
  let slot := slotOf e.handle
  let written := s.modLed fun l => (l.touch slot true false).put slot f
  let cached :=
    if e.code.toNat = fcExpert && written.ledExt then written.modLed fun l => l.touch (slot + 2 ^ 20) true false else written
  cached.kvTouch before e.ft ((s.flowOfSlot e).scopes ++ f.scopes)

/-- Any other event changes its flow and what is summed over flows (07_sequence_ledger Table 7.2, R183). -/
def State.applyChange (s : State) (e : FlowEv) : State :=
  let changed := s.flowEffect (s.flowOfSlot e) e
  let f := changed.1
  let s := s.writeFlow e f
  if e.code.toNat = fcToken then s.tokenFeeds f e.ft (max 1 e.arg.toNat) changed.2 s.itlUnit
  else if e.code.toNat = fcPrefill then s.modAccs f e.ft fun a => { a with prefill := a.prefill + e.arg.toNat }
  else if e.code.toNat = fcPreempt then s.modAccs f e.ft fun a => { a with preempts := a.preempts + 1 }
  else s

/-- An event without a flow is dropped; any other is refused, or acts by its code (07_sequence_ledger R163-R172). -/
theorem State.applyFlow_eq (s : State) (e : FlowEv) :
    s.applyFlow e =
      if e.handle = noFlow then s
      else (s.refusal e).elim
        (if e.code.toNat = fcOpen then s.applyOpen e else if e.code.toNat = fcClose then s.applyClose e else s.applyChange e)
        (s.turnAway e) := by
  unfold State.applyFlow
  cases s.refusal e
  · rfl
  · rfl

theorem keepsBuf_turnAway (s : State) (e : FlowEv) (c : Nat) : KeepsBuf s (s.turnAway e c) := by
  have refused := keepsBuf_refuse s e c
  have flagged := fun i p => refused.trans (keepsBuf_flagLive (s.refuse e c) e i p)
  exact keepsBuf_ite (flagged _ _) <| keepsBuf_ite (flagged _ _) <| keepsBuf_ite (flagged _ _) refused

theorem keepsBuf_applyOpen (s : State) (e : FlowEv) : KeepsBuf s (s.applyOpen e) := by
  unfold State.applyOpen
  extract_lets f drawn opened
  have hdrawn : KeepsBuf s drawn := keepsBuf_ite ⟨rfl, rfl⟩ (KeepsBuf.refl s)
  have hopened : KeepsBuf drawn opened := keepsBuf_modLed (drawn.cacheOnly_touchFlow _ _ false).buf
  exact (hdrawn.trans hopened).trans (keepsBuf_modAccs opened _ _ _)

theorem keepsBuf_applyClose (s : State) (e : FlowEv) : KeepsBuf s (s.applyClose e) :=
  KeepsBuf.trans (keepsBuf_modLed rfl) (keepsBuf_closeFlow _ _ _ _)

theorem keepsBuf_touch (s : State) (key : Nat) (dirty brief : Bool) : KeepsBuf s (s.modLed fun l => l.touch key dirty brief) :=
  keepsBuf_modLed (Led.cacheOnly_touch s.led key dirty brief).buf

theorem keepsBuf_writeFlow (s : State) (e : FlowEv) (f : Flow) : KeepsBuf s (s.writeFlow e f) := by
  unfold State.writeFlow
  extract_lets before slot written cached
  have hwritten : KeepsBuf s written := keepsBuf_modLed (Led.cacheOnly_touch _ slot true false).buf
  have hcached : KeepsBuf written cached :=
    keepsBuf_ite (keepsBuf_touch written _ true false) (KeepsBuf.refl written)
  exact (hwritten.trans hcached).trans (keepsBuf_kvTouch cached _ _ _)

theorem keepsBuf_applyChange (s : State) (e : FlowEv) : KeepsBuf s (s.applyChange e) := by
  unfold State.applyChange
  extract_lets changed f written
  have hwritten : KeepsBuf s written := keepsBuf_writeFlow s e f
  exact keepsBuf_ite (hwritten.trans (keepsBuf_tokenFeeds written _ _ _ _ _)) <|
    keepsBuf_ite (hwritten.trans (keepsBuf_modAccs written _ _ _)) <|
    keepsBuf_ite (hwritten.trans (keepsBuf_modAccs written _ _ _)) hwritten

theorem keepsBuf_applyFlow (s : State) (e : FlowEv) : KeepsBuf s (s.applyFlow e) := by
  rw [State.applyFlow_eq]
  refine keepsBuf_ite (KeepsBuf.refl s) ?_
  cases s.refusal e with
  | some c => exact keepsBuf_turnAway s e c
  | none => exact keepsBuf_ite (keepsBuf_applyOpen s e) (keepsBuf_ite (keepsBuf_applyClose s e) (keepsBuf_applyChange s e))

theorem table_modAccs (s : State) (f : Flow) (ft : Nat) (g : LedAcc → LedAcc) : (s.modAccs f ft g).led.table = s.led.table := by
  unfold State.modAccs State.modLed
  dsimp only
  split
  · rfl
  · rfl

/-- An accepted OPEN is in the table, while one copy of it stands (07_sequence_ledger R169, R175). -/
theorem State.applyOpen_opens (s : State) (e : FlowEv) (copy : (s.led.gone0 && s.led.gone1) = false) :
    sget (s.applyOpen e).led.table (slotOf e.handle) = some (s.openFlow e) := by
  unfold State.applyOpen
  extract_lets f drawn opened
  have led : drawn.led = s.led := by
    change State.led (if _ then _ else _) = _
    split
    · rfl
    · rfl
  have copyLeft : ((drawn.touchFlow drawn.led (slotOf e.handle) false).gone0 &&
      (drawn.touchFlow drawn.led (slotOf e.handle) false).gone1) = false := by
    obtain ⟨_, _, _, _, shape⟩ := drawn.cacheOnly_touchFlow drawn.led (slotOf e.handle) false
    rw [shape, led]
    exact copy
  rw [table_modAccs]
  exact Led.table_put _ _ f copyLeft

/-! ## The reorder buffer -/

/-- A release takes the least event out of the buffer (07_sequence_ledger R165). -/
theorem State.releaseLeast_pops (s : State) (forced : Bool) {e : FlowEv} {l : List FlowEv} (buf : s.led.buf = e :: l) :
    (s.releaseLeast forced).subs = s.subs ∧ (s.releaseLeast forced).led.buf = l := by
  unfold State.releaseLeast
  rw [buf]
  dsimp -zeta only
  extract_lets popped counted
  have hcounted : KeepsBuf popped counted := keepsBuf_ite (keepsBuf_incF popped _ _ _ _) (KeepsBuf.refl popped)
  have applied := hcounted.trans (keepsBuf_applyFlow counted e)
  exact ⟨applied.subs, applied.buf⟩

/-- A release that nothing forces leaves the keys of forced releases. -/
theorem State.releaseLeast_unforced (s : State) {e : FlowEv} {l : List FlowEv} (buf : s.led.buf = e :: l) :
    s.releaseLeast false = (s.modLed fun x => { x with buf := l }).applyFlow e := by
  unfold State.releaseLeast
  rw [buf]
  rfl

theorem subs_releaseLeast (s : State) (forced : Bool) : (s.releaseLeast forced).subs = s.subs := by
  cases buf : s.led.buf with
  | nil => unfold State.releaseLeast; rw [buf]
  | cons e l => exact (s.releaseLeast_pops forced buf).1

theorem subs_bufferEv (s : State) (e : FlowEv) : (s.bufferEv e).subs = s.subs := by
  unfold State.bufferEv
  extract_lets room passed late
  change State.subs (if _ then _ else _) = _
  split
  · exact subs_releaseLeast s true
  · rfl

/-- With room in the buffer and no forced release before it, an event takes its place by its key (07_sequence_ledger R165, R170). -/
theorem State.bufferEv_inserts (s : State) (e : FlowEv) (room : s.led.buf.length < bufMax) (free : s.led.forcedTo = none) :
    (s.bufferEv e).led.buf = insertEv e s.led.buf := by
  have unfilled : ¬ bufMax ≤ s.led.buf.length := Nat.not_le.mpr room
  unfold State.bufferEv State.modLed
  simp only [unfilled, if_false, free, Bool.or_false]

theorem keepsBuf_gapLoss (s : State) (c : Curd) (r : Record) : KeepsBuf s (s.gapLoss c r) := by
  unfold State.gapLoss
  dsimp only
  split
  · exact keepsBuf_loss s _ _
  · split
    · exact keepsBuf_foldl _ (fun s p => keepsBuf_loss s p r.ft) _ s
    · exact KeepsBuf.refl s

theorem subs_ledgerRec (s : State) (j : Nat) (c : Curd) (late : Option Nat) (r : Record) : (s.ledgerRec j c late r).subs = s.subs := by
  unfold State.ledgerRec
  dsimp only
  split
  · rfl
  · split
    · exact subs_bufferEv s _
    · split
      · exact (keepsBuf_gapLoss s c r).subs
      · split
        · rfl
        · rfl

/-- Outside a replay, a FLOW record of a station's curd goes into the buffer as its event (07_sequence_ledger R178). -/
theorem State.ledgerRec_flow (s : State) (j : Nat) (c : Curd) (r : Record) (fresh : s.led.skipTo ≤ j) (flow : r.ty = .flow)
    (station : c.unit < 40) : s.ledgerRec j c none r = s.bufferEv (flowOf c j false r) := by
  have unskipped : ¬ j < s.led.skipTo := Nat.not_lt.mpr fresh
  simp [State.ledgerRec, unskipped, flow, station]

end Sys2Proof.Machine
end

section
/-!
SUPPORT. The Sequence Ledger's commands: progress and the watermark set, ingestion, release, eviction, the end of a catch-up, enable and
disable (07_sequence_ledger R165-R182).
-/

namespace Sys2Proof.Machine

open Sys2Proof.Safety

/-! ## Progress -/

/-- PROGRESS_SEND, once per flush interval of a locked station (07_sequence_ledger R165). -/
theorem progressSend_sends {s : State} {t : Nat} {die : Fin 40} (on : (s.advance t).stnOn die = true)
    (locked : 2 ≤ ((s.advance t).stn die).servo.st.toNat)
    (due : ((s.advance t).stn die).progAt.any (fun k => (s.advance t).stnFt die < k + (s.advance t).flush die) = false) :
    Completes (.progressSend t die) s fun r =>
      let u := s.advance t
      let st := u.stn die
      (r.stn die).progAt = some (u.stnFt die) ∧ (r.stn die).prog = st.prog ++
        [(u.progressP die, (st.closed.filter fun h => h.st != .acked).map fun h => (h.curd.rsv, h.curd.firstSeq))] := by
  refine done_onStn (show exec (.progressSend t die) s = execProgressSend t die s from rfl) on ?_
  generalize s.advance t = u at *
  have unlocked : ¬ (u.stn die).servo.st.toNat < 2 := Nat.not_lt.mpr locked
  dsimp only
  rw [if_neg, stn_settle, State.stn_setStn_self]
  · exact ⟨rfl, rfl⟩
  · cases sent : (u.stn die).progAt with
    | none => simp [unlocked]
    | some a => simpa [sent, unlocked] using due

theorem sget_map_snd {α β : Type} (m : SMap α) (f : Nat → α → β) (k : Nat) :
    sget (m.map fun x => (x.1, f x.1 x.2)) k = (sget m k).map (f k) := by
  induction m with
  | nil => rfl
  | cons p m ih =>
    obtain ⟨j, v⟩ := p
    simp only [List.map_cons, sget]
    split
    · rename_i same
      rw [same]
      rfl
    · exact ih

theorem State.noteMark_keeps (s : State) : s.noteMark.progs = s.progs ∧ s.noteMark.stns = s.stns := by
  unfold State.noteMark
  split
  · exact ⟨rfl, rfl⟩
  · exact ⟨rfl, rfl⟩

/-- As the watermark follows the progress, each station's entry is worked on and stays (07_sequence_ledger R165). -/
theorem State.advanceWm_keeps (s : State) :
    s.advanceWm.progs = s.progs.map (fun x => (x.1, s.progOf x.1 x.2)) ∧ s.advanceWm.stns = s.stns := by
  unfold State.advanceWm
  dsimp only
  split
  · exact ⟨rfl, rfl⟩
  · split
    · exact State.noteMark_keeps _
    · exact ⟨rfl, rfl⟩

theorem at_progOf (s : State) (n : Nat) (g : Prog) : (s.progOf n g).at_ = g.at_ := by
  unfold State.progOf
  dsimp only
  split
  · rfl
  · rfl

/-- PROGRESS_RECEIVE puts a station that is reached in the watermark set (07_sequence_ledger R165). -/
theorem progressReceive_joins {s : State} {t : Nat} {die : Fin 40} {m : Nat × List (Bool × Nat)} {l : List (Nat × List (Bool × Nat))}
    (hub : (s.advance t).hubOn = true) (sent : ((s.advance t).stn die).prog = m :: l) (reached : (s.advance t).reach die = true) :
    Completes (.progressReceive t die) s fun r =>
      (r.stn die).prog = l ∧ (sget r.progs die).map (·.at_) = some (s.advance t).now := by
  refine done_onHub (show exec (.progressReceive t die) s = execProgressReceive t die s from rfl) hub ?_
  generalize s.advance t = u at *
  simp only [sent, reached, Bool.not_true, Bool.false_eq_true, if_false, settle_progs]
  have taken := State.stn_modStn_self u die fun st => { st with prog := l }
  obtain ⟨progs, stns⟩ := State.advanceWm_keeps { u.modStn die (fun st => { st with prog := l }) with
    progs := sput u.progs die { sgetD u.progs die {} with at_ := u.now, wait := (sgetD u.progs die {}).wait ++ [m] } }
  refine ⟨?_, ?_⟩
  · exact (congrArg (fun x => (sgetD x die {}).prog) stns).trans (congrArg Stn.prog taken)
  · refine (congrArg (fun x => (sget x die).map (·.at_)) progs).trans ?_
    rw [sget_map_snd, sget_sput_self, Option.map_some, Option.map_some, at_progOf]

/-- A station that has been silent leaves the watermark set (07_sequence_ledger R165, R170). -/
theorem silentTimeout_leaves {s : State} {t : Nat} {die : Fin 40} {g : Prog} (hub : (s.advance t).hubOn = true)
    (member : sget (s.advance t).progs die = some g) (silent : g.at_ + (s.advance t).silent ≤ (s.advance t).now) :
    Completes (.silentTimeout t die) s fun r => sget r.progs die = none := by
  refine done_onHub (show exec (.silentTimeout t die) s = execSilentTimeout t die s from rfl) hub ?_
  generalize s.advance t = u at *
  simp only [member, silent, if_true, settle_progs]
  rw [(State.advanceWm_keeps _).1, sget_map_snd, sget_sdel_self]
  rfl

/-! ## Ingestion -/

theorem State.subOf_modSub (s : State) (k : Sink) (f : Sub → Sub) (same : ∀ x, (f x).sink = x.sink) :
    (s.modSub k f).subOf k = (s.subOf k).map f := by
  have replaced : ∀ l : List Sub,
      (replaceFirst (fun x => x.sink == k) f l).find? (fun x => x.sink == k) = (l.find? fun x => x.sink == k).map f := by
    intro l
    induction l with
    | nil => rfl
    | cons x l ih =>
      unfold replaceFirst
      cases mine : x.sink == k
      · simpa [List.find?_cons, mine] using ih
      · simp [mine, same]
  exact replaced s.subs

theorem subs_ledgerRecs (l : List Record) (s : State) (j : Nat) (c : Curd) :
    (l.foldl (fun (s : State) r => s.ledgerRec j c (sget s.jrn.lateAt j) r) s).subs = s.subs :=
  List.foldlRecOn l _ (motive := fun x : State => x.subs = s.subs) rfl fun x hx r _ => (subs_ledgerRec x j c _ r).trans hx

/-- LEDGER_INGEST reads the next accepted curd; a FLOW record alone in it goes into the reorder buffer (07_sequence_ledger R178). -/
theorem ledgerIngest_reads {s : State} {t : Nat} {x : Sub} {c : Curd} {y : Record} (hub : (s.advance t).hubOn = true)
    (on : (s.advance t).ledOn = true) (sub : (s.advance t).subOf .ledger = some x) (unlapped : x.lap = none)
    (accepted : x.next < (s.advance t).jrn.accTo) :
    Completes (.ledgerIngest t) s fun r =>
      let u := s.advance t
      (r.subOf .ledger).map (fun q => (q.next, q.cursor)) = some (x.next + 1, x.next + 1) ∧
      (u.jrn.mem.find? (fun q => q.1 == x.next) = some (x.next, c) → c.unit < 40 → c.recs = [y] → y.ty = .flow →
        u.led.skipTo ≤ x.next → sget u.jrn.lateAt x.next = none → u.led.buf.length < bufMax → u.led.forcedTo = none →
        r.led.buf = insertEv (flowOf c x.next false y) u.led.buf) := by
  refine done_onHub (show exec (.ledgerIngest t) s = execLedgerIngest t s from rfl) hub ?_
  generalize s.advance t = u at *
  have pending : (!u.ledOn || decide (u.jrn.accTo ≤ x.next)) = false := by simp [on, accepted]
  simp only [sub, pending, unlapped, Option.isSome_none, Bool.false_eq_true, if_false]
  have moved := State.subOf_modSub u .ledger (fun q => { q with next := x.next + 1, cursor := x.next + 1 }) fun _ => rfl
  have jrn : (u.modSub .ledger fun q => { q with next := x.next + 1, cursor := x.next + 1 }).jrn = u.jrn := rfl
  have led : (u.modSub .ledger fun q => { q with next := x.next + 1, cursor := x.next + 1 }).led = u.led := rfl
  rw [sub] at moved
  generalize (u.modSub .ledger fun q => { q with next := x.next + 1, cursor := x.next + 1 }) = z at *
  refine ⟨?_, fun found station single flow fresh onTime room free => ?_⟩
  · have read : ∀ y : State, y.subs = z.subs →
        ((settle s y).subOf .ledger).map (fun q => (q.next, q.cursor)) = some (x.next + 1, x.next + 1) := by
      intro y subs
      unfold State.subOf at moved ⊢
      rw [settle_subs, subs, moved]
      rfl
    refine read _ ?_
    split
    · exact subs_ledgerRecs _ z x.next _
    · rfl
  · rw [jrn, found]
    simp only [single, List.foldl_cons, List.foldl_nil, jrn, onTime, settle_led]
    rw [State.ledgerRec_flow z _ c y (by rw [led]; exact fresh) flow station]
    exact (State.bufferEv_inserts z _ (by rw [led]; exact room) (by rw [led]; exact free)).trans (by rw [led])

/-! ## Release, eviction, catch-up -/

/-- EVENT_RELEASE releases the least event that the watermark has passed; an OPEN that is not refused opens its flow
(07_sequence_ledger R165, R169). -/
theorem eventRelease_releases {s : State} {t : Nat} {e : FlowEv} {b : List FlowEv} (hub : (s.advance t).hubOn = true)
    (on : (s.advance t).ledOn = true) (noRestart : (s.advance t).restartDue = none) (buf : (s.advance t).led.buf = e :: b)
    (passed : e.ft < (s.advance t).wm)
    (least : (s.advance t).noEarlier ((((s.advance t).subOf .ledger).map (·.next)).getD 0) e.key = true) :
    Completes (.eventRelease t) s fun r =>
      let u := s.advance t
      r.led.buf = b ∧
      (u.refusal e = none → e.code.toNat = fcOpen → e.handle ≠ noFlow → (u.led.gone0 && u.led.gone1) = false →
        (sget r.led.table (slotOf e.handle)).map (fun q => (q.handle, q.st, q.openFt, q.odie)) =
          some (e.handle, .opened, e.ft, e.die)) := by
  refine done_onHub (show exec (.eventRelease t) s = execEventRelease t s from rfl) hub ?_
  generalize s.advance t = u at *
  simp only [on, noRestart, Bool.not_true, Bool.false_eq_true, if_false, settle_led]
  rw [buf]
  simp only [passed, least, decide_true, Bool.and_self, if_true]
  refine ⟨(u.releaseLeast_pops false buf).2, fun accepted isOpen named copy => ?_⟩
  have taken : (u.modLed fun x => { x with buf := b }).refusal e = none := accepted
  rw [State.releaseLeast_unforced u buf, State.applyFlow_eq, if_neg named, taken, Option.elim_none, if_pos isOpen,
    State.applyOpen_opens (u.modLed fun x => { x with buf := b }) e copy]
  rfl

/-- FLOW_EVICT takes the oldest closed flow out of its queue (07_sequence_ledger R172). -/
theorem flowEvict_evicts {s : State} {t ft : Nat} {f : Flow} {w : List (Nat × Flow)} (hub : (s.advance t).hubOn = true)
    (on : (s.advance t).ledOn = true) (queue : (s.advance t).led.queue = (ft, f) :: w)
    (due : ft + (s.advance t).evictDelay < (s.advance t).wm) : Completes (.flowEvict t) s fun r => r.led.queue = w := by
  refine done_onHub (show exec (.flowEvict t) s = execFlowEvict t s from rfl) hub ?_
  generalize s.advance t = u at *
  have popped := u.evictHead_pops.2
  rw [queue] at popped
  simp only [queue, on, due, decide_true, Bool.and_self, if_true, settle_led]
  exact popped

/-- A catch-up ends when the replay reaches what was accepted (07_sequence_ledger R180). -/
theorem ledgerCatchupDone_ends {s : State} {t : Nat} (hub : (s.advance t).hubOn = true)
    (replay : (s.advance t).led.catchup = true)
    (reached : (s.advance t).jrn.accTo ≤ (((s.advance t).subOf .ledger).map (·.next)).getD 0) :
    Completes (.ledgerCatchupDone t) s fun r => r.led.catchup = false := by
  refine done_onHub (show exec (.ledgerCatchupDone t) s = execLedgerCatchupDone t s from rfl) hub ?_
  generalize s.advance t = u at *
  dsimp only
  rw [if_neg (by simpa [replay] using reached)]
  exact List.foldlRecOn _ _ (motive := fun x : State => x.led.catchup = false) rfl fun x hx f _ => hx

/-! ## Enable and disable -/

/-- Clearing EN with the lease ends the ledger and all that it held (07_sequence_ledger R174). -/
theorem ledgerDisable_ends {s : State} {t : Nat} {port : Port} {v : Word} (hub : (s.advance t).hubOn = true)
    (on : (s.advance t).ledOn = true) (lease : (s.advance t).holdsLease port = true) (en : v.getLsbD 31 = false) :
    Completes (.ledgerDisable t port v) s fun r => r.ledOn = false ∧ r.led = {} ∧ r.subOf .ledger = none := by
  refine done_onWrite (show exec (.ledgerDisable t port v) s = execLedgerDisable t port v s from rfl) hub ?_
  generalize s.advance t = u at *
  have masked : (v &&& 0xC0FF1F1F).getLsbD 31 = false := by rw [BitVec.getLsbD_and, en]; rfl
  simp only [State.notDbg, not_dbg_of_holdsLease lease, State.writeLedCfg, on, State.rwsWrite, lease, masked, Bool.and_false,
    Bool.false_eq_true, if_false, if_true]
  refine ⟨?_, rfl, ?_⟩
  · exact (congrArg (BitVec.getLsbD · 31) (State.rd_wr_self _ Kx.ledCfg _)).trans masked
  · simp [State.subOf, State.measChange]

/-- A subscription that starts is the only one of its sink (07_sequence_ledger R182). -/
theorem State.subOf_startSub (s : State) (k : Sink) (a : SubArgs) :
    (s.startSub k a).subOf k = some { sink := k, args := a, cursor := s.jrn.widx, next := s.jrn.widx } := by
  have others : (s.subs.filter fun x => x.sink != k).find? (fun x => x.sink == k) = none := by simp [List.find?_eq_none]
  unfold State.subOf State.startSub
  rw [List.find?_append, others]
  simp

/-- Writing EN with the lease starts the ledger at the journal's write index where the checks pass, and sets BADCFG where they do not
(07_sequence_ledger R182). -/
theorem ledgerEnable_starts {s : State} {t : Nat} {port : Port} {v : Word} (hub : (s.advance t).hubOn = true)
    (off : (s.advance t).ledOn = false) (lease : (s.advance t).holdsLease port = true) (en : v.getLsbD 31 = true) :
    Completes (.ledgerEnable t port v) s fun r =>
      if (s.advance t).ledCheck (v &&& 0xC0FF1F1F) then
        r.ledOn = true ∧ (r.subOf .ledger).map (·.next) = some (s.advance t).jrn.widx ∧ r.led.table = []
      else r.ledOn = false ∧ r.rb Kx.ledStatus 6 = true := by
  refine done_onWrite (show exec (.ledgerEnable t port v) s = execLedgerEnable t port v s from rfl) hub ?_
  generalize s.advance t = u at *
  have masked : (v &&& 0xC0FF1F1F).getLsbD 31 = true := by simp [en]
  simp only [State.notDbg, not_dbg_of_holdsLease lease, State.writeLedCfg, off, State.rwsWrite, lease, masked, Bool.not_true,
    Bool.false_eq_true, Bool.false_and, if_false, if_true]
  split
  · refine ⟨?_, ?_, ?_⟩
    · exact (congrArg (BitVec.getLsbD · 31) (State.rd_wr_self u Kx.ledCfg _)).trans masked
    · exact congrArg (Option.map Sub.next) (State.subOf_startSub _ .ledger ledgerArgs)
    · exact ite_self ([] : SMap Flow)
  · have other : Kx.ledCfg.off ≠ Kx.ledStatus.off := by decide
    refine ⟨?_, State.rb_setB (u.wr Kx.ledCfg _) Kx.ledStatus 6 true (by decide)⟩
    have cfg := (State.rd_setB_ne (u.wr Kx.ledCfg (v &&& 0xC0FF1F1F &&& 0x7FFFFFFF)) Kx.ledStatus _ 6 true other).trans
      (State.rd_wr_self u Kx.ledCfg _)
    exact (congrArg (BitVec.getLsbD · 31) cfg).trans (by simp)

/-! ## The whole -/

/-- Settles O19, command by command: each conjunct is the lemma of its command. -/
theorem ledgerWork : Obligations.LedgerWork := by
  unfold Obligations.LedgerWork
  intro s t die port v m l g x c y e b ft f w
  dsimp only
  refine ⟨progressSend_sends, fun hub => ⟨progressReceive_joins hub, silentTimeout_leaves hub, ledgerCatchupDone_ends hub, fun on =>
    ⟨ledgerIngest_reads hub on, eventRelease_releases hub on, flowEvict_evicts hub on, ledgerDisable_ends hub on⟩,
    ledgerEnable_starts hub⟩⟩

end Sys2Proof.Machine
end

section
/-!
SUPPORT. What admission at a station leaves of its stall-on-full: the ports that are held, the entries that are disarmed, AO44 and STALLTO
(04_markers R97, R98). A record that the station admits is numbered, paced and stored or counted as lost; a marker takes its place and its
queue space; no part of this touches a hold.
-/

namespace Sys2Proof.Machine

open Sys2Proof.Safety

/-- The held ports, what is disarmed, the accumulations, the banks and AO44 are the same. -/
structure Stn.SameHolds (x y : Stn) : Prop where
  holds : y.holds = x.holds
  disarm : y.disarm = x.disarm
  accs : y.accs = x.accs
  banks : y.banks = x.banks
  stalled : sgetD y.ao 300 0 = sgetD x.ao 300 0

/-- At station n stall-on-full is as it was: holds and disarmed entries, AO44 and STALLTO, and what an edge does after its observations. -/
structure KeepsHolds (n : Nat) (s x : State) : Prop where
  stn : (s.stn n).SameHolds (x.stn n)
  stallTo : x.rf (Kx.stnMkStat n) 15 8 = s.rf (Kx.stnMkStat n) 15 8
  seqCfg : x.rd (Kx.stnSeqCfg n) = s.rd (Kx.stnSeqCfg n)

theorem KeepsHolds.trans {n : Nat} {s x y : State} (h : KeepsHolds n s x) (g : KeepsHolds n x y) : KeepsHolds n s y :=
  ⟨⟨g.stn.holds.trans h.stn.holds, g.stn.disarm.trans h.stn.disarm, g.stn.accs.trans h.stn.accs, g.stn.banks.trans h.stn.banks,
    g.stn.stalled.trans h.stn.stalled⟩, g.stallTo.trans h.stallTo, g.seqCfg.trans h.seqCfg⟩

/-- Admission leaves the count of flow events too. -/
structure Admits (n : Nat) (s x : State) : Prop extends KeepsHolds n s x where
  flowAt : (x.stn n).flowAt = (s.stn n).flowAt

theorem Admits.refl (n : Nat) (s : State) : Admits n s s := ⟨⟨⟨rfl, rfl, rfl, rfl, rfl⟩, rfl, rfl⟩, rfl⟩

theorem Admits.trans {n : Nat} {s x y : State} (h : Admits n s x) (g : Admits n x y) : Admits n s y :=
  ⟨h.toKeepsHolds.trans g.toKeepsHolds, g.flowAt.trans h.flowAt⟩

theorem admits_foldl {α : Type} {n : Nat} (f : State → α → State) (h : ∀ s a, Admits n s (f s a)) (l : List α) (s : State) :
    Admits n s (l.foldl f s) :=
  List.foldlRecOn l f (Admits.refl n s) fun x hx a _ => hx.trans (h x a)

theorem keepsHolds_setStn {n : Nat} {s : State} {x : Stn} (same : (s.stn n).SameHolds x) : KeepsHolds n s (s.setStn n x) :=
  ⟨by rw [State.stn_setStn_self]; exact same, rfl, rfl⟩

/-- A change of station n in fields that stall-on-full does not have. -/
theorem admits_setStn {n : Nat} {s : State} (x : Stn) (same : (s.stn n).SameHolds x := by exact ⟨rfl, rfl, rfl, rfl, rfl⟩)
    (flowAt : x.flowAt = (s.stn n).flowAt := by rfl) : Admits n s (s.setStn n x) :=
  ⟨keepsHolds_setStn same, by rw [State.stn_setStn_self, flowAt]⟩

/-- A status register of the station other than those of markers and the sequencer. -/
theorem admits_incF {n : Nat} (s : State) {r : Reg} (hi lo v : Nat) (mk : (Kx.stnMkStat n).off ≠ r.off)
    (seq : (Kx.stnSeqCfg n).off ≠ r.off) : Admits n s (s.incF r hi lo v) :=
  ⟨⟨⟨rfl, rfl, rfl, rfl, rfl⟩, congrArg (fld · 15 8) (State.rd_incF_ne s r _ hi lo v mk), State.rd_incF_ne s r _ hi lo v seq⟩, rfl⟩

/-- The counts of KX_STN_MK_STAT beside STALLTO. -/
theorem admits_countMark {n : Nat} (s : State) {hi lo : Nat} (v : Nat) (top : hi < 32) (order : lo ≤ hi) (other : 15 < lo) :
    Admits n s (s.incF (Kx.stnMkStat n) hi lo v) := by
  refine ⟨⟨⟨rfl, rfl, rfl, rfl, rfl⟩, ?_, ?_⟩, rfl⟩
  · unfold State.rf
    rw [State.rd_incF, State.rd_wr_self, fld_setFld_ne _ _ _ _ _ _ top order (Or.inl other)]
  · refine State.rd_incF_ne s _ _ hi lo v ?_
    simp only [Kx.stnSeqCfg, Kx.stnMkStat]
    omega

/-- A step of another counter than AO44. -/
theorem admits_bump {n : Nat} (s : State) {key : Nat} (d : Nat) (other : 300 ≠ key) : Admits n s (s.bump n key d) := by
  have regs : ∀ r : Reg, r.off < 0x2000000 + 0x10000 * n + 0x500 → (s.bump n key d).rd r = s.rd r :=
    fun r low => State.rd_bump s n key d r (by simp only [Kx.stnCovf]; omega)
  have mkStat := regs (Kx.stnMkStat n) (by simp only [Kx.stnMkStat]; omega)
  have seqCfg := regs (Kx.stnSeqCfg n) (by simp only [Kx.stnSeqCfg]; omega)
  have stalled := State.ao_bump_ne s n key d 300 other
  obtain ⟨cnt, ao, incs, wrap, stn⟩ := State.stn_bump s n key d
  rw [stn] at stalled
  exact ⟨⟨by rw [stn]; exact ⟨rfl, rfl, rfl, rfl, stalled⟩, congrArg (fld · 15 8) mkStat, seqCfg⟩, by rw [stn]⟩

/-! ## Curds and records -/

theorem admits_numberAt (s : State) (n : Nat) (r : Record) (ft : Nat) : Admits n s (s.numberAt n r ft).1 := by
  refine Admits.trans ?_ (admits_bump (key := 256 + 42) _ 1 (by decide))
  exact admits_setStn _

theorem admits_pace (s : State) (n : Nat) (r : Record) : Admits n s (s.pace n r).1 :=
  admits_setStn _

theorem admits_closeCur (s : State) (n : Nat) (cause : BitVec 2) : Admits n s (s.closeCur n cause) := by
  unfold State.closeCur
  dsimp only
  split
  · exact Admits.refl n s
  · exact admits_setStn _

theorem admits_storeOrd (s : State) (n : Nat) (r : Record) : Admits n s (s.storeOrd n r).1 := by
  have opened : ∀ (x : State) (c : Curd) (p : Prop) [Decidable p],
      Admits n x (if p then (x, false) else (x.modStn n fun st => { st with cur := some c, curAt := x.stnFt n }, true)).1 := by
    intro x c p _
    split
    · exact Admits.refl n x
    · exact admits_setStn _
  unfold State.storeOrd
  split
  · split
    · exact admits_setStn _
    · exact (admits_closeCur s n closeFull).trans (opened _ _ _)
  · exact opened s _ _

theorem admits_storeRsv (s : State) (n : Nat) (r : Record) : Admits n s (s.storeRsv n r).1 := by
  unfold State.storeRsv
  split
  · split
    · exact admits_setStn _
    · unfold State.closeRsv
      dsimp only
      split
      · exact Admits.refl n s
      · exact admits_setStn _
  · split
    · exact admits_setStn _
    · exact Admits.refl n s

theorem admits_admitGap (s : State) (n : Nat) (g : GapAcc) : Admits n s (s.admitGap n g) := by
  have numbered := admits_numberAt s n (gapRecord g) (s.stnFt n)
  unfold State.admitGap State.number
  dsimp only
  generalize s.numberAt n (gapRecord g) (s.stnFt n) = x at numbered ⊢
  split
  · refine ((numbered.trans (admits_storeRsv x.1 n x.2)).trans (admits_pace _ n x.2)).trans
      (Admits.trans ?_ (admits_bump (key := 256 + 43) _ g.count (by decide)))
    exact admits_setStn _
  · exact (admits_storeRsv s n _).trans (admits_setStn _)

theorem admits_flushGaps (s : State) (n : Nat) (p : GapAcc → Bool) : Admits n s (s.flushGaps n p) :=
  admits_foldl _ (fun s g => admits_admitGap s n g) _ s

theorem admits_lose (s : State) (n : Nat) (r : Record) (cause : Nat) : Admits n s (s.lose n r cause) := by
  unfold State.lose
  extract_lets counted noted
  have hcounted : Admits n s counted := by
    change Admits n s (if _ then _ else _)
    split
    · exact admits_incF s _ _ _ (by simp only [Kx.stnMkStat, Kx.stnPcsStat]; omega) (by simp only [Kx.stnSeqCfg, Kx.stnPcsStat]; omega)
    · exact Admits.refl n s
  have hnoted : Admits n counted noted := admits_setStn _
  exact (hcounted.trans hnoted).trans (admits_flushGaps noted n _)

/-- A record with its number: it is lost for a cause that is certain, refused by its pacer, stored, or lost for want of a place
(01_unit_anatomy R20). -/
def State.placeRec (s : State) (n : Nat) (r : Record) (cause : Option Nat) : State × Record × Bool :=
  let paced := s.pace n r
  let stored := paced.1.storeOrd n r
  cause.elim
    (if paced.2 then (paced.1.lose n r cPace, r, false)
      else if stored.2 then (stored.1.flushGaps n fun g => g.src == r.src && g.lkind.toNat == lkind r.ty && !g.prior, r, true)
      else (stored.1.lose n r (stored.1.placeCause n), r, false))
    fun c => (s.lose n r (s.certain n r c), r, false)

/-- A station that offers records numbers one and finds it a place. -/
theorem State.admitR_eq (s : State) (n : Nat) (r : Record) (cause ft : Option Nat) :
    s.admitR n r cause ft =
      if !(s.stn n).offering then (s, r, false)
      else
        let x := s.numberAt n r (ft.getD (s.stnFt n))
        x.1.placeRec n x.2 cause := by
  unfold State.admitR
  cases ft <;> cases cause <;> rfl

theorem admits_placeRec (s : State) (n : Nat) (r : Record) (cause : Option Nat) : Admits n s (s.placeRec n r cause).1 := by
  unfold State.placeRec
  extract_lets paced stored
  have hpaced : Admits n s paced.1 := admits_pace s n r
  have hstored : Admits n s stored.1 := hpaced.trans (admits_storeOrd paced.1 n r)
  cases cause with
  | some c => exact admits_lose s n r _
  | none =>
    dsimp only [Option.elim_none]
    split
    · exact hpaced.trans (admits_lose paced.1 n r _)
    · split
      · exact hstored.trans (admits_flushGaps stored.1 n _)
      · exact hstored.trans (admits_lose stored.1 n r _)

theorem admits_admitR (s : State) (n : Nat) (r : Record) (cause ft : Option Nat) : Admits n s (s.admitR n r cause ft).1 := by
  rw [State.admitR_eq]
  split
  · exact Admits.refl n s
  · exact (admits_numberAt s n r _).trans (admits_placeRec _ n _ cause)

theorem admits_admitStall (s : State) (n : Nat) (r : Record) : Admits n s (s.admitStall n r) := by
  have numbered := admits_numberAt s n r (s.stnFt n)
  unfold State.admitStall State.number
  split
  · exact Admits.refl n s
  · dsimp only
    generalize s.numberAt n r (s.stnFt n) = x at numbered ⊢
    obtain ⟨y, r⟩ := x
    refine numbered.trans ((admits_pace y n r).trans ?_)
    split
    · exact admits_lose _ n r _
    · split
      · unfold State.storeStall
        dsimp only
        split
        · exact admits_storeRsv _ n r
        · exact (admits_storeRsv _ n r).trans (admits_setStn _)
      · exact admits_setStn _

/-! ## Markers -/

theorem admits_fillRec (s : State) (n q : Nat) (f : Record → Record) : Admits n s (s.fillRec n q f) :=
  admits_setStn _

theorem admits_setRef (s : State) (n i : Nat) (r : Option MkRef) : Admits n s (s.setRef n i r) :=
  admits_setStn _

theorem admits_closeRun (s : State) (n i cause ft : Nat) : Admits n s (s.closeRun n i cause ft) := by
  unfold State.closeRun
  split
  · exact Admits.refl n s
  · split
    · exact Admits.refl n s
    · exact (admits_setRef s n i _).trans (admits_admitR _ n _ _ _)

theorem admits_admitMark (s : State) (n e : Nat) (src : BitVec 16) (p1 : Bool) (beats : List (BitVec 128)) (xb : Nat) (cause : Option Nat)
    (ft : Nat) : Admits n s (s.admitMark n e src p1 beats xb cause ft).1 := by
  unfold State.admitMark
  extract_lets sl lost
  have admitted := admits_admitR s n (markRecord src p1 xb) lost (some ft)
  generalize s.admitR n (markRecord src p1 xb) lost (some ft) = x at admitted ⊢
  dsimp only
  split
  · exact admitted.trans (admits_setStn _)
  · exact admitted

theorem admits_countRepeat (s : State) (n i ft : Nat) : Admits n s (s.countRepeat n i ft) := by
  unfold State.countRepeat
  split
  · exact Admits.refl n s
  · exact admits_setRef s n i _

theorem admits_lastRepeat (s : State) (n i ft : Nat) : Admits n s (s.lastRepeat n i ft) := by
  unfold State.lastRepeat
  split
  · exact Admits.refl n s
  · split
    · exact Admits.refl n s
    · split
      · exact admits_closeRun s n i _ _
      · split
        · exact admits_closeRun s n i _ _
        · exact Admits.refl n s

theorem admits_newMark (s : State) (n e i : Nat) (src : BitVec 16) (p1 : Bool) (beats : List (BitVec 128)) (xb : Nat) (cause : Option Nat)
    (ft : Nat) : Admits n s (s.newMark n e i src p1 beats xb cause ft).1 := by
  unfold State.newMark
  split
  · exact ((admits_closeRun s n i _ ft).trans (admits_setRef _ n i _)).trans (admits_admitMark _ n e src p1 beats xb cause ft)
  · exact admits_admitMark s n e src p1 beats xb cause ft

theorem admits_refuteRepeat (s : State) (n e i : Nat) (src : BitVec 16) (p1 : Bool) (beats : List (BitVec 128)) (xb t0 : Nat) :
    Admits n s (s.refuteRepeat n e i src p1 beats xb t0).1 := by
  unfold State.refuteRepeat
  extract_lets back closed
  have hback : Admits n s back := by
    simp only [back]
    split
    · split
      · exact admits_setRef s n i _
      · exact Admits.refl n s
    · exact Admits.refl n s
  have hclosed : Admits n back closed := by
    change Admits n back (if _ then _ else _)
    split
    · exact admits_closeCur back n _
    · exact Admits.refl n back
  exact (hback.trans hclosed).trans (admits_newMark closed n e i src p1 beats xb none t0)

theorem admits_extendRef (s : State) (n i : Nat) (src : BitVec 16) (beats : List (BitVec 128)) :
    Admits n s (s.extendRef n i src beats) := by
  unfold State.extendRef
  split
  · split
    · exact admits_setRef s n i _
    · exact Admits.refl n s
  · exact Admits.refl n s

theorem admits_truncPlace (s : State) (n q : Nat) : Admits n s (s.truncPlace n q) := by
  unfold State.truncPlace
  extract_lets marked queue freed
  have hfreed : Admits n s freed := (admits_fillRec s n q _).trans (admits_setStn _)
  split
  · exact (hfreed.trans (admits_fillRec freed n q _)).trans (admits_setStn _)
  · exact hfreed

theorem admits_endMarker (s : State) (n : Nat) (m : MkIn) : Admits n s (s.endMarker n m) := by
  unfold State.endMarker
  extract_lets left counted
  have hcounted : Admits n s counted :=
    Admits.trans (x := left) (admits_setStn _)
      (admits_countMark (hi := 23) (lo := 16) left 1 (by decide) (by decide) (by decide))
  refine hcounted.trans ?_
  cases m.entry with
  | none =>
    dsimp only
    split
    · exact Admits.refl n counted
    · exact admits_truncPlace counted n _
  | some i =>
    have refuted := admits_refuteRepeat counted n m.tap i (srcId n m.tap m.port.toNat) m.p1 m.beats (mkXb (m.beats.headD 0)) m.t0
    dsimp only
    split
    · exact refuted
    · exact refuted.trans (admits_truncPlace _ n _)

theorem admits_expectBeats (s : State) (n e : Nat) (src : BitVec 16) (data : BitVec 128) (p1 : Bool) (seq entry : Option Nat) :
    Admits n s (s.expectBeats n e src data p1 seq entry) := by
  unfold State.expectBeats
  split
  · exact Admits.refl n s
  · exact admits_setStn _

/-- Beat 0 of a marker: no entry takes it, or its entry gates it, counts it as a repeat or admits it (04_markers R90-R94). -/
theorem admits_takeBeat0 (s : State) (n e : Nat) (src : BitVec 16) (data : BitVec 128) (p1 : Bool) (cause : Option Nat)
    (later : List (Nat × TapOp)) : Admits n s (s.takeBeat0 n e src data p1 cause later) := by
  unfold State.takeBeat0
  dsimp only
  split
  · exact (admits_countMark (hi := 31) (lo := 24) s 1 (by decide) (by decide) (by decide)).trans (admits_expectBeats _ n e src data p1 _ _)
  · rename_i i _
    split
    · exact admits_expectBeats s n e src data p1 _ _
    · exact ((admits_countRepeat s n i _).trans (admits_lastRepeat _ n i _)).trans (admits_expectBeats _ n e src data p1 _ _)
    · exact (admits_countRepeat s n i _).trans (admits_expectBeats _ n e src data p1 _ _)
    · exact (admits_newMark s n e i _ p1 _ _ cause _).trans (admits_expectBeats _ n e src data p1 _ _)

/-- A later beat of a marker goes to its place, and may show that the marker is no repeat (04_markers R88, R92). -/
theorem admits_takeBeatMore (s : State) (n e : Nat) (m : MkIn) (data : BitVec 128) : Admits n s (s.takeBeatMore n e m data) := by
  unfold State.takeBeatMore
  extract_lets beats d sid up placed extended bad
  have hplaced : Admits n s placed := by
    simp only [placed]
    split
    · exact admits_setStn _
    · exact Admits.refl n s
  have noted : ∀ (y : State) (f g : Stn → List MkIn) (last : Prop) [Decidable last],
      Admits n y (y.modStn n fun st => if last then { st with mkIn := f st } else { st with mkIn := g st }) := by
    intro y f g last _
    refine admits_setStn _ ?_ ?_
    · split
      · exact ⟨rfl, rfl, rfl, rfl, rfl⟩
      · exact ⟨rfl, rfl, rfl, rfl, rfl⟩
    · split
      · rfl
      · rfl
  have hextended : Admits n s extended := hplaced.trans (admits_foldl _ (fun s i => admits_extendRef s n i sid beats) _ placed)
  clear_value bad extended
  cases m.entry with
  | none => exact hextended.trans (noted extended _ _ _)
  | some i =>
    have known : Admits n s (if bad then extended.refuteRepeat n e i sid m.p1 beats (mkXb d) m.t0 else (extended, m.seq)).1 := by
      split
      · exact hextended.trans (admits_refuteRepeat extended n e i sid m.p1 beats _ m.t0)
      · exact hextended
    dsimp only
    generalize (if bad then extended.refuteRepeat n e i sid m.p1 beats (mkXb d) m.t0 else (extended, m.seq)) = x at known ⊢
    split
    · exact known.trans (noted x.1 _ _ _)
    · exact (known.trans (noted x.1 _ _ _)).trans (admits_lastRepeat _ n i m.t0)

/-! ## Flow events -/

/-- A flow event counts at its slice and is admitted; nothing is held for it (07_sequence_ledger R161). -/
theorem keepsHolds_takeFlow (s : State) (n e : Nat) (handle : BitVec 21) (code : BitVec 4) (arg : BitVec 32) (p1 : Bool)
    (cause : Option Nat) : KeepsHolds n s (s.takeFlow n e handle code arg p1 cause) := by
  unfold State.takeFlow
  split
  · exact (Admits.refl n s).toKeepsHolds
  · extract_lets ft sl k certain counted noted
    have hcounted : Admits n s counted := by
      change Admits n s (if _ then _ else _)
      split
      · exact admits_incF s _ _ _ (by simp only [Kx.stnMkStat, Kx.stnFlStat]; omega) (by simp only [Kx.stnSeqCfg, Kx.stnFlStat]; omega)
      · exact Admits.refl n s
    have hnoted : KeepsHolds n counted noted := keepsHolds_setStn ⟨rfl, rfl, rfl, rfl, rfl⟩
    exact (hcounted.toKeepsHolds.trans hnoted).trans (admits_admitR noted n _ _ _).toKeepsHolds

end Sys2Proof.Machine
end

section
/-!
SUPPORT. A die edge at which a station's configuration looks at nothing and one port presents one marker beat or flow event: what its start
and its observation leave (03_counters R67, 08_tensor R194), and that the admission of the one observation is then all that is left of it.
-/

namespace Sys2Proof.Machine

open Sys2Proof.Safety

/-! ## The observation -/

/-- Of a station, what an edge's start and an observation leave where no counter looks at it. -/
def Stn.Watched (x y : Stn) : Prop :=
  ∃ a c m d e q l j i o z cnt ao wrap accs, y =
    { x with inAt := a, cmpIn := c, meshIn := m, ocHit0 := d, ocHit1 := e, seqr := q, late := l, cyc := j, incs := i, loads := o
             meshQ := z, cnt := cnt, ao := ao, wrap := wrap, accs := accs }

/-- Station n has seen what it was shown: AO44 stands, no LASTC record has come due, and no register below those of tensor watch and of the
counters' wrap bits has changed. -/
structure Seen (n : Nat) (s x : State) : Prop where
  only : StnOnly n s x
  stn : (s.stn n).Watched (x.stn n)
  stalled : sgetD (x.stn n).ao 300 0 = sgetD (s.stn n).ao 300 0
  lastc : (x.stn n).accs.map (·.lastDue) = (s.stn n).accs.map (·.lastDue)
  regs : ∀ r : Reg, r.off < 0x2000000 + 0x10000 * n + 0x70 → x.rd r = s.rd r

theorem Stn.Watched.refl (x : Stn) : x.Watched x := ⟨_, _, _, _, _, _, _, _, _, _, _, _, _, _, _, rfl⟩

theorem Stn.Watched.trans {x y z : Stn} (h : x.Watched y) (g : y.Watched z) : x.Watched z := by
  obtain ⟨_, _, _, _, _, _, _, _, _, _, _, _, _, _, _, rfl⟩ := h
  obtain ⟨_, _, _, _, _, _, _, _, _, _, _, _, _, _, _, rfl⟩ := g
  exact ⟨_, _, _, _, _, _, _, _, _, _, _, _, _, _, _, rfl⟩

theorem Seen.refl (n : Nat) (s : State) : Seen n s s := ⟨StnOnly.refl n s, Stn.Watched.refl _, rfl, rfl, fun _ _ => rfl⟩

theorem Seen.trans {n : Nat} {s x y : State} (h : Seen n s x) (g : Seen n x y) : Seen n s y :=
  ⟨h.only.trans g.only, h.stn.trans g.stn, g.stalled.trans h.stalled, g.lastc.trans h.lastc,
    fun r low => (g.regs r low).trans (h.regs r low)⟩

theorem seen_foldl {α : Type} {n : Nat} (f : State → α → State) (h : ∀ s a, Seen n s (f s a)) (l : List α) (s : State) :
    Seen n s (l.foldl f s) :=
  List.foldlRecOn l f (Seen.refl n s) fun x hx a _ => hx.trans (h x a)

theorem ObsOnly.seen {n : Nat} {s x : State} (h : ObsOnly n s x) : Seen n s x := by
  obtain ⟨⟨st, shape⟩, others, _, _, _, _, _, _, _, _, _, _, _, stn⟩ := h
  refine ⟨⟨⟨s.regs, st, s.hw, shape⟩, others⟩, ?_, by rw [stn], by rw [stn], fun r _ => by rw [shape]; rfl⟩
  rw [stn]
  exact ⟨_, _, _, _, _, _, _, _, _, _, _, _, _, _, _, rfl⟩

/-- A step of another counter than AO44. -/
theorem seen_bump {n key : Nat} (s : State) (d : Nat) (other : 300 ≠ key) : Seen n s (s.bump n key d) := by
  have stalled := State.ao_bump_ne s n key d 300 other
  obtain ⟨cnt, ao, incs, wrap, stn⟩ := State.stn_bump s n key d
  refine ⟨stnOnly_bump n key d s, ?_, stalled, by rw [stn], fun r low => State.rd_bump s n key d r ?_⟩
  · rw [stn]
    exact ⟨_, _, _, _, _, _, _, _, _, _, _, _, _, _, _, rfl⟩
  · simp only [Kx.stnCovf]
    omega

theorem seen_incF {n : Nat} (s : State) {r : Reg} (hi lo v : Nat) (high : 0x2000000 + 0x10000 * n + 0x70 ≤ r.off) :
    Seen n s (s.incF r hi lo v) :=
  ⟨stnOnly_incF n s r hi lo v, Stn.Watched.refl _, rfl, rfl, fun q low => State.rd_incF_ne s r q hi lo v (by omega)⟩

theorem seen_setB {n : Nat} (s : State) {r : Reg} (i : Nat) (b : Bool) (high : 0x2000000 + 0x10000 * n + 0x70 ≤ r.off) :
    Seen n s (s.setB r i b) :=
  ⟨⟨⟨_, s.stns, _, rfl⟩, fun _ _ => rfl⟩, Stn.Watched.refl _, rfl, rfl, fun q low => State.rd_setB_ne s r q i b (by omega)⟩

theorem map_replaceFirst {α β : Type} (p : α → Bool) (f : α → α) (g : α → β) (same : ∀ a, g (f a) = g a) (l : List α) :
    (replaceFirst p f l).map g = l.map g := by
  induction l with
  | nil => rfl
  | cons a l ih =>
    unfold replaceFirst
    split
    · rw [List.map_cons, List.map_cons, same]
    · rw [List.map_cons, List.map_cons, ih]

/-- A change of an accumulation that makes no LASTC record due. -/
theorem seen_modAcc {n id : Nat} (s : State) {f : Accum → Accum} (same : ∀ a, (f a).lastDue = a.lastDue) :
    Seen n s (s.modAcc n id f) := by
  refine ⟨stnOnly_modStn n s _, ?_, ?_, ?_, fun _ _ => rfl⟩
  · unfold State.modAcc
    rw [State.stn_modStn_self]
    exact ⟨_, _, _, _, _, _, _, _, _, _, _, _, _, _, _, rfl⟩
  · unfold State.modAcc
    rw [State.stn_modStn_self]
  · unfold State.modAcc
    rw [State.stn_modStn_self]
    exact map_replaceFirst _ f _ same _

/-- A numeric report goes into the statistics of the accumulations that it finds (08_tensor R194). -/
theorem seen_numericReport (s : State) (n e : Nat) (beat0 beat1 : BitVec 128) : Seen n s (s.numericReport n e beat0 beat1) := by
  unfold State.numericReport
  extract_lets tid step sat flush hit counted
  have hcounted : Seen n s counted := by
    change Seen n s (if _ then _ else _)
    split
    · exact seen_incF s _ _ _ (by simp only [Kx.stnTwStat1]; omega)
    · refine seen_foldl _ (fun s a => ?_) _ s
      exact seen_modAcc s fun _ => rfl
  refine hcounted.trans (seen_foldl _ (fun s i => ?_) _ counted)
  split
  · exact seen_setB s _ _ (by simp only [Kx.stnTwNflag]; omega)
  · exact Seen.refl n s

theorem seen_reportOf (s : State) (n e : Nat) (src : BitVec 16) (data : BitVec 128) : Seen n s (s.reportOf n e src data) := by
  unfold State.reportOf
  split
  · dsimp only
    split
    · exact seen_numericReport s n e _ data
    · exact Seen.refl n s
  · exact Seen.refl n s

theorem Seen.clk {n : Nat} {s x : State} (h : Seen n s x) : x.clk = s.clk := h.only.clk

theorem Seen.stnFt {n : Nat} {s x : State} (h : Seen n s x) : x.stnFt n = s.stnFt n := by
  obtain ⟨_, _, _, _, _, _, _, _, _, _, _, _, _, _, _, stn⟩ := h.stn
  unfold State.stnFt
  rw [stn, h.clk]

theorem Seen.sliceOf {n : Nat} {s x : State} (h : Seen n s x) (e : Nat) : x.sliceOf n e = s.sliceOf n e := by
  obtain ⟨⟨_, _, _, rfl⟩, -⟩ := h.only
  rfl

theorem Seen.clear {n : Nat} {s x : State} (h : Seen n s x) : clear x n = clear s n := by
  obtain ⟨_, _, _, _, _, _, _, _, _, _, _, _, _, _, _, stn⟩ := h.stn
  unfold Safety.clear
  rw [stn]
  rfl

theorem Seen.held {n : Nat} {s x : State} (h : Seen n s x) (e : Nat) (flow : Bool) : x.held n e flow = s.held n e flow := by
  obtain ⟨_, _, _, _, _, _, _, _, _, _, _, _, _, _, _, stn⟩ := h.stn
  unfold State.held
  rw [stn]

theorem Seen.flowsAt {n : Nat} {s x : State} (h : Seen n s x) (sl ft : Nat) : x.flowsAt n sl ft = s.flowsAt n sl ft := by
  obtain ⟨_, _, _, _, _, _, _, _, _, _, _, _, _, _, _, stn⟩ := h.stn
  unfold State.flowsAt
  rw [stn]

theorem Seen.queueFits {n : Nat} {s x : State} (h : Seen n s x) (sl b : Nat) : x.queueFits n sl b = s.queueFits n sl b := by
  obtain ⟨_, _, _, _, _, _, _, _, _, _, _, _, _, _, _, stn⟩ := h.stn
  unfold State.queueFits State.queueUsed
  rw [stn]

theorem Seen.numbered {n : Nat} {s x : State} (h : Seen n s x) (ft : Nat) (r : Record) : numbered x n ft r = numbered s n ft r := by
  obtain ⟨_, _, _, _, _, _, _, _, _, _, _, _, _, _, _, stn⟩ := h.stn
  unfold Safety.numbered
  rw [stn]

theorem Seen.holdRoom {n : Nat} {s x : State} (seen : Seen n s x) (h : Hold) : x.holdRoom n h = s.holdRoom n h := by
  unfold State.holdRoom
  rw [seen.sliceOf, seen.stnFt]
  dsimp only
  rw [seen.flowsAt, seen.queueFits]

/-- A marker beat or a flow event: what a port may hold (04_markers R97, R98). -/
def TapOp.holdable : TapOp → Bool
  | .beat .. => true
  | .flow .. => true
  | _ => false

theorem Hold.op_holdable (h : Hold) : h.op.holdable = true := by
  unfold Hold.op
  split
  · rfl
  · rfl

/-- Under `quiet` the observation of a beat or of a flow event counts at its always-on counter, and no retirement is seen. -/
theorem State.see_holdable (s : State) (n : Nat) {p : Pres} (port : p.op.holdable = true) (still : quiet s n = true) :
    Seen n s (State.see n (s, []) p).1 ∧ (State.see n (s, []) p).2 = [] := by
  have observed := fun e p1 o cyc => (observe_quiet s n e p1 o cyc still).seen
  obtain ⟨o, hold⟩ := p
  cases o
  case beat e src data p1 cyc =>
    exact ⟨((observed _ _ _ _).trans (seen_bump (key := 256 + 50) _ 1 (by decide))).trans (seen_reportOf _ n e src data), rfl⟩
  case flow e h c a p1 cyc => exact ⟨(observed _ _ _ _).trans (seen_bump (key := 256 + 51) _ 1 (by decide)), rfl⟩
  all_goals exact absurd port Bool.false_ne_true

/-! ## The edge -/

/-- No port begins a hold where the edge leaves none held. -/
theorem State.beginHolds_none (s : State) (n : Nat) (ops : List TapOp) : s.beginHolds n [] ops = s := by
  unfold State.beginHolds
  refine List.foldlRecOn ops _ (motive := fun x => x = s) rfl fun x hx o _ => ?_
  rw [← hx]
  cases o
  case beat => simp
  case flow => simp
  all_goals rfl

theorem State.countDown_none (s : State) (n : Nat) : s.countDown n [] = (s, []) := rfl

/-- The state in which the one observation of an edge is admitted. -/
def State.shown (s : State) (n : Nat) (p : Pres) : State := (State.see n (s.startEdge n, []) p).1

theorem State.seen_shown {s : State} {n : Nat} {p : Pres} (port : p.op.holdable = true) (still : quiet s n = true)
    (single : alone s n = true) : Seen n s (s.shown n p) := by
  have started := startEdge_quiet s n still single
  exact started.seen.trans (State.see_holdable _ n port ((quiet_congr started).trans still)).1

/-- What follows the observations of an edge finds the accumulations, the banks and the sequencer as they were. -/
structure SameAfter (n : Nat) (s x : State) : Prop where
  accs : (x.stn n).accs = (s.stn n).accs
  banks : (x.stn n).banks = (s.stn n).banks
  seqCfg : x.rd (Kx.stnSeqCfg n) = s.rd (Kx.stnSeqCfg n)

theorem SameAfter.trans {n : Nat} {s x y : State} (h : SameAfter n s x) (g : SameAfter n x y) : SameAfter n s y :=
  ⟨g.accs.trans h.accs, g.banks.trans h.banks, g.seqCfg.trans h.seqCfg⟩

theorem KeepsHolds.after {n : Nat} {s x : State} (h : KeepsHolds n s x) : SameAfter n s x := ⟨h.stn.accs, h.stn.banks, h.seqCfg⟩

/-- Once the one presentation of an edge is admitted, nothing is left to do at it. -/
theorem afterEdge_seen {s x y : State} {n : Nat} (still : quiet s n = true) (single : alone s n = true) (seen : Seen n s x)
    (same : SameAfter n x y) : ((y.admitLastc n).seqStep n).admitBanks n = y := by
  simp only [alone, Bool.and_eq_true] at single
  obtain ⟨⟨-, banks⟩, accs⟩ := single
  refine afterEdge_quiet y n ?_ ?_ ?_
  · have cfg := same.seqCfg.trans (seen.regs (Kx.stnSeqCfg n) (by simp only [Kx.stnSeqCfg]; omega))
    exact (congrArg (BitVec.getLsbD · 31) cfg).trans (quiet_parts still).2.2
  · have due : ∀ l : List Accum, l.all (fun a => !a.lastDue) = (l.map (·.lastDue)).all (!·) := by simp [Function.comp_def]
    rw [same.accs, due, seen.lastc, ← due]
    exact accs
  · obtain ⟨_, _, _, _, _, _, _, _, _, _, _, _, _, _, _, stn⟩ := seen.stn
    rw [same.banks, stn]
    exact banks

/-- At an edge with one presentation, which its port can take, the event's observation and its admission are all that happens. -/
theorem tryEdge_one {s : State} {n : Nat} {o : TapOp} {p : Pres} (still : quiet s n = true) (single : alone s n = true)
    (offered : (s.startEdge n).presentations n [] [o] = [p]) (port : p.op.holdable = true)
    (before : ∀ x : State, x.beforeObs n o = x) (after : ∀ x : State, x.afterObs n o = x) (unflushed : o ≠ .flush)
    (free : (s.shown n p).stuckAt n p [] = false) (same : SameAfter n (s.shown n p) ((s.shown n p).admitObs n p [] [] [])) :
    (s.startEdge n).tryEdge n [] [o] [] = ((s.shown n p).admitObs n p [] [] [], none) := by
  have started := startEdge_quiet s n still single
  have seen := State.seen_shown port still single
  have rest := afterEdge_seen still single seen same
  have none_retired := (State.see_holdable (s.startEdge n) n port ((quiet_congr started).trans still)).2
  have idle : (s.shown n p).rb (Kx.stnSeqCfg n) 31 = false :=
    (congrArg (BitVec.getLsbD · 31) (seen.regs (Kx.stnSeqCfg n) (by simp only [Kx.stnSeqCfg]; omega))).trans (quiet_parts still).2.2
  unfold State.shown at *
  unfold State.tryEdge
  simp only [offered, State.beginHolds_none, List.foldl_cons, List.foldl_nil, before]
  generalize State.see n (s.startEdge n, []) p = x at *
  obtain ⟨x, rs⟩ := x
  obtain rfl : rs = [] := none_retired
  simp only [seqDue_off x n idle, State.countDown_none, admitAll, free, Bool.false_eq_true, if_false, List.map_nil, after,
    List.mem_singleton, unflushed.symm, rest]

/-- A command of such an event: the station and the registers of the taps are as its admission leaves them. -/
theorem done_onTap_one {i : Instr} {t n : Nat} {o : TapOp} {p : Pres} {s : State} {P : State → Prop} (e : exec i s = onTap t n o s)
    (on : (s.advance t).stnOn n = true) (still : quiet (s.advance t) n = true) (single : alone (s.advance t) n = true)
    (offered : ((s.advance t).startEdge n).presentations n [] [o] = [p]) (port : p.op.holdable = true)
    (before : ∀ x : State, x.beforeObs n o = x) (after : ∀ x : State, x.afterObs n o = x) (unflushed : o ≠ .flush)
    (free : ((s.advance t).shown n p).stuckAt n p [] = false)
    (same : SameAfter n ((s.advance t).shown n p) (((s.advance t).shown n p).admitObs n p [] [] []))
    (holds : ∀ r : State, r.stn n = (((s.advance t).shown n p).admitObs n p [] [] []).stn n →
      (∀ q ∈ tapRegs n, r.rd q = (((s.advance t).shown n p).admitObs n p [] [] []).rd q) → P r) : Completes i s P := by
  have edge := tryEdge_one still single offered port before after unflushed free same
  obtain ⟨x, next, stn, regs, -⟩ := onTap_alone t n o s on single (by rw [edge])
  rw [edge] at stn regs
  exact ⟨_, e.trans next, holds _ ((stn_settle s x n).trans stn) fun q mem => (rd_settle s x q).trans (regs q mem)⟩

end Sys2Proof.Machine
end

section
/-!
SUPPORT. Flow events and the ends of stall-on-full holds at a station whose configuration looks at nothing (07_sequence_ledger R161,
04_markers R97, R98).
-/

namespace Sys2Proof.Machine

open Sys2Proof.Safety

/-! ## A flow event -/

/-- The record of a flow event that its slice has room for is admitted at once, and counts at the slice (07_sequence_ledger R161). -/
theorem State.takeFlow_clear {s : State} {n e : Nat} {handle : BitVec 21} {code : BitVec 4} {arg : BitVec 32} {p1 : Bool}
    (free : clear s n = true) (passes : s.flowPass n e p1 = true) (first : s.flowsAt n (s.sliceOf n e) (s.stnFt n) = 0) :
    ((s.takeFlow n e handle code arg p1 none).stn n).cur.map (·.recs) =
        some [numbered s n (s.stnFt n) (flowRecord n e handle code arg p1)] ∧
      (s.takeFlow n e handle code arg p1 none).flowsAt n (s.sliceOf n e) (s.stnFt n) = 1 := by
  have offering : (s.stn n).offering = true := by
    unfold clear at free
    simp only [Bool.and_eq_true] at free
    exact free.1.1.1.1
  unfold State.takeFlow
  simp only [passes, offering, first, Bool.and_self, Bool.not_true, Bool.false_eq_true, if_false, Nat.zero_lt_two, if_true, reduceCtorEq]
  let counted := s.modStn n fun st =>
    { st with flowAt := (st.flowAt.filter fun x => x.1 != s.sliceOf n e) ++ [(s.sliceOf n e, s.stnFt n, 0 + 1)] }
  have stn : counted.stn n = { s.stn n with
      flowAt := ((s.stn n).flowAt.filter fun x => x.1 != s.sliceOf n e) ++ [(s.sliceOf n e, s.stnFt n, 0 + 1)] } :=
    State.stn_modStn_self s n _
  have ft : counted.stnFt n = s.stnFt n := by unfold State.stnFt; rw [stn]; rfl
  have still : clear counted n = true := by
    refine Eq.trans ?_ free
    unfold clear
    rw [stn]
    rfl
  have admitted := admits_admitR counted n (flowRecord n e handle code arg p1) none none
  obtain ⟨x, stored, cur, -⟩ := State.admitR_clear counted n (flowRecord n e handle code arg p1) none still
  change ((counted.admitR n _ none none).1.stn n).cur.map _ = _ ∧ (counted.admitR n _ none none).1.flowsAt n _ _ = _
  rw [stored] at admitted ⊢
  refine ⟨?_, ?_⟩
  · rw [cur, Option.getD_none, ft]
    simp [numbered, stn]
  · unfold State.flowsAt
    rw [admitted.flowAt, stn, List.find?_append]
    have others : ((s.stn n).flowAt.filter fun x => x.1 != s.sliceOf n e).find?
        (fun x => x.1 == s.sliceOf n e && x.2.1 == s.stnFt n) = none := by
      simp only [List.find?_eq_none, List.mem_filter]
      intro y ⟨_, other⟩
      simp_all
    rw [others]
    simp

/-- FLOW_EVENT at a port that is enabled and not held (07_sequence_ledger R161). -/
theorem flowEvent_admits {s : State} {t : Nat} {die : Fin 40} {tap : Fin 32} {handle : BitVec 21} {code : BitVec 4} {arg : BitVec 32}
    {p1 : Bool} {cyc : Nat} (on : (s.advance t).stnOn die = true) (still : quiet (s.advance t) die = true)
    (single : alone (s.advance t) die = true) (free : clear (s.advance t) die = true) (ready : (s.advance t).held die tap true = none)
    (enabled : ((s.advance t).rd (Kx.stnFlEn die)).getLsbD tap = true)
    (passes : privPass ((s.advance t).rf (Kx.stnFlCfg die) 1 0) p1 = true)
    (unstalled : ((s.advance t).rd (Kx.stnFlStall die)).getLsbD tap = false)
    (first : (s.advance t).flowsAt die ((s.advance t).sliceOf die tap) ((s.advance t).stnFt die) = 0) :
    Completes (.flowEvent t die tap handle code arg p1 cyc) s fun r =>
      let u := s.advance t
      (r.stn die).cur.map (·.recs) = some [numbered u die (u.stnFt die) (flowRecord die tap handle code arg p1)] ∧
        r.flowsAt die (u.sliceOf die tap) (u.stnFt die) = 1 := by
  let p : Pres := { op := .flow tap handle code arg p1 cyc }
  have seen : Seen die (s.advance t) ((s.advance t).shown die p) := State.seen_shown rfl still single
  have low : ∀ k, k < 0x70 → 0x2000000 + 0x10000 * die.val + k < 0x2000000 + 0x10000 * die.val + 0x70 := fun k h => by omega
  have en := seen.regs (Kx.stnFlEn die) (low _ (by decide))
  have cfg := seen.regs (Kx.stnFlCfg die) (low _ (by decide))
  have stall := seen.regs (Kx.stnFlStall die) (low _ (by decide))
  have offered : ((s.advance t).startEdge die).presentations die [] [.flow tap handle code arg p1 cyc] = [p] := by
    have unheld := ((startEdge_quiet _ _ still single).seen.held tap true).trans ready
    simp [State.presentations, State.presOf, unheld, sortBy, insertBy, p]
  refine done_onTap_one (show exec (.flowEvent t die tap handle code arg p1 cyc) s = execFlowEvent t die tap handle code arg p1 cyc s
    from rfl) on still single offered rfl (fun _ => rfl) (fun _ => rfl) nofun ?_
    (keepsHolds_takeFlow _ die tap handle code arg p1 none).after fun r stn _ => ?_
  · change State.flowHolds _ die tap p1 = false
    simp only [State.flowHolds, State.stallArmed, stall, unstalled, Bool.false_and, Bool.and_false]
  · have pass : ((s.advance t).shown die p).flowPass die tap p1 = true := by
      unfold State.flowPass State.rf
      rw [en, cfg, enabled]
      exact passes
    have taken := State.takeFlow_clear (handle := handle) (code := code) (arg := arg) (seen.clear.trans free) pass
      (by rw [seen.flowsAt, seen.sliceOf, seen.stnFt]; exact first)
    rw [seen.numbered, seen.sliceOf, seen.stnFt] at taken
    dsimp only
    unfold State.flowsAt at taken ⊢
    rw [stn]
    exact taken

/-! ## The end of a hold -/

/-- A hold has ended: its port is no longer held, and its time is in AO44 (04_markers R98). -/
structure HoldEnded (n : Nat) (h : Hold) (s x : State) : Prop where
  after : SameAfter n s x
  holds : (x.stn n).holds = (s.stn n).holds.filter fun y => !(y.tap == h.tap && y.flow == h.flow)
  stalled : sgetD (x.stn n).ao 300 0 = (sgetD (s.stn n).ao 300 0 + (s.stnFt n - h.since)) % 2 ^ 48
  disarm : (x.stn n).disarm = (s.stn n).disarm
  stallTo : x.rf (Kx.stnMkStat n) 15 8 = s.rf (Kx.stnMkStat n) 15 8

theorem HoldEnded.keeps {n : Nat} {h : Hold} {s x y : State} (e : HoldEnded n h s x) (k : KeepsHolds n x y) : HoldEnded n h s y :=
  ⟨e.after.trans k.after, k.stn.holds.trans e.holds, k.stn.stalled.trans e.stalled, k.stn.disarm.trans e.disarm,
    k.stallTo.trans e.stallTo⟩

theorem HoldEnded.ready {n : Nat} {h : Hold} {s x : State} (e : HoldEnded n h s x) : x.held n h.tap h.flow = none := by
  unfold State.held
  rw [e.holds]
  refine List.find?_eq_none.mpr fun y mem => ?_
  have other := (List.mem_filter.mp mem).2
  cases port : y.tap == h.tap && y.flow == h.flow
  · exact Bool.false_ne_true
  · rw [port] at other
    exact absurd other Bool.false_ne_true

theorem State.endHold_ends (s : State) (n : Nat) (h : Hold) (timeout : Bool) : HoldEnded n h s (s.endHold n h timeout) := by
  unfold State.endHold
  extract_lets dur sid left summed
  refine HoldEnded.keeps ?_ (admits_admitStall summed n _).toKeepsHolds
  have stn := State.stn_modStn_self s n fun st =>
    { st with
      holds := st.holds.filter fun x => !(x.tap == h.tap && x.flow == h.flow),
      offer := { st.offer with stall := st.offer.stall + dur } }
  obtain ⟨cnt, ao, incs, wrap, counted⟩ := State.stn_bump left n (256 + 44) dur
  have regs : ∀ r : Reg, r.off < 0x2000000 + 0x10000 * n + 0x500 → summed.rd r = s.rd r :=
    fun r low => State.rd_bump left n (256 + 44) dur r (by simp only [Kx.stnCovf]; omega)
  have stalled := State.ao_bumpAo left n 44 dur
  change left.stn n = _ at stn
  change summed.stn n = _ at counted
  rw [stn] at counted stalled
  have seqCfg := regs (Kx.stnSeqCfg n) (by simp only [Kx.stnSeqCfg]; omega)
  refine ⟨⟨by rw [counted], by rw [counted], seqCfg⟩, by rw [counted], stalled, by rw [counted], ?_⟩
  exact congrArg (fld · 15 8) (regs (Kx.stnMkStat n) (by simp only [Kx.stnMkStat]; omega))

/-- What a holdable port presents is admitted; of stall-on-full only the end of a hold that it comes from shows (04_markers R97, R98). -/
theorem keepsHolds_admitObs (s : State) (n : Nat) {p : Pres} (port : p.op.holdable = true) :
    KeepsHolds n (s.endHoldOf n p) (s.admitObs n p [] [] []) := by
  unfold State.admitObs
  extract_lets ended
  change KeepsHolds n ended _
  obtain ⟨o, hold⟩ := p
  cases o
  case flow => exact keepsHolds_takeFlow ended n _ _ _ _ _ _
  case beat e src data p1 cyc =>
    dsimp only
    split
    · exact (admits_takeBeatMore ended n e _ data).toKeepsHolds
    · refine Admits.toKeepsHolds (Admits.trans ?_ (admits_takeBeat0 _ n e src data p1 _ []))
      split
      · exact admits_endMarker ended n _
      · exact Admits.refl n ended
  all_goals exact absurd port Bool.false_ne_true

theorem mem_insertNew {α : Type} [DecidableEq α] (l : List α) (a : α) : a ∈ insertNew l a := by
  unfold insertNew
  split
  · assumption
  · exact List.mem_append_right l (List.mem_singleton_self a)

/-- A hold's timeout counts STALLTO and disarms the entry or port at the slice of its tap (04_markers R97, R98). -/
theorem State.holdExpire_counts (s : State) (n : Nat) (h : Hold) :
    SameAfter n s (s.holdExpire n h) ∧
      ((if h.flow then 64 + h.tap else h.entry), s.sliceOf n h.tap) ∈ ((s.holdExpire n h).stn n).disarm ∧
      (s.holdExpire n h).rf (Kx.stnMkStat n) 15 8 = min 255 (s.rf (Kx.stnMkStat n) 15 8 + 1) := by
  have stn : (s.holdExpire n h).stn n = { s.stn n with
      disarm := insertNew (s.stn n).disarm ((if h.flow then 64 + h.tap else h.entry), s.sliceOf n h.tap) } :=
    State.stn_modStn_self (s.incF (Kx.stnMkStat n) 15 8 1) n _
  have cfg : (s.holdExpire n h).rd (Kx.stnSeqCfg n) = s.rd (Kx.stnSeqCfg n) :=
    State.rd_incF_ne s (Kx.stnMkStat n) _ 15 8 1 (by simp only [Kx.stnSeqCfg, Kx.stnMkStat]; omega)
  refine ⟨⟨by rw [stn], by rw [stn], cfg⟩, ?_, State.rf_incF s (Kx.stnMkStat n) 15 8 1 (by decide) (by decide)⟩
  rw [stn]
  exact mem_insertNew _ _

/-- The hold that a port has when its end is presented. -/
def endOf (h : Hold) (timeout : Bool) : Pres := { op := h.op, hold := some (h, timeout) }

/-- The end of a hold is the one presentation of its edge, once its time has come or its end is for room. -/
theorem presentations_endHold {s : State} {n : Nat} {e : Nat} {flow timeout : Bool} {h : Hold} (held : s.held n e flow = some h)
    (due : timeout = true → h.since + 10 * usT ≤ s.stnFt n) : s.presentations n [] [.endHold e flow timeout] = [endOf h timeout] := by
  have early : (timeout && decide (s.stnFt n < h.since + 10 * usT)) = false := by
    cases timeout
    · rfl
    · simpa using due rfl
  simp only [State.presentations, State.presOf, held, early, List.not_mem_nil, decide_false, Bool.or_false, Bool.false_eq_true, if_false,
    List.foldl_cons, List.foldl_nil, List.any_nil, Bool.and_false]
  rfl

/-- A hold's end can be taken at its timeout, or for room. -/
theorem stuckAt_endOf {s : State} {n : Nat} {h : Hold} {timeout : Bool} (room : timeout = false → s.holdRoom n h = true) :
    s.stuckAt n (endOf h timeout) [] = false := by
  cases timeout with
  | true => rfl
  | false => exact congrArg (!·) (room rfl)

/-- The end of a hold: after its observation, and at a timeout the count and the disarming, the hold ends; the admission of what the port
presents changes nothing of it. -/
theorem done_endHold {i : Instr} {s : State} {t n e : Nat} {flow timeout : Bool} {h : Hold} {P : State → Prop}
    (eq : exec i s = onTap t n (.endHold e flow timeout) s) (on : (s.advance t).stnOn n = true) (still : quiet (s.advance t) n = true)
    (single : alone (s.advance t) n = true) (held : (s.advance t).held n e flow = some h)
    (due : timeout = true → h.since + 10 * usT ≤ (s.advance t).stnFt n)
    (room : timeout = false → (s.advance t).holdRoom n h = true)
    (holds : ∀ x z r : State, Seen n (s.advance t) x → HoldEnded n h (if timeout then x.holdExpire n h else x) z →
      r.stn n = z.stn n → r.rd (Kx.stnMkStat n) = z.rd (Kx.stnMkStat n) → P r) : Completes i s P := by
  have seen : Seen n (s.advance t) ((s.advance t).shown n (endOf h timeout)) := State.seen_shown h.op_holdable still single
  have started := (startEdge_quiet _ n still single).seen
  generalize hx : (s.advance t).shown n (endOf h timeout) = x at seen
  have expired : SameAfter n x (if timeout then x.holdExpire n h else x) := by
    split
    · exact (x.holdExpire_counts n h).1
    · exact ⟨rfl, rfl, rfl⟩
  have ended : HoldEnded n h (if timeout then x.holdExpire n h else x) (x.admitObs n (endOf h timeout) [] [] []) :=
    (State.endHold_ends _ n h timeout).keeps (keepsHolds_admitObs x n (p := endOf h timeout) h.op_holdable)
  refine done_onTap_one eq on still single (p := endOf h timeout)
    (presentations_endHold ((started.held e flow).trans held) fun timed => by rw [started.stnFt]; exact due timed) h.op_holdable
    (fun _ => rfl) (fun _ => rfl) nofun ?_ ?_ fun r stn regs => ?_
  · rw [hx]
    exact stuckAt_endOf fun timed => (seen.holdRoom h).trans (room timed)
  · rw [hx]
    exact expired.trans ended.after
  · rw [hx] at stn regs
    exact holds x _ r seen ended stn (regs _ List.mem_cons_self)

/-- A hold that is found is its port's. -/
theorem held_port {s : State} {n e : Nat} {flow : Bool} {h : Hold} (held : s.held n e flow = some h) : h.tap = e ∧ h.flow = flow := by
  simpa using List.find?_some held

/-- STALL_HOLD_RELEASE at a port whose queue has room (04_markers R97, R98). -/
theorem stallHoldRelease_ends {s : State} {t : Nat} {die : Fin 40} {tap : Fin 32} {flow : Bool} {h : Hold}
    (on : (s.advance t).stnOn die = true) (still : quiet (s.advance t) die = true) (single : alone (s.advance t) die = true)
    (held : (s.advance t).held die tap flow = some h)
    (room : if flow then (s.advance t).flowsAt die ((s.advance t).sliceOf die tap) ((s.advance t).stnFt die) < 2
      else (s.advance t).queueFits die ((s.advance t).sliceOf die tap) (1 + mkXb h.data) = true) :
    Completes (.stallHoldRelease t die tap flow) s fun r =>
      let u := s.advance t
      r.held die tap flow = none ∧
        sgetD (r.stn die).ao 300 0 = (sgetD (u.stn die).ao 300 0 + (u.stnFt die - h.since)) % 2 ^ 48 := by
  obtain ⟨tapOf, flowOf⟩ := held_port held
  have fits : (s.advance t).holdRoom die h = true := by
    unfold State.holdRoom
    rw [tapOf, flowOf]
    cases flow
    · exact room
    · exact decide_eq_true room
  refine done_endHold (show exec (.stallHoldRelease t die tap flow) s = execStallHoldRelease t die tap flow s from rfl) on still single held
    nofun (fun _ => fits) fun x z r seen ended stn _ => ⟨?_, ?_⟩
  · have ready := ended.ready
    rw [tapOf, flowOf] at ready
    unfold State.held at ready ⊢
    rw [stn]
    exact ready
  · rw [stn, ended.stalled]
    simp only [Bool.false_eq_true, if_false, seen.stalled, seen.stnFt]

/-- STALL_HOLD_TIMEOUT 10 us of FT after the hold began (04_markers R97, R98). -/
theorem stallHoldTimeout_disarms {s : State} {t : Nat} {die : Fin 40} {tap : Fin 32} {flow : Bool} {h : Hold}
    (on : (s.advance t).stnOn die = true) (still : quiet (s.advance t) die = true) (single : alone (s.advance t) die = true)
    (held : (s.advance t).held die tap flow = some h) (due : h.since + 10 * usT ≤ (s.advance t).stnFt die) :
    Completes (.stallHoldTimeout t die tap flow) s fun r =>
      let u := s.advance t
      r.held die tap flow = none ∧ ((if flow then 64 + tap.val else h.entry), u.sliceOf die tap) ∈ (r.stn die).disarm ∧
        r.rf (Kx.stnMkStat die) 15 8 = min 255 (u.rf (Kx.stnMkStat die) 15 8 + 1) := by
  obtain ⟨tapOf, flowOf⟩ := held_port held
  refine done_endHold (show exec (.stallHoldTimeout t die tap flow) s = execStallHoldTimeout t die tap flow s from rfl) on still single held
    (fun _ => due) nofun fun x z r seen ended stn mkStat => ⟨?_, ?_, ?_⟩
  · have ready := ended.ready
    rw [tapOf, flowOf] at ready
    unfold State.held at ready ⊢
    rw [stn]
    exact ready
  · obtain ⟨-, disarmed, -⟩ := x.holdExpire_counts die h
    rw [tapOf, flowOf, seen.sliceOf] at disarmed
    rw [stn, ended.disarm]
    exact disarmed
  · obtain ⟨-, -, counted⟩ := x.holdExpire_counts die h
    have before := seen.regs (Kx.stnMkStat die) (by simp only [Kx.stnMkStat]; omega)
    have after := ended.stallTo
    unfold State.rf at *
    rw [mkStat, after, ← before]
    exact counted

/-! ## The whole -/

/-- Settles O9, command by command: each conjunct is the lemma of its command. -/
theorem flowHolds : Obligations.FlowHolds := by
  unfold Obligations.FlowHolds
  intro s t die tap handle code arg p1 flow cyc h
  dsimp only
  intro on still single
  exact ⟨flowEvent_admits on still single, stallHoldRelease_ends on still single, stallHoldTimeout_disarms on still single⟩

end Sys2Proof.Machine
end
